-- ==== Sys2Proof/Word.lean ====
section
/-!
DEFINITION. The word types of the FL384 (spec 00 R7, R10): 64-bit words, bytes, and the widths that the
register files are built from.
-/
namespace Sys2Proof

/-- A 64-bit word: a scalar register, an address, a control register (R33, R163). -/
abbrev Word := BitVec 64

/-- One byte of memory (R7). -/
abbrev Byte := BitVec 8

/-- The 60 bits of one slot of a bundle (R29). -/
abbrev SlotBits := BitVec 60

/-- The 48 operand bits of a slot (R32). -/
abbrev Operands := BitVec 48

/-- A whole bundle (R28). -/
abbrev Bundle := BitVec 512

/-- The 256 bytes of a row, byte 0 in the low bits (R7, R94). -/
abbrev RowBits := BitVec 2048

/-- The 64 bytes of a row's trust plane (R104, R106). -/
abbrev TrustBits := BitVec 512

/-- A lane mask K0 to K7 (R34, R94). -/
abbrev Mask := BitVec 128

end Sys2Proof
end

