-- ==== Sys2Proof/Config.lean ====
section
/-!
DEFINITION. What the spec leaves to an implementation or leaves open: free values and the outside functions the spec
only names. Each is an opaque constant without a body, so no proof can see a value of it; a statement about it holds
for every value. Each is named in the assumption log.
-/
namespace Sys2Proof.Config

/-- Which of the results within 2 units in the last place a transcendental lane returns (R179); applied to the counter
of free values and the lane. Log 5. -/
opaque transPick : Nat → Nat → BitVec 3

/-- A byte whose data the spec calls unspecified (R209, R236, R248, R442); applied to the counter of free values and
the byte's number. Log 5. -/
opaque freeByte : Nat → Nat → BitVec 8

/-- A word whose value the spec leaves open. Log 5. -/
opaque freeWord : Nat → BitVec 64

/-- A choice among `n` possibilities the spec leaves open. Log 5. -/
opaque freeNat : Nat → Nat

/-- How far back a load from a scratchpad goes past copies that are not visible to it (R318, R320), applied to the counter of free values
and to the piece with the cycle. Log 5. -/
opaque stalePick : Nat → Nat → Nat

/-- The offset that start-up calibration leaves to a tile's harbour time, reduced to 0, 1 or 2 ticks (R25). Log 67. -/
opaque timeSkew : Nat → Nat

/-- The handle the loader would give to an object (R373), which the spec does not say how to choose. Log 5. -/
opaque freeHandle : Nat → BitVec 64

/-- The base of the save area of a hardware context of a function: SABASE (R330, R337), which the spec does not say how to
choose. Log 1. -/
opaque saveBase : Nat → Nat → BitVec 64

/-- SHA3-256 of a byte string (R372, R483), as a 256-bit number. Log 6. -/
opaque sha3 : List (BitVec 8) → Nat

/-- Ed25519 verification: key, message, signature (R371). Log 6. -/
opaque ed25519 : Nat → List (BitVec 8) → List (BitVec 8) → Bool

/-- ML-DSA verification: key, message, signature (R371). Log 6. -/
opaque mlDsa : List (BitVec 8) → List (BitVec 8) → List (BitVec 8) → Bool

/-- Byte `i` of the 1,024 bytes in which a quote returns its information, whose layout the spec does not give (R483). Log 6. -/
opaque quoteByte : List (BitVec 8) → Nat → BitVec 8

/-- Byte `i` of the identity keys and signatures of a quote (R483). Log 6. -/
opaque quoteSign : List (BitVec 8) → Nat → BitVec 8

/-- The digest held in signer slot 0 of a device as it leaves the factory (R372). Log 3. -/
opaque nvmDigest : Nat

/-- The SHA3-256 digest and the SVN of the firmware a device has booted (R483). Log 3. -/
opaque firmwareDigest : Nat
opaque firmwareSvn : Nat

/-- The export window that the device's firmware sets: the first byte, the first beyond it, and the key of its bytes (R485). Log 3. -/
opaque exportBase : Nat
opaque exportEnd : Nat
opaque exportKey : Option Nat
/-- Whether an offset lies in the export window of a peer, which the peer's firmware sets (R485). Log 3. -/
opaque peerExports : Nat → Nat → Bool

/-- AES key unwrap (R442): the unwrapped key, or none when its integrity check fails. Log 6. -/
opaque keyUnwrap : List (BitVec 8) → Option Nat

/-- SipHash of a word under the audit key (R467, R470). Log 6. -/
opaque sipHash : Nat → List (BitVec 8) → BitVec 64

end Sys2Proof.Config
end

