-- ==== Sys2Proof/Syntax.lean ====
section
/-!
DEFINITION. The instructions of the FL384: one constructor of `Instr` for each row of spec/opcode_table.json.
The first 213 are the operations a bundle's slots carry (03 R72 to R78) with the operand fields of their format
(02 R32 to R36); `nop` is the bundle without any operation. The other 88 are the happenings of the device that
are no bundle operation (95); each carries as plain arguments what the happening is about.
-/
namespace Sys2Proof

/-- The predicate and the sense under which a slot executes (R32, R39). -/
structure Guard where
  pred : BitVec 3
  sense : Bool
  deriving DecidableEq, Repr

/-- Operand fields of format V, slots A and B (R33). -/
structure VF where
  dst : BitVec 10
  t : Bool
  a : BitVec 10
  b : BitVec 10
  c : BitVec 10
  k : BitVec 3
  mod : BitVec 4
  deriving DecidableEq, Repr

/-- Operand fields of format SR, slot S (R33). -/
structure SRF where
  sd : BitVec 5
  sa : BitVec 5
  sb : BitVec 5
  sc : BitVec 5
  pd : BitVec 3
  pa : BitVec 3
  pb : BitVec 3
  ext : BitVec 19
  deriving DecidableEq, Repr

/-- Operand fields of format SI, slot S (R33). -/
structure SIF where
  sd : BitVec 5
  sa : BitVec 5
  imm : BitVec 38
  deriving DecidableEq, Repr

/-- Operand fields of format SB, slot S (R33). -/
structure SBF where
  sa : BitVec 5
  sb : BitVec 5
  pa : BitVec 3
  ext : BitVec 3
  off : BitVec 32
  deriving DecidableEq, Repr

/-- Operand fields of format MX, slots L and W (R33). -/
structure MXF where
  data : BitVec 10
  base : BitVec 5
  index : BitVec 5
  off : BitVec 24
  mod : BitVec 4
  deriving DecidableEq, Repr

/-- Operand fields of format EN, slots M and C (R33, R34). -/
structure ENF where
  tkd : BitVec 6
  tk1 : BitVec 6
  tk2 : BitVec 6
  tk3 : BitVec 6
  use : BitVec 3
  ext : BitVec 21
  deriving DecidableEq, Repr

/-- Operand field of format XC, slots M, C and Y (R33). -/
structure XCF where
  ext : BitVec 48
  deriving DecidableEq, Repr

/-- Operand fields of format SY, slot Y (R33). -/
structure SYF where
  sa : BitVec 5
  sb : BitVec 5
  pd : BitVec 3
  ext : BitVec 35
  deriving DecidableEq, Repr


/-- A write, or a read, by the host, over PCIe, of a register in BAR0 of a function or in the PF's BAR2 (20 R475): offset, size in bytes,
value. -/
structure RegAccess where
  fn : Nat
  bar2 : Bool
  off : Nat
  size : Nat
  val : Word
  deriving DecidableEq, Repr

/-- Why the verification of the firmware fails (20 R483): causes 0x03, 0x04 and 0x05 of R372. -/
inductive BootFail where
  | signer | signature | rollback
  deriving DecidableEq, Repr
/-- The cause that MBSTAT reports. -/
def BootFail.cause (b : BootFail) : Nat := match b with
  | .signer => 3
  | .signature => 4
  | .rollback => 5

/-- What boot finds (20 R483, 18 R446): how firmware verification failed, if it did; the entries of the pending repair list whose
repair succeeded. -/
structure BootReport where
  fail : Option BootFail
  repaired : List Nat
  deriving DecidableEq, Repr

/-- A budget message (19 R464), received, or sent where `out`: the sender's and the receiver's device id, SEQ, WATTS in 0.25 W,
EXP. -/
structure BudgetMsg where
  out : Bool
  src : Nat
  dst : Nat
  seq : Nat
  watts : Nat
  exp : Nat
  deriving DecidableEq, Repr

/-- A DRAM failure found (18 R444, R445): its first address, its length, its kind 0 cell 1 row 2 pin 3 bank, whether an
uncorrectable error was seen, whether spares for its repair are spent, and the 32-byte sectors the code cannot correct. -/
structure Quarantine where
  pa : Nat
  len : Nat
  kind : Nat
  unc : Bool
  unrep : Bool
  lost : List Nat
  deriving DecidableEq, Repr

/-- A failed UCIe link (20 R482): whether it joins port dies or the NVM die, and the tile dies no link still reaches. -/
structure UcieDown where
  stop : Bool
  dies : List Nat
  deriving DecidableEq, Repr

/-- A sync or queue operation by name (11 R296, 12 R325, 16 R387). -/
inductive SyncKind where
  | semInit | semPost | semWait | semTry | barInit | barArrive | barExpect | barWait | barTest | rel | acq
  | qPush | qTry | qPop | qPopTry | qPeek | qInfo
  deriving DecidableEq, Repr

/-- A peer's sync operation (11 R289, 20 R487): its operand or the row it pushes, the function it acts for, and what it carries as
a release: the peer's writes so far in regions of the export window, each offset and length, at a scope. -/
structure RemoteSync where
  kind : SyncKind
  n : Nat
  entry : BitVec 2048
  vf : Nat
  scope : Nat
  moored : List (Nat × Nat)
  deriving DecidableEq, Repr

/-- What a peer asks at an offset of the export window (20 R485). -/
inductive RemoteOp where
  | load (n : Nat)
  | store (bytes : List Byte) (mask : List Bool)
  | atomic (op : Nat) (sgn wide : Bool) (x cmp : Word)
  | sync (o : RemoteSync)
  deriving DecidableEq, Repr

/-- A request of a peer device (20 R485). -/
structure RemoteReq where
  peer : Nat
  off : Nat
  op : RemoteOp
  deriving DecidableEq, Repr


/-- What the sensors and the margin controller of a tile find over a stretch of time: the temperature in °C and the ageing estimate
(R458, R466). -/
structure WearSense where
  temp : Int
  age : Int
  deriving DecidableEq, Repr

/-- What a memory controller corrected (R444): the length and the kind of the location (R445: 0 cell, 1 row, 2 pin, 3 bank) and how
many errors. -/
structure ScrubError where
  len : Nat
  kind : Nat
  corrected : Nat
  deriving DecidableEq, Repr

/-- Every row of the opcode table. -/
inductive Instr where
  /-- ADD, slot S, opcode 0x01 (R142). -/
  | add (g : Guard) (f : SRF)
  /-- SUB, slot S, opcode 0x02 (R142). -/
  | sub (g : Guard) (f : SRF)
  /-- MUL, slot S, opcode 0x03 (R142). -/
  | mul (g : Guard) (f : SRF)
  /-- MULH, slot S, opcode 0x04 (R143). -/
  | mulh (g : Guard) (f : SRF)
  /-- MULHN, slot S, opcode 0x05 (R143). -/
  | mulhn (g : Guard) (f : SRF)
  /-- DIV, slot S, opcode 0x06 (R144). -/
  | div (g : Guard) (f : SRF)
  /-- DIVN, slot S, opcode 0x07 (R144). -/
  | divn (g : Guard) (f : SRF)
  /-- REM, slot S, opcode 0x08 (R144). -/
  | rem (g : Guard) (f : SRF)
  /-- REMN, slot S, opcode 0x09 (R144). -/
  | remn (g : Guard) (f : SRF)
  /-- AND, slot S, opcode 0x0A (R143). -/
  | and (g : Guard) (f : SRF)
  /-- OR, slot S, opcode 0x0B (R143). -/
  | or (g : Guard) (f : SRF)
  /-- XOR, slot S, opcode 0x0C (R143). -/
  | xor (g : Guard) (f : SRF)
  /-- ANDN, slot S, opcode 0x0D (R143). -/
  | andn (g : Guard) (f : SRF)
  /-- SHL, slot S, opcode 0x0E (R145). -/
  | shl (g : Guard) (f : SRF)
  /-- SHR, slot S, opcode 0x0F (R145). -/
  | shr (g : Guard) (f : SRF)
  /-- SAR, slot S, opcode 0x10 (R145). -/
  | sar (g : Guard) (f : SRF)
  /-- ROT, slot S, opcode 0x11 (R145). -/
  | rot (g : Guard) (f : SRF)
  /-- CLZ, slot S, opcode 0x12 (R143). -/
  | clz (g : Guard) (f : SRF)
  /-- CTZ, slot S, opcode 0x13 (R143). -/
  | ctz (g : Guard) (f : SRF)
  /-- POPC, slot S, opcode 0x14 (R143). -/
  | popc (g : Guard) (f : SRF)
  /-- MIN, slot S, opcode 0x15 (R143). -/
  | min (g : Guard) (f : SRF)
  /-- MAX, slot S, opcode 0x16 (R143). -/
  | max (g : Guard) (f : SRF)
  /-- MINN, slot S, opcode 0x17 (R143). -/
  | minn (g : Guard) (f : SRF)
  /-- MAXN, slot S, opcode 0x18 (R143). -/
  | maxn (g : Guard) (f : SRF)
  /-- SEL, slot S, opcode 0x19 (R146). -/
  | sel (g : Guard) (f : SRF)
  /-- LEA, slot S, opcode 0x1A (R147). -/
  | lea (g : Guard) (f : SRF)
  /-- CMP, slot S, opcode 0x1B (R149). -/
  | cmp (g : Guard) (f : SRF)
  /-- ADDI, slot S, opcode 0x20 (R148). -/
  | addi (g : Guard) (f : SIF)
  /-- ANDI, slot S, opcode 0x21 (R148). -/
  | andi (g : Guard) (f : SIF)
  /-- ORI, slot S, opcode 0x22 (R148). -/
  | ori (g : Guard) (f : SIF)
  /-- XORI, slot S, opcode 0x23 (R148). -/
  | xori (g : Guard) (f : SIF)
  /-- MOVI, slot S, opcode 0x24 (R148). -/
  | movi (g : Guard) (f : SIF)
  /-- MOVHI, slot S, opcode 0x25 (R148). -/
  | movhi (g : Guard) (f : SIF)
  /-- PAND, slot S, opcode 0x30 (R150). -/
  | pand (g : Guard) (f : SRF)
  /-- POR, slot S, opcode 0x31 (R150). -/
  | por (g : Guard) (f : SRF)
  /-- PXOR, slot S, opcode 0x32 (R150). -/
  | pxor (g : Guard) (f : SRF)
  /-- PNOT, slot S, opcode 0x33 (R150). -/
  | pnot (g : Guard) (f : SRF)
  /-- SFADD, slot S, opcode 0x40 (R151). -/
  | sfadd (g : Guard) (f : SRF)
  /-- SFSUB, slot S, opcode 0x41 (R151). -/
  | sfsub (g : Guard) (f : SRF)
  /-- SFMUL, slot S, opcode 0x42 (R151). -/
  | sfmul (g : Guard) (f : SRF)
  /-- SFFMA, slot S, opcode 0x43 (R151). -/
  | sffma (g : Guard) (f : SRF)
  /-- SFDIV, slot S, opcode 0x44 (R151). -/
  | sfdiv (g : Guard) (f : SRF)
  /-- SFSQRT, slot S, opcode 0x45 (R151). -/
  | sfsqrt (g : Guard) (f : SRF)
  /-- SFCMP, slot S, opcode 0x46 (R152). -/
  | sfcmp (g : Guard) (f : SRF)
  /-- SFCVT_I32, slot S, opcode 0x47 (R153). -/
  | sfcvtI32 (g : Guard) (f : SRF)
  /-- SFCVT_F32, slot S, opcode 0x48 (R154). -/
  | sfcvtF32 (g : Guard) (f : SRF)
  /-- SIGGET, slot S, opcode 0x49 (R155). -/
  | sigget (g : Guard) (f : SRF)
  /-- SIGSET, slot S, opcode 0x4A (R155). -/
  | sigset (g : Guard) (f : SRF)
  /-- BR, slot S, opcode 0x60 (R159). -/
  | br (g : Guard) (f : SBF)
  /-- BRP, slot S, opcode 0x61 (R159). -/
  | brp (g : Guard) (f : SBF)
  /-- BRSIG, slot S, opcode 0x62 (R159). -/
  | brsig (g : Guard) (f : SBF)
  /-- LOOP, slot S, opcode 0x63 (R160). -/
  | loop (g : Guard) (f : SBF)
  /-- CALL, slot S, opcode 0x64 (R159). -/
  | call (g : Guard) (f : SBF)
  /-- BRI, slot S, opcode 0x65 (R159). -/
  | bri (g : Guard) (f : SRF)
  /-- RET, slot S, opcode 0x66 (R159). -/
  | ret (g : Guard) (f : SRF)
  /-- CREAD, slot S, opcode 0x68 (R161). -/
  | cread (g : Guard) (f : SRF)
  /-- CWRITE, slot S, opcode 0x69 (R162). -/
  | cwrite (g : Guard) (f : SRF)
  /-- VADD, slots A and B, opcode 0x01; `inB` is true in slot B (R173). -/
  | vadd (g : Guard) (inB : Bool) (f : VF)
  /-- VSUB, slots A and B, opcode 0x02; `inB` is true in slot B (R173). -/
  | vsub (g : Guard) (inB : Bool) (f : VF)
  /-- VMUL, slots A and B, opcode 0x03; `inB` is true in slot B (R173). -/
  | vmul (g : Guard) (inB : Bool) (f : VF)
  /-- VMULH, slots A and B, opcode 0x04; `inB` is true in slot B (R173). -/
  | vmulh (g : Guard) (inB : Bool) (f : VF)
  /-- VMAD, slots A and B, opcode 0x05; `inB` is true in slot B (R173). -/
  | vmad (g : Guard) (inB : Bool) (f : VF)
  /-- VAND, slots A and B, opcode 0x06; `inB` is true in slot B (R173). -/
  | vand (g : Guard) (inB : Bool) (f : VF)
  /-- VOR, slots A and B, opcode 0x07; `inB` is true in slot B (R173). -/
  | vor (g : Guard) (inB : Bool) (f : VF)
  /-- VXOR, slots A and B, opcode 0x08; `inB` is true in slot B (R173). -/
  | vxor (g : Guard) (inB : Bool) (f : VF)
  /-- VNOT, slots A and B, opcode 0x09; `inB` is true in slot B (R173). -/
  | vnot (g : Guard) (inB : Bool) (f : VF)
  /-- VSHL, slots A and B, opcode 0x0A; `inB` is true in slot B (R173). -/
  | vshl (g : Guard) (inB : Bool) (f : VF)
  /-- VSHR, slots A and B, opcode 0x0B; `inB` is true in slot B (R173). -/
  | vshr (g : Guard) (inB : Bool) (f : VF)
  /-- VSAR, slots A and B, opcode 0x0C; `inB` is true in slot B (R173). -/
  | vsar (g : Guard) (inB : Bool) (f : VF)
  /-- VMIN, slots A and B, opcode 0x0D; `inB` is true in slot B (R173). -/
  | vmin (g : Guard) (inB : Bool) (f : VF)
  /-- VMAX, slots A and B, opcode 0x0E; `inB` is true in slot B (R173). -/
  | vmax (g : Guard) (inB : Bool) (f : VF)
  /-- VABSDIFF, slots A and B, opcode 0x0F; `inB` is true in slot B (R173). -/
  | vabsdiff (g : Guard) (inB : Bool) (f : VF)
  /-- VCMP, slots A and B, opcode 0x10; `inB` is true in slot B (R174). -/
  | vcmp (g : Guard) (inB : Bool) (f : VF)
  /-- VSEL, slots A and B, opcode 0x11; `inB` is true in slot B (R175). -/
  | vsel (g : Guard) (inB : Bool) (f : VF)
  /-- VPOPC, slots A and B, opcode 0x12; `inB` is true in slot B (R173). -/
  | vpopc (g : Guard) (inB : Bool) (f : VF)
  /-- VFADD, slots A and B, opcode 0x48; `inB` is true in slot B (R176). -/
  | vfadd (g : Guard) (inB : Bool) (f : VF)
  /-- VFSUB, slots A and B, opcode 0x49; `inB` is true in slot B (R176). -/
  | vfsub (g : Guard) (inB : Bool) (f : VF)
  /-- VFMUL, slots A and B, opcode 0x4A; `inB` is true in slot B (R176). -/
  | vfmul (g : Guard) (inB : Bool) (f : VF)
  /-- VFFMA, slots A and B, opcode 0x4B; `inB` is true in slot B (R176). -/
  | vffma (g : Guard) (inB : Bool) (f : VF)
  /-- VFMIN, slots A and B, opcode 0x4C; `inB` is true in slot B (R177). -/
  | vfmin (g : Guard) (inB : Bool) (f : VF)
  /-- VFMAX, slots A and B, opcode 0x4D; `inB` is true in slot B (R177). -/
  | vfmax (g : Guard) (inB : Bool) (f : VF)
  /-- VFABS, slots A and B, opcode 0x4E; `inB` is true in slot B (R176). -/
  | vfabs (g : Guard) (inB : Bool) (f : VF)
  /-- VFNEG, slots A and B, opcode 0x4F; `inB` is true in slot B (R176). -/
  | vfneg (g : Guard) (inB : Bool) (f : VF)
  /-- VFCMP, slots A and B, opcode 0x50; `inB` is true in slot B (R178). -/
  | vfcmp (g : Guard) (inB : Bool) (f : VF)
  /-- VRCP, slots A and B, opcode 0x58; `inB` is true in slot B (R179). -/
  | vrcp (g : Guard) (inB : Bool) (f : VF)
  /-- VRSQRT, slots A and B, opcode 0x59; `inB` is true in slot B (R179). -/
  | vrsqrt (g : Guard) (inB : Bool) (f : VF)
  /-- VEXP2, slots A and B, opcode 0x5A; `inB` is true in slot B (R179). -/
  | vexp2 (g : Guard) (inB : Bool) (f : VF)
  /-- VLOG2, slots A and B, opcode 0x5B; `inB` is true in slot B (R179). -/
  | vlog2 (g : Guard) (inB : Bool) (f : VF)
  /-- VSIGM, slots A and B, opcode 0x5C; `inB` is true in slot B (R179). -/
  | vsigm (g : Guard) (inB : Bool) (f : VF)
  /-- VCVT, slots A and B, opcode 0x60; `inB` is true in slot B (R181). -/
  | vcvt (g : Guard) (inB : Bool) (f : VF)
  /-- VCBDEC, slots A and B, opcode 0x61; `inB` is true in slot B (R182). -/
  | vcbdec (g : Guard) (inB : Bool) (f : VF)
  /-- VCBENC, slots A and B, opcode 0x62; `inB` is true in slot B (R183). -/
  | vcbenc (g : Guard) (inB : Bool) (f : VF)
  /-- VPLANE, slots A and B, opcode 0x68; `inB` is true in slot B (R184). -/
  | vplane (g : Guard) (inB : Bool) (f : VF)
  /-- VUNPLANE, slots A and B, opcode 0x69; `inB` is true in slot B (R185). -/
  | vunplane (g : Guard) (inB : Bool) (f : VF)
  /-- VPADD, slots A and B, opcode 0x6A; `inB` is true in slot B (R186). -/
  | vpadd (g : Guard) (inB : Bool) (f : VF)
  /-- VPSUB, slots A and B, opcode 0x6B; `inB` is true in slot B (R186). -/
  | vpsub (g : Guard) (inB : Bool) (f : VF)
  /-- VPAND, slots A and B, opcode 0x6C; `inB` is true in slot B (R186). -/
  | vpand (g : Guard) (inB : Bool) (f : VF)
  /-- VPCNT, slots A and B, opcode 0x6D; `inB` is true in slot B (R187). -/
  | vpcnt (g : Guard) (inB : Bool) (f : VF)
  /-- VRSUM, slots A and B, opcode 0x70; `inB` is true in slot B (R189). -/
  | vrsum (g : Guard) (inB : Bool) (f : VF)
  /-- VRMAX, slots A and B, opcode 0x71; `inB` is true in slot B (R189). -/
  | vrmax (g : Guard) (inB : Bool) (f : VF)
  /-- VRMIN, slots A and B, opcode 0x72; `inB` is true in slot B (R189). -/
  | vrmin (g : Guard) (inB : Bool) (f : VF)
  /-- VRSIGMIN, slots A and B, opcode 0x73; `inB` is true in slot B (R189). -/
  | vrsigmin (g : Guard) (inB : Bool) (f : VF)
  /-- VBCAST, slots A and B, opcode 0x74; `inB` is true in slot B (R191). -/
  | vbcast (g : Guard) (inB : Bool) (f : VF)
  /-- VEXT, slots A and B, opcode 0x75; `inB` is true in slot B (R191). -/
  | vext (g : Guard) (inB : Bool) (f : VF)
  /-- VINS, slots A and B, opcode 0x76; `inB` is true in slot B (R191). -/
  | vins (g : Guard) (inB : Bool) (f : VF)
  /-- VPERM, slots A and B, opcode 0x77; `inB` is true in slot B (R191). -/
  | vperm (g : Guard) (inB : Bool) (f : VF)
  /-- VSHIFTL, slots A and B, opcode 0x78; `inB` is true in slot B (R191). -/
  | vshiftl (g : Guard) (inB : Bool) (f : VF)
  /-- VIOTA, slots A and B, opcode 0x79; `inB` is true in slot B (R191). -/
  | viota (g : Guard) (inB : Bool) (f : VF)
  /-- VMOV, slots A and B, opcode 0x7A; `inB` is true in slot B (R191). -/
  | vmov (g : Guard) (inB : Bool) (f : VF)
  /-- VFILL, slots A and B, opcode 0x7B; `inB` is true in slot B (R191). -/
  | vfill (g : Guard) (inB : Bool) (f : VF)
  /-- VSIG, slots A and B, opcode 0x80; `inB` is true in slot B (R192). -/
  | vsig (g : Guard) (inB : Bool) (f : VF)
  /-- VSIGSET, slots A and B, opcode 0x81; `inB` is true in slot B (R192). -/
  | vsigset (g : Guard) (inB : Bool) (f : VF)
  /-- VFMT, slots A and B, opcode 0x82; `inB` is true in slot B (R192). -/
  | vfmt (g : Guard) (inB : Bool) (f : VF)
  /-- KAND, slots A and B, opcode 0x90; `inB` is true in slot B (R193). -/
  | kand (g : Guard) (inB : Bool) (f : VF)
  /-- KOR, slots A and B, opcode 0x91; `inB` is true in slot B (R193). -/
  | kor (g : Guard) (inB : Bool) (f : VF)
  /-- KNOT, slots A and B, opcode 0x92; `inB` is true in slot B (R193). -/
  | knot (g : Guard) (inB : Bool) (f : VF)
  /-- KPOPC, slots A and B, opcode 0x93; `inB` is true in slot B (R193). -/
  | kpopc (g : Guard) (inB : Bool) (f : VF)
  /-- LEASE, slot M, opcode 0x01 (R262). -/
  | lease (g : Guard) (f : XCF)
  /-- LEASE_TRY, slot M, opcode 0x02 (R262). -/
  | leaseTry (g : Guard) (f : XCF)
  /-- UNLEASE, slot M, opcode 0x03 (R262). -/
  | unlease (g : Guard) (f : XCF)
  /-- CHAIN_BEGIN, slot M, opcode 0x08 (R267). -/
  | chainBegin (g : Guard) (f : XCF)
  /-- CHAIN_END, slot M, opcode 0x09 (R267). -/
  | chainEnd (g : Guard) (f : XCF)
  /-- MMA_BF16, slot M, opcode 0x10 (R274). -/
  | mmaBf16 (g : Guard) (f : ENF)
  /-- MMA_CB4, slot M, opcode 0x11 (R274). -/
  | mmaCb4 (g : Guard) (f : ENF)
  /-- MMA_PLANE, slot M, opcode 0x12 (R275). -/
  | mmaPlane (g : Guard) (f : ENF)
  /-- MGATH, slot M, opcode 0x18 (R277). -/
  | mgath (g : Guard) (f : ENF)
  /-- MLDB, slot M, opcode 0x19 (R278). -/
  | mldb (g : Guard) (f : ENF)
  /-- CBLOAD, slot M, opcode 0x1A (R279). -/
  | cbload (g : Guard) (f : ENF)
  /-- ACC_ZERO, slot M, opcode 0x20 (R281). -/
  | accZero (g : Guard) (f : ENF)
  /-- ACC_RD, slot M, opcode 0x21 (R283). -/
  | accRd (g : Guard) (f : ENF)
  /-- ACC_WR, slot M, opcode 0x22 (R283). -/
  | accWr (g : Guard) (f : ENF)
  /-- LDS_ROW, slot L, opcode 0x01 (R210). -/
  | ldsRow (g : Guard) (f : MXF)
  /-- LDS_W32, slot L, opcode 0x02 (R210). -/
  | ldsW32 (g : Guard) (f : MXF)
  /-- LDS_W64, slot L, opcode 0x03 (R210). -/
  | ldsW64 (g : Guard) (f : MXF)
  /-- LDG_ROW, slot L, opcode 0x08 (R210). -/
  | ldgRow (g : Guard) (f : MXF)
  /-- LDG_W32, slot L, opcode 0x09 (R210). -/
  | ldgW32 (g : Guard) (f : MXF)
  /-- LDG_W64, slot L, opcode 0x0A (R210). -/
  | ldgW64 (g : Guard) (f : MXF)
  /-- LDG_TAG, slot L, opcode 0x0B (R126). -/
  | ldgTag (g : Guard) (f : MXF)
  /-- PFG, slot L, opcode 0x10 (R215). -/
  | pfg (g : Guard) (f : MXF)
  /-- LDQ_DROP, slot L, opcode 0x11 (R216). -/
  | ldqDrop (g : Guard) (f : MXF)
  /-- STS_ROW, slot W, opcode 0x01 (R212). -/
  | stsRow (g : Guard) (f : MXF)
  /-- STS_W32, slot W, opcode 0x02 (R212). -/
  | stsW32 (g : Guard) (f : MXF)
  /-- STS_W64, slot W, opcode 0x03 (R212). -/
  | stsW64 (g : Guard) (f : MXF)
  /-- STG_ROW, slot W, opcode 0x08 (R212). -/
  | stgRow (g : Guard) (f : MXF)
  /-- STG_W32, slot W, opcode 0x09 (R212). -/
  | stgW32 (g : Guard) (f : MXF)
  /-- STG_W64, slot W, opcode 0x0A (R212). -/
  | stgW64 (g : Guard) (f : MXF)
  /-- STG_TAG, slot W, opcode 0x0B (R124). -/
  | stgTag (g : Guard) (f : MXF)
  /-- ATOM_ADD, slot W, opcode 0x20 (R217). -/
  | atomAdd (g : Guard) (f : MXF)
  /-- ATOM_MIN, slot W, opcode 0x21 (R217). -/
  | atomMin (g : Guard) (f : MXF)
  /-- ATOM_MAX, slot W, opcode 0x22 (R217). -/
  | atomMax (g : Guard) (f : MXF)
  /-- ATOM_AND, slot W, opcode 0x23 (R217). -/
  | atomAnd (g : Guard) (f : MXF)
  /-- ATOM_OR, slot W, opcode 0x24 (R217). -/
  | atomOr (g : Guard) (f : MXF)
  /-- ATOM_XOR, slot W, opcode 0x25 (R217). -/
  | atomXor (g : Guard) (f : MXF)
  /-- ATOM_XCHG, slot W, opcode 0x26 (R217). -/
  | atomXchg (g : Guard) (f : MXF)
  /-- ATOM_CAS, slot W, opcode 0x27 (R217). -/
  | atomCas (g : Guard) (f : MXF)
  /-- ATOM_FADD, slot W, opcode 0x28 (R217). -/
  | atomFadd (g : Guard) (f : MXF)
  /-- SATOM, slot W, opcode 0x30 (R220). -/
  | satom (g : Guard) (f : MXF)
  /-- CPY_TEN, slot C, opcode 0x01 (R244). -/
  | cpyTen (g : Guard) (f : ENF)
  /-- CPY_ROW, slot C, opcode 0x02 (R248). -/
  | cpyRow (g : Guard) (f : ENF)
  /-- CPY_GATH, slot C, opcode 0x03 (R246). -/
  | cpyGath (g : Guard) (f : ENF)
  /-- CPY_SCAT, slot C, opcode 0x04 (R247). -/
  | cpyScat (g : Guard) (f : ENF)
  /-- CPY_SPAD, slot C, opcode 0x05 (R248). -/
  | cpySpad (g : Guard) (f : ENF)
  /-- CPY_BIND, slot C, opcode 0x06 (R250). -/
  | cpyBind (g : Guard) (f : ENF)
  /-- CPY_BIND_OFF, slot C, opcode 0x06 (R250). -/
  | cpyBindOff (g : Guard) (f : ENF)
  /-- CPY_RED, slot C, opcode 0x07 (R249). -/
  | cpyRed (g : Guard) (f : ENF)
  /-- CPY_FILL, slot C, opcode 0x08 (R248). -/
  | cpyFill (g : Guard) (f : ENF)
  /-- CPY_POLL, slot C, opcode 0x10 (R255). -/
  | cpyPoll (g : Guard) (f : XCF)
  /-- CPY_POLL_WIN, slot C, opcode 0x10 (R255). -/
  | cpyPollWin (g : Guard) (f : XCF)
  /-- CPY_CANCEL, slot C, opcode 0x11 (R256). -/
  | cpyCancel (g : Guard) (f : XCF)
  /-- CPY_CANCEL_ALL, slot C, opcode 0x11 (R256). -/
  | cpyCancelAll (g : Guard) (f : XCF)
  /-- TMAP, slot C, opcode 0x18 (R242). -/
  | tmap (g : Guard) (f : XCF)
  /-- BERTH_SET, slot C, opcode 0x19 (R254). -/
  | berthSet (g : Guard) (f : XCF)
  /-- SEM_INIT, slot Y, opcode 0x01 (R298). -/
  | semInit (g : Guard) (f : SYF)
  /-- SEM_POST, slot Y, opcode 0x02 (R298). -/
  | semPost (g : Guard) (f : SYF)
  /-- SEM_WAIT, slot Y, opcode 0x03 (R298). -/
  | semWait (g : Guard) (f : SYF)
  /-- SEM_TRY, slot Y, opcode 0x04 (R298). -/
  | semTry (g : Guard) (f : SYF)
  /-- BAR_INIT, slot Y, opcode 0x08 (R303). -/
  | barInit (g : Guard) (f : SYF)
  /-- BAR_ARRIVE, slot Y, opcode 0x09 (R302). -/
  | barArrive (g : Guard) (f : SYF)
  /-- BAR_EXPECT, slot Y, opcode 0x0A (R302). -/
  | barExpect (g : Guard) (f : SYF)
  /-- BAR_WAIT, slot Y, opcode 0x0B (R304). -/
  | barWait (g : Guard) (f : SYF)
  /-- BAR_TEST, slot Y, opcode 0x0C (R304). -/
  | barTest (g : Guard) (f : SYF)
  /-- GBAR, slot Y, opcode 0x0D (R307). -/
  | gbar (g : Guard) (f : XCF)
  /-- MOOR, slot Y, opcode 0x10 (R323). -/
  | moor (g : Guard) (f : SYF)
  /-- UNMOOR, slot Y, opcode 0x11 (R324). -/
  | unmoor (g : Guard) (f : SYF)
  /-- ACQ, slot Y, opcode 0x12 (R325). -/
  | acq (g : Guard) (f : SYF)
  /-- REL, slot Y, opcode 0x13 (R325). -/
  | rel (g : Guard) (f : SYF)
  /-- FENCE, slot Y, opcode 0x14 (R326). -/
  | fence (g : Guard) (f : XCF)
  /-- TKWAIT, slot Y, opcode 0x18 (R312). -/
  | tkwait (g : Guard) (f : XCF)
  /-- TKCLR, slot Y, opcode 0x19 (R312). -/
  | tkclr (g : Guard) (f : XCF)
  /-- PIPE_PUSH, slot Y, opcode 0x20 (R357). -/
  | pipePush (g : Guard) (f : SYF)
  /-- PIPE_POP, slot Y, opcode 0x21 (R357). -/
  | pipePop (g : Guard) (f : SYF)
  /-- PIPE_POP_TRY, slot Y, opcode 0x21 (R357). -/
  | pipePopTry (g : Guard) (f : SYF)
  /-- Q_PUSH, slot Y, opcode 0x28 (R388). -/
  | qPush (g : Guard) (f : SYF)
  /-- Q_POP, slot Y, opcode 0x29 (R388). -/
  | qPop (g : Guard) (f : SYF)
  /-- Q_POP_TRY, slot Y, opcode 0x29 (R388). -/
  | qPopTry (g : Guard) (f : SYF)
  /-- Q_TRY, slot Y, opcode 0x2A (R388). -/
  | qTry (g : Guard) (f : SYF)
  /-- Q_PEEK, slot Y, opcode 0x2B (R388). -/
  | qPeek (g : Guard) (f : SYF)
  /-- Q_INFO, slot Y, opcode 0x2C (R388). -/
  | qInfo (g : Guard) (f : SYF)
  /-- SPAWN, slot Y, opcode 0x30 (R423). -/
  | spawn (g : Guard) (f : SYF)
  /-- TASK_END, slot Y, opcode 0x31 (R424). -/
  | taskEnd (g : Guard) (f : XCF)
  /-- TASK_ABANDON, slot Y, opcode 0x32 (R424). -/
  | taskAbandon (g : Guard) (f : XCF)
  /-- TS_GET, slot Y, opcode 0x33 (R424). -/
  | tsGet (g : Guard) (f : SYF)
  /-- BANK_REL, slot Y, opcode 0x38 (R377). -/
  | bankRel (g : Guard) (f : XCF)
  /-- HINT_SUCC, slot Y, opcode 0x39 (R378). -/
  | hintSucc (g : Guard) (f : XCF)
  /-- WAITVIS, slot Y, opcode 0x3A (R379). -/
  | waitvis (g : Guard) (f : XCF)
  /-- COMPLETE, slot Y, opcode 0x3B (R380). -/
  | complete (g : Guard) (f : SYF)
  /-- PHASE, slot Y, opcode 0x3C (R366). -/
  | phase (g : Guard) (f : XCF)
  /-- TRAP, slot Y, opcode 0x40 (R343). -/
  | trap (g : Guard) (f : XCF)
  /-- RETT, slot Y, opcode 0x41 (R343). -/
  | rett (g : Guard) (f : XCF)
  /-- YIELD, slot Y, opcode 0x42 (R343). -/
  | yield (g : Guard) (f : XCF)
  /-- SLEEP, slot Y, opcode 0x43 (R343). -/
  | sleep (g : Guard) (f : XCF)
  /-- END, slot Y, opcode 0x44 (R343). -/
  | endCtx (g : Guard) (f : XCF)
  /-- NOP: a bundle whose eight slots are empty, with its control word (R48, R32). -/
  | nop (ctl : BitVec 32)
  /-- RESULT_VISIBLE (R40). -/
  | resultVisible (c : Nat)
  /-- TRAP_ENTRY (R338). -/
  | trapEntry (c : Nat)
  /-- LOAD_ENTRY_RETURN (R202). -/
  | loadEntryReturn (c : Nat)
  /-- GLOBAL_ACCESS_PERFORMED (R207). -/
  | globalAccessPerformed (op piece pick : Nat)
  /-- ATOMIC_AT_HOME (R219). -/
  | atomicAtHome (op : Nat)
  /-- PAGE_WALK_COMPLETE (R437). -/
  | pageWalkComplete (w : Nat)
  /-- COPY_START (R231). -/
  | copyStart (c e : Nat)
  /-- BERTH_GRANT (R253). -/
  | berthGrant (t : Nat)
  /-- COPY_SECTOR (R240). -/
  | copySector (c e j pick : Nat)
  /-- STREAM_ROW_ARRIVE (R251). -/
  | streamRowArrive (c q slot : Nat)
  /-- SECTOR_POST (R302). -/
  | sectorPost (p : Nat)
  /-- SYNC_OP_AT_HOME (R289). -/
  | syncOpAtHome (op : Nat)
  /-- SYNC_ANSWER (R291). -/
  | syncAnswer (c : Nat)
  /-- QUEUE_OP_AT_HOME (R388). -/
  | queueOpAtHome (op : Nat)
  /-- PIPE_ROW_ARRIVE (R357). -/
  | pipeRowArrive (p : Nat)
  /-- TOKEN_WAIT_RELEASE (R312). -/
  | tokenWaitRelease (c : Nat)
  /-- LEASE_GRANT (R263). -/
  | leaseGrant (t : Nat)
  /-- MMA_STEP (R274). -/
  | mmaStep (t op i j k : Nat)
  /-- MGATH_FILL (R277). -/
  | mgathFill (t op : Nat)
  /-- MLDB_LOAD (R278). -/
  | mldbLoad (t op : Nat)
  /-- ACC_OP_PERFORMED (R260). -/
  | accOpPerformed (t op : Nat)
  /-- CHAIN_COMPLETE (R267). -/
  | chainComplete (t : Nat)
  /-- CHAIN_OVERRUN (R269). -/
  | chainOverrun (t : Nat)
  /-- SLEEP_DEADLINE (R343). -/
  | sleepDeadline (c : Nat)
  /-- PREEMPT_REQUEST (R344). -/
  | preemptRequest (c : Nat)
  /-- CONTEXT_SAVE (R345). -/
  | contextSave (c : Nat)
  /-- RESTORE_REQUEST (R362). -/
  | restoreRequest (gr : Nat)
  /-- CONTEXT_RESTORE (R349). -/
  | contextRestore (c : Nat)
  /-- LAUNCH_POP (R393). -/
  | launchPop
  /-- TICKET_RESERVE (R361). -/
  | ticketReserve (k : Nat)
  /-- PREEMPT_TIMEOUT (R363). -/
  | preemptTimeout (k : Nat)
  /-- GROUP_READY (R376). -/
  | groupReady (gr : Nat)
  /-- BANK_FREE (R377). -/
  | bankFree (t b : Nat)
  /-- COMPLETION_RECORD_WRITE (R382). -/
  | completionRecordWrite (l : Nat)
  /-- NODE_FIRE (R398). -/
  | nodeFire (n : Nat)
  /-- AUDIT_REPLAY (R469). -/
  | auditReplay (a : Nat)
  /-- AUDIT_COMPARE (R471). -/
  | auditCompare (a : Nat)
  /-- TASK_DISPATCH (R409). -/
  | taskDispatch (d t : Nat)
  /-- TASK_COMMIT (R418). -/
  | taskCommit (d : Nat)
  /-- DOMAIN_COMPLETE (R427). -/
  | domainComplete (d : Nat)
  /-- LOAD_CODE_OBJECT (R372). -/
  | loadCodeObject (fn : Nat)
  /-- UNLOAD (R374). -/
  | unload (fn : Nat)
  /-- DOMAIN_OPEN (R404). -/
  | domainOpen (fn : Nat)
  /-- NODE_RELEASE_CANCEL (R399). -/
  | nodeReleaseCancel (fn : Nat)
  /-- READ_MARGIN_TABLE (R458). -/
  | readMarginTable (fn : Nat)
  /-- ATTESTATION_QUOTE (R483). -/
  | attestationQuote (fn : Nat)
  /-- KEY_LOAD (R443). -/
  | keyLoad (fn : Nat)
  /-- KEY_REVOKE (R443). -/
  | keyRevoke (fn : Nat)
  /-- RAISE_MINSVN (R372). -/
  | raiseMinsvn (fn : Nat)
  /-- GUARD_BAND_HINT (R459). -/
  | guardBandHint (fn : Nat)
  /-- WRITE_SIGNER_DIGEST (R479). -/
  | writeSignerDigest (fn : Nat)
  /-- LQTAIL_WRITE (R392). -/
  | lqtailWrite (fn q : Nat) (v : Word)
  /-- LQCFG_WRITE (R392). -/
  | lqcfgWrite (fn q : Nat) (v : Word)
  /-- TINV_WRITE (R437). -/
  | tinvWrite (fn : Nat) (v : Word)
  /-- TSYNC_READ (R437). -/
  | tsyncRead (fn : Nat)
  /-- PART_WRITE (R476). -/
  | partWrite (fn w : Nat) (v : Word)
  /-- PWIN_WRITE (R476). -/
  | pwinWrite (fn : Nat) (v : Word)
  /-- INJ_WRITE (R455). -/
  | injWrite (t : Nat) (v : Word)
  /-- DEVID_WRITE (R484). -/
  | devidWrite (v : Word)
  /-- RLOGHEAD_WRITE (R445). -/
  | rlogheadWrite (v : Word)
  /-- REGISTER_WRITE (R8). -/
  | registerWrite (r : RegAccess)
  /-- DEVICE_RESET (R483). -/
  | deviceReset (b : BootReport)
  /-- FUNCTION_LEVEL_RESET (R481). -/
  | functionLevelReset (fn : Nat)
  /-- TIMING_REPLAY (R452). -/
  | timingReplay (t fails : Nat)
  /-- MARGIN_UP_WINDOW (R456). -/
  | marginUpWindow (t : Nat)
  /-- MARGIN_DOWN_WINDOW (R456). -/
  | marginDownWindow (t : Nat)
  /-- TILE_DRAINED (R449). -/
  | tileDrained (t : Nat)
  /-- POWER_STATE_ENTER (R460). -/
  | powerStateEnter (t : Nat)
  /-- TILE_WAKE (R461). -/
  | tileWake (t : Nat)
  /-- POWER_MEASURE (R462). -/
  | powerMeasure (watts : Nat) (busy : List (Nat × Nat))
  /-- BOOST_LEASE_EXPIRE (R463). -/
  | boostLeaseExpire (t : Nat)
  /-- BUDGET_MESSAGE (R464). -/
  | budgetMessage (m : BudgetMsg)
  /-- BUDGET_LEASE_EXPIRE (R464). -/
  | budgetLeaseExpire (i : Nat)
  /-- THERMAL_LIMIT (R473). -/
  | thermalLimit
  /-- DRAM_QUARANTINE (R444). -/
  | dramQuarantine (q : Quarantine)
  /-- UCIE_LINK_DOWN (R482). -/
  | ucieLinkDown (u : UcieDown)
  /-- PORT_RETRAIN (R486). -/
  | portRetrain (p : Nat)
  /-- PORT_TRAINING (R486). -/
  | portTraining (p lanes peer tag : Nat)
  /-- TIME_SYNC (R487). -/
  | timeSync (inSync : Bool)
  /-- REMOTE_ACCESS (R485). -/
  | remoteAccess (r : RemoteReq)
  /-- HOST_MEMORY_WRITE (R328). -/
  | hostMemoryWrite (fn va : Nat) (bytes : List Byte)
  /-- TMAP_CBLOAD_READ_ARRIVE (R242). -/
  | tmapCbloadReadArrive (c : Nat)
  /-- MBDOOR_WRITE (R478). -/
  | mbdoorWrite (fn : Nat) (v : Word)
  /-- LAUNCH_CANCEL (R381). -/
  | launchCancel (l : Nat)
  /-- THERMAL_RECOVERY (R473). -/
  | thermalRecovery
  /-- WEAR_INTEGRATION (R466). -/
  | wearIntegration (t secs mv : Nat) (sense : WearSense)
  /-- HBM_SCRUB (R444): corrected errors at a location. -/
  | hbmScrub (pa : Nat) (e : ScrubError)
  /-- CLOCK_STRETCH (R22). -/
  | clockStretch (t periods : Nat)
  deriving DecidableEq, Repr

end Sys2Proof
end

