-- ==== Sys2Proof/Machine/State.lean ====
section
/-!
DEFINITION. The state of the machine as plain data: everything the spec gives it (INVENTORY.md, State), the reasons a
step can stop, and the state after reset.
-/
namespace Sys2Proof.Machine

/-! ### Values a context holds -/

/-- A scalar register: its 64 bits and its trust count (R33, R104). -/
structure Scalar where
  val : Word
  cnt : BitVec 5
  deriving DecidableEq, Repr

/-- A row: 256 bytes, trust plane, format tag (R94, R95, R104). Also one block of a replay entry (R339). -/
structure Row where
  val : RowBits
  trust : TrustBits
  tag : Byte
  deriving DecidableEq, Repr

/-- A row of a newly created context (R95). -/
def Row.zero : Row := ⟨0, 0, 0⟩

/-- What a latch holds (R43, R168). -/
inductive Latch where
  | invalid
  | row (r : Row)
  | scalar (x : Scalar)
  | mask (m : Mask)
  deriving DecidableEq, Repr

/-- What a result writes when it becomes visible (R40). -/
inductive Write where
  | row (n : Nat) (r : Row)
  | scalar (n : BitVec 5) (x : Scalar)
  | pred (n : BitVec 3) (b : Bool)
  | mask (n : BitVec 3) (m : Mask)
  deriving DecidableEq, Repr

/-! ### Traps (R335, R336) -/

/-- A trap being taken or pending: class, SUB, TRAP code, slot, lane, faulting address, information word. -/
structure Cause where
  cls : Nat
  sub : Nat := 0
  code : Nat := 0
  slot : Nat := 0
  lane : Option Nat := none
  addr : Nat := 0
  info : Nat := 0
  deriving DecidableEq, Repr

/-! ### Writes and what is known of them (12 R314 to R320) -/

/-- A write by an agent, as releases carry it: its identity, its function, its virtual address and its length. -/
structure WRef where
  id : Nat
  vf : Nat
  va : Nat
  len : Nat
  deriving DecidableEq, Repr

/-- A carried write with the scope it is carried to, the context that carries it with its group (R317), and whether those
it reaches need neither mooring nor fence (R319). -/
structure Carry where
  w : WRef
  scope : Nat
  by_ : Nat
  grp : Nat
  free : Bool
  deriving DecidableEq, Repr

/-- What an acquire brought: the anchor, the writes, those that need neither mooring nor fence (R319), and whether a FENCE
with ACQ followed it (R318). -/
structure Acq where
  anchor : Nat
  ws : List WRef
  known : List WRef
  fenced : Bool
  deriving DecidableEq, Repr

/-- What a context knows of writes: its own, those visible without condition (R319), those acquired (R318), those that were
visible through a mooring since removed, those a FENCE with REL covers with their scope (R317), those of its copies and
array operations, for its completion record (R319), and the last write each piece returned to its core and to its copies
(R320). -/
structure View where
  own : List WRef
  known : List WRef
  acqs : List Acq
  past : List WRef
  fencedRel : List (WRef × Nat)
  eng : List WRef
  lastRead : List (Nat × Nat)
  lastEng : List (Nat × Nat)
  deriving DecidableEq, Repr

def View.empty : View := ⟨[], [], [], [], [], [], [], []⟩

/-- A mooring entry (R322): the anchor's key, the region's virtual base, its length in bytes, the scope. -/
structure Mooring where
  anchor : Word
  base : Word
  len : Nat
  scope : BitVec 3
  deriving DecidableEq, Repr

/-! ### Load entries (R200 to R202) -/

/-- The value of a load entry. -/
inductive LdVal where
  | row (r : Row)
  | scalar (x : Scalar)
  deriving DecidableEq, Repr

/-- A load entry: what it will hold once returned, whether it has returned, whether it carries poison. -/
structure LdEntry where
  id : Nat
  isRow : Bool
  val : Option LdVal
  returned : Bool
  poison : Bool
  deriving DecidableEq, Repr

/-! ### Global accesses -/

/-- What a pending global access does when it is performed (R207, R217). -/
inductive GKind where
  /-- store these bytes under this byte mask -/
  | store (bytes : List Byte) (mask : List Bool)
  /-- fill load entry `ent` of the context: a row with this tag, or a scalar of so many bytes, sign-extended or not -/
  | loadRow (ent : Nat) (tag : Byte)
  | loadScalar (ent : Nat) (bytes : Nat) (sx : Bool)
  /-- read, modify, write (R217): which operation, signed, 64 bits, operand, comparand, load entry -/
  | atomic (op : Nat) (sgn : Bool) (wide : Bool) (x : Word) (cmp : Word) (ent : Option Nat)
  deriving DecidableEq, Repr

/-- One piece of an access: its place, its length, its offset in the data (or, of a shadow part, in the counts), and
the key it is made under (R122, R207). -/
structure Part where
  pa : Nat
  len : Nat
  off : Nat
  sh : Bool
  key : Option Nat
  deriving DecidableEq, Repr

/-- A global access that has issued and has not been performed wholly (R205, R207): its identity, the agent, its
function, virtual address and length, the moorings in force at issue and how much its context had acquired by then
(R318), the pieces still to be performed, what a load has read so far of data and counts, the bytes a task's own buffer
supplies (R412), whether a poisoned sector was read, the shadow bytes a store writes with their mask, and the domain and task it
belongs to (R416). -/
structure GOp where
  id : Nat
  agent : Nat
  vf : Nat
  va : Nat
  len : Nat
  kind : GKind
  moors : List (Nat × Nat × Nat)
  nAcq : Nat
  nKnown : Nat
  parts : List Part
  data : List Byte
  cnts : List Byte
  overlay : List (Nat × Byte)
  poison : Bool
  shBytes : List Byte
  shMask : List Bool
  task : Option (Nat × Nat)
  deriving DecidableEq, Repr

/-! ### Accesses that go with an answered operation -/

/-- An access of slot L or W to the scratchpad: the bytes' places, the bytes with their mask, none for a load, and for SATOM
the operation, its signedness, its width in bytes and its operand. -/
structure LOp where
  keys : List Nat
  bytes : List Byte
  mask : List Bool
  atom : Option (Nat × Bool × Nat × Nat)
  deriving DecidableEq, Repr

/-- An access of slot L or W that is performed with the answered operation of its bundle, just before it (R290, R317). -/
inductive Along where
  | glob (g : GOp)
  | spad (l : LOp)
  deriving DecidableEq, Repr

/-- Such an access performed: what a load or an atomic returns with its poison, and the scratchpad bytes a load or SATOM found. -/
structure Went where
  op : Along
  val : Option (LdVal × Bool)
  old : List Byte
  deriving DecidableEq, Repr

/-! ### Holds -/

/-- What a blocked context waits for (R331). -/
inductive WaitOn where
  | stream (q : Nat)
  | ldq
  | ldqRoom
  | window
  | answer
  | gbar
  | tokens (m : BitVec 64)
  | pipeRoom (p : Nat)
  | pipeRow (p : Nat)
  | vis
  | lease
  | sleep
  | atoms
  deriving DecidableEq, Repr

/-- Why a bundle does not issue: a stall of R40, a wait for tokens (R283), the hold of R42 during which the pipelines advance, an
immediate second look (R307), the sending of an operation that must be answered (R291), which waits until no other slot traps, or one of the conditions of R331. -/
inductive Hold where
  | stall
  | token
  | drain
  | again
  | send (w : Option WaitOn)
  | wait (w : WaitOn)
  deriving DecidableEq, Repr

/-- State of a context (R330). -/
inductive CtxStatus where
  | free | loaded | ready | running | blocked (w : WaitOn) | saving | saved | restoring | retired
  deriving DecidableEq, Repr

/-- A read of global memory that stalls the bundle in issue (R242, R279): the slot, the address, the length, and the bytes
once they have arrived. -/
structure CtlRead where
  slot : Nat
  va : Nat
  len : Nat
  data : Option (List Byte)
  deriving DecidableEq, Repr

/-- What a bundle's retirement is followed by (R342, R343, R424). -/
inductive After where
  | none
  | trap (code : Nat)
  | yield
  | sleep (till : Nat)
  | endCtx
  | phase (q : Nat)
  | taskEnd
  | taskAbandon
  | retire (k : Cause)
  deriving DecidableEq, Repr

/-! ### Replay entries and operations in flight (R339, R340) -/

/-- The codebook of a context (R91). -/
structure Codebook where
  entries : Vector (BitVec 16) 16
  trust : Nat
  valid : Bool
  deriving DecidableEq, Repr

/-- The answered operation of the bundle in issue (R291): sent with this identity, and its answer once it has come:
0 failure or false, 1 success or true, 2 sync kind, 3 scratchpad target, and others the queue chapter gives; with it the
accesses of the bundle that were performed with it (R290). -/
structure Pending where
  id : Nat
  answer : Option Nat
  data : Nat
  row : Option Row
  acq : Option Acq
  went : List Went
  deriving DecidableEq, Repr

/-- The control registers and the codebook an operation was issued under, which its re-injection sees again (R54): SIGFLOOR
with the mode it has outside or inside a handler (R335). -/
structure UnderCtl where
  sigfloor : BitVec 32
  planew : BitVec 32
  cb : Codebook
  deriving DecidableEq, Repr

/-- What the machine keeps beside a replay entry, for which R339 has no room (log 13): the operation it belongs to and the
address of its bundle (R135); of a result that is kept and not computed again, what it writes, the lane below the floor and the
token its visibility completes; the flags of a withheld one (R333); that the result is to enter no latch (R45), that a
later one has overwritten its register and how many have entered its latches (R59); the control registers (R54); the rows an
ACC.WR captured (R53, R283); and the answer its bundle's answered operation has had (R292). -/
structure Beside where
  slotw : SlotBits
  slot : Nat
  pc : Word
  kept : Bool
  res : List Write
  latch : Latch
  below : Option Nat
  tkop : Option Nat
  flags : BitVec 5
  noLatch : Bool
  lost : Bool
  passed : Nat
  under : Option UnderCtl
  rows : List Row
  ans : Option Pending
  deriving DecidableEq, Repr

def Beside.none : Beside := ⟨0, 0, 0, false, [], .invalid, .none, .none, 0, false, false, 0, .none, [], .none⟩

/-- A replay entry (R339): the slot's bits, the iteration, the effective destination, what is popped again, the
captured mask and the captured blocks, `due` being DUE of R340, and what the machine keeps beside it. -/
structure Replay where
  slotw : SlotBits
  slot : Nat
  skip : Bool
  iter : BitVec 16
  edst : BitVec 16
  due : Nat
  srck : Byte
  hasRes : Bool
  kcap : Mask
  b0 : Row
  b1 : Row
  b2 : Row
  b3 : Row
  side : Beside
  deriving DecidableEq, Repr

def Replay.none : Replay :=
  ⟨0, 0, false, 0, 0, 0, 0, false, 0, Row.zero, Row.zero, Row.zero, Row.zero, Beside.none⟩

/-- An operation that has issued and whose result is not yet visible (R40 to R42). -/
structure Flight where
  /-- the slot, 0 to 7 (R29) -/
  slot : Nat
  /-- address of its bundle and the iteration, for the records of R333, R334 -/
  pc : Word
  repi : BitVec 16
  /-- number of the bundle in issue order -/
  seq : Nat
  /-- pipe time at which the result becomes visible (R40) -/
  due : Nat
  /-- pipe time at which the result is ready: after `due` only where its class is interlocked (R59) -/
  ready : Nat
  /-- results of the slot that entered its latches since `due` (R59) -/
  passed : Nat
  res : List Write
  /-- what enters the slot's latch, if it shifts (R43) -/
  latch : Latch
  flags : BitVec 5
  /-- lowest lane below the floor (R134), the mode it was issued under and whether RETT already accepted it -/
  below : Option Nat
  mode : Nat
  /-- the engine operation whose token completes when the result is visible (R283) -/
  tkop : Option Nat
  rep : Replay
  deriving DecidableEq, Repr

/-- Scratch of the bundle in issue: the count of a repeated bundle under way (R47), the slot and the captures of the
operation being performed, the classes its pops add to its latency (R38, R202), the operands of a re-injected entry
(R340), the control transfer found (R156), the tokens as they stood before the bundle (R312), the control registers
its retirement writes (R162), the entries it drops of those occupied before it (R216), the scratchpad lines it needs with their banks (R198),
what follows it, the completed copies' writes by token as they stood before it (R312), and the accesses it has made (R290). -/
structure Iss where
  count : Nat
  slot : Nat
  rep : Replay
  xcls : List Nat
  cap : Option Replay
  target : Option Word
  indirect : Bool
  tok0 : BitVec 64
  atRetire : List (Nat × Word)
  drop : Nat
  ldq0 : Nat
  lines : List (Nat × Nat)
  after : After
  ws0 : List (Nat × List WRef)
  along : List Along
  deriving DecidableEq, Repr

def Iss.none : Iss := ⟨0, 0, Replay.none, [], .none, .none, false, 0, [], 0, 0, [], .none, [], []⟩

/-- The binding of a context to a code object, a launch and a group (R330, R369, R351). -/
structure Binding where
  vf : Nat
  rows : Nat
  /-- base bank and number of banks of the scratchpad run; 0 banks: no allocation (R196) -/
  bank : Nat
  banks : Nat
  acc : Nat
  tokens : Nat
  chainMax : Nat
  strict : Bool
  entry : Word
  codeBase : Word
  codeLen : Nat
  dataBase : Word
  level : Nat
  launch : Nat
  group : Nat
  member : Nat
  grank : Nat
  ngroups : Nat
  /-- local pipe number and pipe (R353) -/
  pipes : List (Nat × Nat)
  deriving DecidableEq, Repr

/-- The widest declaration of every kind, with function 0 (log 1). -/
def Binding.none : Binding := ⟨0, 320, 0, 32, 16, 64, 65536, true, 0, 0, 2 ^ 30, 0, 0, 0, 0, 0, 0, 1, []⟩

/-- What a task context knows of its task and domain (R409, R425): the domain id, the task's number and timestamp,
whether it runs speculatively, at the frontier, as a re-execution, its aborts, and the frontier and the number of live
tasks as the tile last learned them (R408). -/
structure TaskRef where
  dom : Nat
  seq : Nat
  ts : Word
  spec : Bool
  front : Bool
  reex : Bool
  aborts : Nat
  cfront : Word
  nlive : Nat
  deriving DecidableEq, Repr

/-- The registers a program reads and writes. -/
structure Regs where
  s : Vector Scalar 32
  p : BitVec 8
  k : Vector Mask 8
  /-- rows that are not zero and RAW, by number (R95) -/
  rows : List (Nat × Row)
  /-- ~S1 ~S2 ~S3 ~A1 … ~L3 (R43) -/
  lat : Vector Latch 12
  deriving DecidableEq, Repr

/-- Control registers of a context (R163, R333, R334, R337). -/
structure Crs where
  repi : BitVec 16
  sigfloor : BitVec 32
  planew : BitVec 32
  lpad : Vector (BitVec 32) 4
  lilk : BitVec 32
  sticky : Vector Word 8
  sigrec : Vector Word 8
  tfcause : Word
  tfpc : Word
  tfaddr : Word
  tfinfo : Word
  tvec : Word
  codebase : Word
  sabase : Word
  intrap : Bool
  poisonC : Bool
  deriving DecidableEq, Repr

/-- An accumulator block: 1,024 elements of 32 bits, their counts, and the type, `true` for I32 (R259, R104). -/
structure AccBlock where
  val : BitVec 32768
  cnt : BitVec 8192
  isI32 : Bool
  deriving DecidableEq, Repr

/-! ### Copies (09) -/

/-- The barrier a command posts to: its location word, its place, key and shadow, the phase tag of the posts (R224, R301), and
the command's identity. -/
structure CopyBar where
  loc : Word
  word : Nat
  key : Option Nat
  shadow : List (Nat × Option Nat)
  tag : Nat
  cmd : Nat
  deriving DecidableEq, Repr

/-- A window entry (R231, R233): the command, its state 0 free 1 waiting 2 running 3 stopped 4 done 5 cancelled, the
captured scalars, the total of sectors, the sectors performed in order and beyond, the fault, the captured map; and what
the engine remembers beside them: its identity, the bindings it waits for, its token, the number of its first row among
those assigned to its stream register, the index entries read so far with those that were poisoned, the bytes written of
sectors performed in part (R238), the bundle that issued it, the barrier its posts go to, what its context had acquired by
then (R318), the writes it has made, and the place of its bundle among those its context has retired. -/
structure CopyCmd where
  id : Nat
  op : Instr
  state : Nat
  ops : List Word
  total : Nat
  cursor : Nat
  done : List Nat
  fault : Word
  map : BitVec 768
  waits : List Nat
  tk : Nat
  ringPos : Option Nat
  entries : List (Nat × Nat)
  badEntries : List Nat
  part : List (Nat × List Nat)
  pc : Word
  bar : Option CopyBar
  nAcq : Nat
  nKnown : Nat
  moors : List (Nat × Nat × Nat)
  ws : List WRef
  ord : Nat
  deriving DecidableEq, Repr

/-- A row on its way into a ring slot or arrived there (R251, R252): its tag, trust plane, poison, the sectors landed, and
the command that delivers it with its bundle and its barrier. -/
structure RingRow where
  tag : Byte
  plane : TrustBits
  poison : Bool
  landed : Nat
  cmd : Nat
  pc : Word
  bar : Option CopyBar
  deriving DecidableEq, Repr

/-- Binding of a stream register (R232, R250, R251): `assigned` and `popped`
count rows since the binding. -/
structure QBind where
  valid : Bool
  arr : BitVec 8
  ring : Nat
  rd : Nat
  wr : Nat
  /-- rows written toward each ring slot that have not been popped -/
  rowsIn : List (Nat × RingRow)
  /-- rows assigned and rows popped since the binding, not reduced modulo 16 -/
  assigned : Nat
  popped : Nat
  deriving DecidableEq, Repr

def QBind.none : QBind := ⟨false, 0, 0, 0, 0, [], 0, 0⟩

/-- The virtual engine queue record (R232). -/
structure Window where
  stalls : BitVec 32
  strict : Bool
  bmax : Nat
  head : Nat
  tail : Nat
  q : Vector QBind 8
  cmds : List (Nat × CopyCmd)
  deriving DecidableEq, Repr

def Window.reset : Window := ⟨0, true, 16, 0, 0, Vector.replicate 8 QBind.none, []⟩

/-! ### A context -/

/-- One hardware context (R16, R330): tile × 16 + core × 4 + context is its number. -/
structure Ctx where
  cid : Nat
  status : CtxStatus
  pc : Word
  /-- control word of the bundle in issue (R30) -/
  ctl : BitVec 32
  regs : Regs
  crs : Crs
  cb : Codebook
  acc : List (Nat × AccBlock)
  /-- bit n is 1 while TKn is pending (R309) and the operation each pending token is bound to (R310) -/
  tok : BitVec 64
  tokBind : List (Nat × Nat)
  /-- the writes of the copies whose completion last completed each token (R239, R312) -/
  tokWs : List (Nat × List WRef)
  moor : Vector (Option Mooring) 16
  view : View
  /-- tensor-map slots with their valid bits (R242) -/
  maps : Vector (Option (BitVec 768)) 8
  win : Window
  ldq : List LdEntry
  fl : List Flight
  seq : Nat
  /-- pipe time: the cycles that count in the distances of R40 -/
  pt : Nat
  /-- pipe time of the cycle after the last bundle's issue: n + 1 of R340 -/
  resume : Nat
  /-- latencies the code object declared (R57, R58) -/
  lat : Vector Nat 16
  bind : Binding
  iss : Iss
  pends : List Cause
  wait : Option Pending
  /-- the reads TMAP and CBLOAD of the bundle in issue wait for (R242, R279) -/
  reads : List CtlRead
  /-- replay entries RETT has still to re-inject (R340) -/
  reinj : Option (List Replay)
  /-- what is kept beside the frame's entries (log 13), while the handler runs -/
  sides : List Beside
  /-- the bundle whose full copy window has been counted (R228), while the handler of a trap taken before it runs -/
  counted : Option Word
  /-- NEXTI of a RETT whose first resumed bundle has not come up (R343) -/
  resumeAt : Option (BitVec 16)
  /-- harbour time before which the next bundle does not issue (R343) -/
  sleepTill : Option Nat
  /-- the phase and the counters ISSUE, STALL, WAIT, CIDLE of each phase (R365, R366) -/
  phase : Nat
  counts : List (Nat × Nat)
  /-- the last bundle that issued was a switch point, and none has come up since (R344) -/
  atSwp : Bool
  /-- a pre-emption request is pending (R344) -/
  preempt : Bool
  /-- what the bundle in issue waits for while its context is saved (R345, R349) -/
  held : Option WaitOn
  task : Option TaskRef
  deriving DecidableEq, Repr

/-! ### A tile -/

/-- A queued operation of the matrix array (R260, R274, R277, R278, R281, R283): its identity, the context, the
instruction, the captured scalars, the captured codebook, the captured rows, the bindings it waits for, its token,
the bundle that issued it, the steps performed (of an accumulator operation, the blocks that an overrun overwrote), the k-step numbers its blocks begin at (R102), the latch fills it
reads (R277). -/
structure ArrOp where
  id : Nat
  cid : Nat
  op : Instr
  ops : List Word
  cb : Codebook
  rows : List Row
  waits : List Nat
  tk : Nat
  pc : Word
  steps : List Nat
  base : List (Nat × Nat)
  latA : Nat
  latB : Nat
  deriving DecidableEq, Repr

/-- The chain open or ending (R267 to R269): its identity, by which operations issued before it are told from later ones; `o` holds the O accumulators of SPLIT mode (R102), `exact` the exact
plane sums (R275), `kno` the number of k-steps issued to each block. -/
structure Chain where
  id : Nat
  owner : Nat
  mask : BitVec 16
  split : Bool
  i32 : Bool
  pc : Word
  start : Nat
  ending : Bool
  o : List (Nat × AccBlock)
  exact : List (Nat × List Int)
  kno : List (Nat × Nat)
  deriving DecidableEq, Repr

/-- A filled operand latch (R277, R278): the operation that filled it, its tiles' bytes, its k tiles and n tiles. -/
structure OpLatch where
  id : Nat
  filled : Bool
  data : Nat
  kt : Nat
  nt : Nat
  deriving DecidableEq, Repr

/-- The lease of the tile's array (R261 to R265); `next` has won an arbitration and is granted within 4 cycles. -/
structure Lease where
  holder : Option Nat
  next : Option Nat
  run : Nat
  /-- pending requests: context and level, oldest first -/
  reqs : List (Nat × Nat)
  /-- context last granted, by level -/
  last : List (Nat × Nat)
  deriving DecidableEq, Repr

/-- Ownership of one scratchpad bank (R376, R377): the group that owns it (none: its ownership bit is free), the function
of its last owner, and the group whose ticket has reserved it. -/
structure BankSt where
  owner : Option Nat
  lastFn : Option Nat
  claim : Option Nat
  deriving DecidableEq, Repr

/-- State of a tile site (R449, TSTAT.STATE). -/
inductive TileSt where
  | enabled | draining | fenced | spare | disabled
  deriving DecidableEq, Repr

/-- Power state of a tile (R460, TSTAT.PST). -/
inductive PowerSt where
  | run | idle | docked | drydock
  deriving DecidableEq, Repr

/-- A record of a tile's margin table (R458): 0 raise, 1 lower, 2 fence, 3 bin withdrawn, 4 hint applied. -/
structure MarginRec where
  bin : Nat
  evt : Nat
  mv : Nat
  rcnt : Nat
  ht : Nat
  temp : Int
  age : Int
  seq : Nat
  deriving DecidableEq, Repr

/-- A window of the margin controller (R456): bundles sealed and replays counted. -/
structure MWindow where
  sealed : Nat
  replays : Nat
  deriving DecidableEq, Repr

/-- Health, margin and power of a tile (19). `mv` holds the learned set point of each bin, `limit` the highest bin
R457 leaves, `hints` the set points waiting for the next reset (R459), `cool` the bundles sealed since the last raise,
`wear` is in units of 2^-32 nominal-equivalent hour (R466), `caught` says that the latches have failed the original attempt of the
bundle that seals next (R455), `heat` that the tile is in bin 0 for the thermal limit (20 R473), `dry` names the contexts asked to be
saved for DRYDOCK (R460), `boost` the end of a boost lease (R463), `since` the harbour time from which the tile has been in its power state, `sinceCyc`
the cycle since which it may have been idle, `hold` the end of a break-even hold (R460). Learned set points, limit, wear, suspicion and records are kept in NVM. -/
structure Svc where
  st : TileSt
  pst : PowerSt
  bin : Nat
  limit : Nat
  mv : Vector Nat 5
  hints : List (Nat × Nat)
  trepl : Nat
  harderr : Nat
  inj : BitVec 32
  injSeen : Nat
  caught : Bool
  wear : Nat
  susp : Nat
  holdab : Nat
  up : MWindow
  down : MWindow
  cool : Option Nat
  recs : List MarginRec
  seq : Nat
  temp : Int
  age : Int
  boost : Option Nat
  heat : Bool
  dry : List Nat
  since : Nat
  sinceCyc : Nat
  hold : Nat
  deriving DecidableEq, Repr

/-- A scratchpad store or SATOM of the tile's present cycle (R199): its core, the context and the bundle that issued it, and
the scalar SATOM writes. -/
structure SpOp where
  core : Nat
  cid : Nat
  seq : Nat
  op : LOp
  dst : Option (BitVec 5)
  deriving DecidableEq, Repr

/-- One tile (R16, R451). -/
structure Tile where
  tid : Nat
  /-- cycles since reset (R163) -/
  cyc : Nat
  /-- per core: the context number the search starts after, and the cycle of its next issue (R332) -/
  lastCtx : Vector Nat 4
  nextAt : Vector Nat 4
  /-- rotation pointer of each bank: cores 0 to 3, 4 the copy engine, 5 the array (R198) -/
  bankRot : Vector Nat 32
  /-- the cycle of the latest scratchpad store and the bytes it and its fellows of that cycle replaced (R199) -/
  spCyc : Nat
  spLog : List (Nat × Byte)
  /-- the stores and SATOMs of that cycle since the last write of an engine to their bytes, and the bytes they replaced and left -/
  spOps : List SpOp
  spUndo : List (Nat × Byte)
  spNow : List (Nat × Byte)
  /-- the lines requested in that cycle, with their banks and cores, and every pointer as it stood before (R198, R199) -/
  spReq : List (Nat × Nat × Nat)
  spRot : Vector Nat 32
  banks : Vector BankSt 32
  lease : Lease
  chain : Option Chain
  arr : List ArrOp
  gatherLat : List OpLatch
  bLat : List OpLatch
  /-- contexts that hold berths, with the sectors these can still take, and the round-robin pointer (R253) -/
  berths : List (Nat × Nat)
  berthNext : Nat
  svc : Svc
  deriving DecidableEq, Repr

/-- Start and ceiling voltage of each bin in mV (R448). -/
def binStart : Vector Nat 5 := #v[480, 550, 620, 690, 760]
def binCeil : Vector Nat 5 := #v[520, 600, 670, 740, 800]

/-- A tile's service state at reset: sites 0 to 11 enabled, site 12 the spare, every bin at its start voltage (log 3). -/
def Svc.reset (tid : Nat) : Svc :=
  { st := if tid % 16 < 12 then .enabled else if tid % 16 = 12 then .spare else .disabled, pst := .run, bin := 1, limit := 4,
    mv := binStart, hints := [], trepl := 0, harderr := 0, inj := 0, injSeen := 0, caught := false, wear := 0, susp := 0, holdab := 0,
    up := ⟨0, 0⟩, down := ⟨0, 0⟩, cool := none, recs := [], seq := 0, temp := 400, age := 0, boost := none, heat := false, dry := [],
    since := 0, sinceCyc := 0, hold := 0 }

def Tile.reset (tid : Nat) : Tile :=
  { tid := tid, cyc := 0, lastCtx := Vector.replicate 4 0, nextAt := Vector.replicate 4 0,
    bankRot := Vector.replicate 32 0, spCyc := 0, spLog := [], spOps := [], spUndo := [], spNow := [], spReq := [], spRot := Vector.replicate 32 0, banks := Vector.replicate 32 ⟨none, none, none⟩,
    lease := ⟨none, none, 0, [], []⟩, chain := none, arr := [], gatherLat := [], bLat := [], berths := [], berthNext := 0,
    svc := Svc.reset tid }

/-! ### The device -/

/-- A mailbox command being performed (R478): the operation code, the two arguments, the result address, the block. -/
structure MailCmd where
  op : Nat
  arg : Nat
  arg2 : Nat
  res : Nat
  block : List Byte
  deriving DecidableEq, Repr

/-- The mailbox of a function (R478): MBADDR, the command while BUSY, DROP, the last cause. -/
structure Mail where
  addr : Word
  cmd : Option MailCmd
  drop : Bool
  cause : Nat
  deriving DecidableEq, Repr

/-- Registers of one function, the PF (0) or a VF (1 to 64), and what the device keeps of it: range entries that are not
zero (R431), PTROOT (R433), PWIN and PART (R476), FSTAT (R481), RECFAIL (R518), the mailbox, LTOL (R460), the MSI-X table
and pending bits (R477); the number from which an access counts as later than the last change of its translation, and what
the last TSYNC read returned (R437); the host's writes since its last release (R319, R328). -/
structure Fn where
  ranges : List (Nat × BitVec 256)
  ptroot : Word
  pwin : Word
  part : BitVec 128
  ready : Bool
  flr : Bool
  recfail : Word
  mail : Mail
  ltol : BitVec 32
  msix : Vector (BitVec 128) 32
  pba : BitVec 32
  tmark : Nat
  tsync : Word
  hostWs : List WRef
  deriving DecidableEq, Repr

/-- The tiles enabled at reset: sites 0 to 11 of eight dies (log 3). -/
def enabledMask : BitVec 128 := 0x0FFF0FFF0FFF0FFF0FFF0FFF0FFF0FFF

/-- Registers of function `f` after reset (R431, R433, R476, R477, R460). -/
def Fn.reset (f : Nat) : Fn :=
  { ranges := [], ptroot := 0,
    pwin := if f = 0 then BitVec.ofNat 64 (2 ^ 32 + 2 ^ 31 + 2 ^ 30 + 383 * 512) else 0,
    part := if f = 0 then enabledMask else 0, ready := true, flr := false, recfail := 0, mail := ⟨0, none, false, 0⟩,
    ltol := 40, msix := Vector.replicate 32 (BitVec.ofNat 128 (2 ^ 96)), pba := 0, tmark := 0, tsync := 0, hostWs := [] }

/-- A cached translation or table pointer's outcome (R437): function, virtual page, the leaf's level and entry. -/
structure TlbEntry where
  vf : Nat
  page : Nat
  level : Nat
  entry : Word
  deriving DecidableEq, Repr

/-- A walk in progress or waiting for a walker (R437), by die. -/
structure Walk where
  id : Nat
  vf : Nat
  page : Nat
  die : Nat
  started : Bool
  waiters : List Nat
  deriving DecidableEq, Repr

/-- A walk that found no translation, kept for the agent that waits for it (R437: the device caches no fault). -/
structure WalkFault where
  agent : Nat
  vf : Nat
  page : Nat
  sub : Nat
  deriving DecidableEq, Repr

/-- A key slot (R442, R443): owner, state 0 empty 1 loaded 2 revoked, a number naming the key material. -/
structure KeySlot where
  own : Nat
  kst : Nat
  key : Nat
  deriving DecidableEq, Repr

/-- A write performed to a 16-byte piece (R208, R320): the write, the piece (pa ÷ 16), which of its bytes it wrote, its agent and
that one's function, and the piece's bytes before it with the key they were written under; none where they were poisoned. -/
structure WRec where
  id : Nat
  agent : Nat
  vf : Nat
  piece : Nat
  mask : BitVec 16
  key : Option Nat
  before : Option (List Byte)
  deriving DecidableEq, Repr

/-- A sync or queue operation on its way to its home or registered there (R289 to R292, R299, R389): the context, the
bundle, the operation, the location word, the place of the sync word (its physical address, or 2^60 + the scratchpad
byte), the key it is accessed under, its anchor, its operand, the row it carries, the writes it carries as a release,
whether it is answered, the accesses of its bundle that are performed with it, and the shadow bytes a write of the word
zeroes, with their keys (R125). -/
structure SOp where
  id : Nat
  cid : Nat
  pc : Word
  op : Instr
  loc : Word
  word : Nat
  key : Option Nat
  anchor : Nat
  vf : Nat
  n : Nat
  row : Option Row
  carry : List Carry
  answered : Bool
  along : List Along
  shadow : List (Nat × Option Nat)
  deriving DecidableEq, Repr

/-- An answer on its way back to a context (R291). -/
structure Answer where
  id : Nat
  cid : Nat
  answer : Nat
  data : Nat
  row : Option Row
  acq : Option Acq
  went : List Went
  deriving DecidableEq, Repr

/-- A sector post on its way to a barrier (R240, R302): barrier place, phase tag, the issuing context, and what the
copy's landing carries. -/
structure Post where
  id : Nat
  loc : Word
  word : Nat
  key : Option Nat
  tag : Nat
  cid : Nat
  pc : Word
  carry : List Carry
  shadow : List (Nat × Option Nat)
  cmd : Nat
  deriving DecidableEq, Repr

/-- Whose move is next (log 4). -/
inductive Turn where
  /-- core `k` (tile × 4 + core) makes its next move -/
  | issue (k : Nat)
  /-- a happening of the device, or of the world outside it -/
  | event (i : Instr)
  /-- harbour time passes while no tile's cycle ends -/
  | ticks (n : Nat)
  /-- `n` cycles of tile `t` pass in which no core issues -/
  | idle (t n : Nat)
  /-- the host reads a register -/
  | read (r : RegAccess)
  deriving DecidableEq, Repr

/-! ### Commit domains (17) -/

/-- A byte of a task's write buffer (R412): its place, its value, the key it will be written under. -/
structure BufByte where
  pa : Nat
  val : Byte
  key : Option Nat
  deriving DecidableEq, Repr

/-- State of a task (R422). -/
inductive TaskSt where
  | queued | running | parked | finished | committing
  deriving DecidableEq, Repr

/-- A task (R402, R406, R409, R412, R417, R419, R423): SEQ is its identity in its domain; the tile it is placed on; its
entry and arguments; the context it holds; its buffer with the moment its first byte came, its read set of 64-byte lines, its deferred fault with the
bundle that took it; aborts, whether its run is a re-execution, children spawned by this run, poison consumed and corrected
data read (R427). -/
structure Task where
  seq : Nat
  parent : Option Nat
  ts : Word
  tile : Nat
  entry : Nat
  a0 : Word
  a1 : Word
  st : TaskSt
  ctx : Option Nat
  buf : List BufByte
  bufAt : Nat
  rset : List Nat
  parked : Option Cause
  aborts : Nat
  reex : Bool
  spawned : Nat
  poison : Bool
  corrected : Bool
  deriving DecidableEq, Repr

/-- An open commit domain (R402 to R405, R427): its descriptor's fields, the task table, its tasks, the next SEQ, how
many have committed, the class, SUB and CTXID that stopped it, whether it is tainted, whether a committed
task read corrected data, the writes it has performed, when its first task
was dispatched and its last one ended, its ticket, and whether that is resident. `past` lists the frontier's timestamp and the number of
live tasks as they have followed one another, `told` how many of these each tile has learned (R408). -/
structure Dom where
  id : Nat
  vf : Nat
  tiles : List Nat
  handle : Nat
  kidx : Nat
  tctx : Nat
  record : Nat
  spill : Nat
  maxTask : Nat
  table : List Nat
  dataBase : Word
  ctxs : List Nat
  tasks : List Task
  nextSeq : Nat
  committed : Nat
  stopped : Option (Nat × Nat × Nat)
  taint : Bool
  corrected : Bool
  ws : List WRef
  tstart : Option Nat
  tend : Nat
  ticket : Nat
  resident : Bool
  past : List (Word × Nat)
  told : List (Nat × Nat)
  deriving DecidableEq, Repr

/-! ### Code objects (15 R368 to R374) -/

/-- A pipe end a kernel declares (R353, R369). -/
structure PipeEnd where
  name : List Byte
  num : Nat
  pop : Bool
  ldepth : Nat
  deriving DecidableEq, Repr

/-- A kernel of a loaded object (R369). `gname` is empty without `.gang`. -/
structure Kernel where
  entry : Nat
  hndl : Nat
  rows : Nat
  spad : Nat
  acc : Nat
  tokens : Nat
  strict : Bool
  chainMax : Nat
  gname : List Byte
  pipes : List PipeEnd
  ttab : Nat
  ntask : Nat
  deriving DecidableEq, Repr

/-- A loaded code object (R373, R374): its handle, the function that loaded it, the bases, the bundles, the latencies
(R57), its kernels, whether an unload waits for its launches. -/
structure CodeObj where
  handle : Nat
  fn : Nat
  codeBase : Word
  dataBase : Word
  nbund : Nat
  lat : Vector Nat 16
  kernels : List Kernel
  unloading : Bool
  deriving DecidableEq, Repr

/-! ### Launches, tickets, groups, pipes (14, 15) -/

/-- A row in a pipe (R357), with what its push carries (R358). -/
structure PipeRow where
  id : Nat
  cid : Nat
  row : Row
  arrived : Bool
  carry : List Carry
  deriving DecidableEq, Repr

/-- A pipe (R353, R357, R359): its die, depth and free slots, the rows in push order, the reservations that wait with their
numbers and contexts, and the contexts whose pops wait, both in their order of arrival, and the groups of its two ends. -/
structure Pipe where
  id : Nat
  die : Nat
  depth : Nat
  free : Nat
  rows : List PipeRow
  pushQ : List (Nat × Nat)
  popQ : List Nat
  pushG : Nat
  popG : Nat
  deriving DecidableEq, Repr

/-- State of a group or gang (R362). -/
inductive GroupSt where
  | reserving | resident | running | saved | restoring | completing | retired
  deriving DecidableEq, Repr

/-- A group (R351): its launch and ticket, which member of a gang it is and its number within the launch, its tile, its
contexts by member index, its scratchpad run; the arrived bits, what the arrivals carry and the last completion brought, the members whose held GBAR
may issue (R307), HINT.SUCC (R378), the banks it has released, whether a context tainted it, and its audit (R468). -/
structure Group where
  id : Nat
  launch : Nat
  ticket : Nat
  gmem : Nat
  num : Nat
  st : GroupSt
  tile : Nat
  members : List Nat
  bank : Nat
  banks : Nat
  arrived : List Nat
  gcarry : List WRef
  gknown : List WRef
  pass : List Nat
  /-- slot W's accesses of the bundles that hold at the barrier, by member, and those performed at its completion (R317) -/
  along : List (Nat × Along)
  went : List (Nat × Went)
  succ : Bool
  releasing : List Nat
  /-- the identity from which an operation counts as issued after the BANK.REL of a bank (R377) -/
  relAt : List (Nat × Nat)
  taint : Bool
  audit : Option Nat
  /-- the ticket for which its pre-emption has been requested (R363) -/
  victim : Option Nat
  deriving DecidableEq, Repr

/-- A waiting ticket of a launch, one for each of its groups or gangs, or of a domain (R360, R361, R405): the launch with the
group's or gang's number, or the domain; its level, the harbour time since which it waits, the die it was sent to, the groups
and the rows of the die's pipe buffer reserved for it so far, the victims it must not choose again (R363), and the older ticket to
which it has yielded (R361). Tickets stand in ticket order. -/
structure Ticket where
  id : Nat
  launch : Nat
  num : Nat
  dom : Option Nat
  level : Nat
  since : Nat
  die : Option Nat
  groups : List Nat
  rows : Nat
  spared : List Nat
  after : Option Nat
  deriving DecidableEq, Repr

/-- A predecessor a fired launch watches (R379, R398): its record and, once written, its verdict. -/
structure Pred where
  record : Nat
  early : Bool
  done : Option Nat
  deriving DecidableEq, Repr

/-- State of a graph node (R398). -/
inductive NodeSt where
  | parked | fired | held | queued | watching | heldEarly
  deriving DecidableEq, Repr

/-- A launch (R394, R381, R382): the entry's fields, the queue's level, its node descriptor's place in the graph, its
predecessors, what its contexts acquire at the start, what WAITVIS acquires, the number of its tickets already placed; verdict and
counters of the record; the used queues of its node descriptor (R396), the groups that gave HINT.SUCC (R378), whether its edges have been pushed early
(R400); the audits outstanding. -/
structure Launch where
  id : Nat
  fn : Nat
  level : Nat
  handle : Nat
  kidx : List Nat
  n : Nat
  gsz : List Nat
  nmem : Nat
  args : Word
  record : Nat
  place : Nat
  graph : Nat
  node : Option NodeSt
  preds : List Pred
  known : List WRef
  vis : List WRef
  issued : Nat
  cancelled : Bool
  vreq : Nat
  taint : Bool
  corrected : Bool
  user : Nat
  tstart : Option Nat
  tend : Nat
  ngrp : Nat
  ntaint : Nat
  first : Option (Nat × Nat × Nat)
  ws : List WRef
  inq : List Nat
  outq : List Nat
  hints : Nat
  earlyEdges : Bool
  audits : Nat
  deriving DecidableEq, Repr

/-- A launch queue of a function (R392). -/
structure LaunchQ where
  base : Word
  cfg : BitVec 32
  tail : BitVec 32
  head : BitVec 32
  /-- the host writes its tail pointer has released (R319) -/
  known : List WRef
  deriving DecidableEq, Repr

def LaunchQ.reset : LaunchQ := ⟨0, 0, 0, 0, []⟩

/-! ### Device-wide registers and NVM (18 R444 to R446, 19, 20) -/

/-- A record waiting for or in the retirement log (R445). -/
structure RlogRec where
  pa : Nat
  len : Nat
  kind : Nat
  flags : Nat
  ht : Nat
  deriving DecidableEq, Repr

/-- A signer slot (R372, R479): enabled, the digest of its keys, MINSVN. -/
structure Signer where
  enabled : Bool
  digest : Nat
  minsvn : Nat
  deriving DecidableEq, Repr

/-- A share of budget given (`out`) or received (R464): its peer, watts in units of 0.25 W, its expiry. -/
structure Share where
  out : Bool
  peer : Nat
  watts : Nat
  exp : Nat
  deriving DecidableEq, Repr

/-- State of a scale-up port (R486). -/
inductive PortSt where
  | down | training | up | degraded | failed
  deriving DecidableEq, Repr

/-- A scale-up port: its state, the trainings that have failed in a row, its peer. -/
structure Port where
  st : PortSt
  fails : Nat
  peer : Option Nat
  deriving DecidableEq, Repr

/-- Registers of the management window and what the device keeps: TDMAP and ENTILES (R17); the retirement log and the
records that wait (R445); QTHRESH (R480); DSPWAIT (R364); RBFLOOR, budget shares, the last SEQ of each sender and to each receiver, and the
messages sent (R464); package power over the last ten stretches of 100 µs (R462);
AUDITCFG, AUDITLOG, the count of placed groups (R467, R468); DEVID, ports, time sync (R484 to R487); the export window
(R485); corrected errors counted, quarantined runs, pending repairs (R444); signer slots, serial number, command counter
(R479); the SHA3-256 digest and the SVN of the firmware (R483); the thermal limit (R473); the tile next in the rotation of R463; the cause of a failed boot and whether the device has
stopped (R482, R483); the verdicts, with the writes their records carry, of completed launches that let successors start early (R379, R400); what a peer was last
answered, with its poison (R485); the MSI-X messages raised. -/
structure Dev where
  tdmap : Vector (BitVec 32) 8
  rlogBase : Word
  rlogCfg : BitVec 32
  rlogTail : BitVec 32
  rlogHead : BitVec 32
  rlogWait : List RlogRec
  qthresh : Nat
  dspwait : Vector Nat 8
  rbfloor : Nat
  shares : List Share
  lastSeq : List (Nat × Nat)
  sentSeq : List (Nat × Nat)
  sent : List BudgetMsg
  power : List Nat
  auditcfg : BitVec 32
  auditlog : Word
  placed : Nat
  devid : Nat
  dtag : Nat
  devidSet : Bool
  ports : Vector Port 12
  sync : Bool
  expBase : Nat
  expEnd : Nat
  expKey : Option Nat
  errs : List (Nat × Nat)
  quar : List RlogRec
  repairs : List RlogRec
  signers : List (Nat × Signer)
  serial : Word
  counter : Nat
  fwDigest : Nat
  fwSvn : Nat
  thermal : Bool
  rot : Nat
  boot : Option Nat
  stopped : Bool
  early : List (Nat × Nat × List WRef)
  reply : Option (List Byte × Bool)
  msi : List (Nat × Nat)
  deriving DecidableEq, Repr

/-- After reset, with the NVM contents of log 3. -/
def Dev.reset : Dev :=
  { tdmap := Vector.replicate 8 (BitVec.ofNat 32 (12 * 2 ^ 28 + 0xFFF)), rlogBase := 0, rlogCfg := 0, rlogTail := 0, rlogHead := 0,
    rlogWait := [], qthresh := 16, dspwait := Vector.replicate 8 100000, rbfloor := 1600, shares := [], lastSeq := [], sentSeq := [], sent := [], power := [],
    auditcfg := 0x00040A00, auditlog := 0, placed := 0, devid := 0, dtag := 0, devidSet := false,
    ports := Vector.replicate 12 ⟨.down, 0, none⟩, sync := false, expBase := Config.exportBase, expEnd := Config.exportEnd, expKey := Config.exportKey, errs := [],
    quar := [], repairs := [], signers := [(0, ⟨true, Config.nvmDigest, 0⟩)], serial := 0, counter := 0,
    fwDigest := Config.firmwareDigest, fwSvn := Config.firmwareSvn, thermal := false, rot := 0, boot := none,
    stopped := false, early := [], reply := none, msi := [] }

/-- A datum that a group took from outside its contexts (R468): a load's entry, an atomic's old value with what its entry got, an
answer, a control register's value, a byte that a copy landed. -/
inductive Datum where
  | entry (v : LdVal) (poison : Bool)
  | old (w : Nat) (v : Scalar) (poison : Bool)
  | answer (a : Answer)
  | read (w : Word)
  | byte (b : Byte) (bad : Bool) (cnt : Nat)
  deriving DecidableEq, Repr

/-- The orders in which a context takes such data (R468): its load entries and atomics, its answers, its CREADs, what its copies read,
and what stood where its reductions wrote. -/
inductive DatumKind where
  | access | answer | read | copy | reduce
  deriving DecidableEq, Repr

/-- A datum with its place: the member that took it, the order it belongs to and its place there. -/
structure AuditRec where
  member : Nat
  kind : DatumKind
  key : Nat
  val : Datum
  deriving DecidableEq, Repr

/-- An audit (R468 to R471): the group's launch, its number there, its contexts and its tile; its log slot with the slot's bytes and
those taken, and the data logged, in ascending places; the signature its writes have formed so far, whether the group has retired;
and, while it is replayed, the group that stands for the replay on another tile with its contexts, the signature of the replay, how many
data each member has taken of each order, and whether it has asked for one the log does not hold. -/
structure Audit where
  id : Nat
  launch : Nat
  num : Nat
  group : Nat
  members : List Nat
  tile : Nat
  slot : Nat
  len : Nat
  size : Nat
  log : List AuditRec
  sig : Word
  ready : Bool
  replay : Option Nat
  twins : List Nat
  sig2 : Word
  used : List ((Nat × DatumKind) × Nat)
  lack : Bool
  deriving DecidableEq, Repr

/-- The machine. -/
structure State where
  /-- the context in focus, and the other contexts that exist -/
  cur : Ctx
  others : List Ctx
  tiles : List Tile
  /-- harbour time in ticks (R25) -/
  htime : Nat
  /-- HBM, host memory and remote windows by physical address (R429) -/
  mem : List Host.Cell
  /-- the scratchpads: tile × 2^23 + offset (R16, R196) -/
  spad : List Host.Cell
  /-- poisoned 32-byte sectors, pa ÷ 32 (R444) -/
  poison : List Nat
  /-- of a poisoned sector, the write under way to it and the bytes it has replaced so far (R444) -/
  pcover : List (Nat × Nat × BitVec 32)
  /-- the key each encrypted sector was written under (R442) -/
  skey : List (Nat × Nat)
  fns : List (Nat × Fn)
  keys : List (Nat × KeySlot)
  tlb : List TlbEntry
  walks : List Walk
  walkFaults : List WalkFault
  gops : List GOp
  hist : List WRec
  sops : List SOp
  syncRegs : List SOp
  /-- registrations of saved contexts, to be made again at restore (R349) -/
  parked : List SOp
  answers : List Answer
  /-- releases performed on each word, with what they carry (R316) -/
  rels : List (Nat × List Carry)
  posts : List Post
  doms : List Dom
  objs : List CodeObj
  launches : List Launch
  tickets : List Ticket
  groups : List Group
  pipes : List Pipe
  /-- launch queues by function × 16 + number, and the queue last served at each level (R393) -/
  lqs : List (Nat × LaunchQ)
  lastLq : List (Nat × Nat)
  audits : List Audit
  dev : Dev
  /-- the model's own: whose move is next (log 4), fresh identities, counter of free values (log 5) -/
  turns : List Turn
  uid : Nat
  fresh : Nat
  deriving DecidableEq, Repr

/-- Why the machine stops. -/
inductive Fault where
  /-- Raised by `step` when a turn names an operation of a slot where it should name a happening of the device: no run of
  the hardware has such a turn. Safe. -/
  | badTurn
  deriving DecidableEq, Repr

/-- Why the model has no answer. -/
inductive Refusal where
  /-- Raised by an arm of `exec` whose instruction has no meaning yet. Safe: nothing is claimed of it. -/
  | notModelled (mnemonic : String)
  deriving DecidableEq, Repr

def Crs.reset : Crs :=
  { repi := 0, sigfloor := 0, planew := 0x108, lpad := Vector.replicate 4 0, lilk := 0,
    sticky := Vector.replicate 8 0, sigrec := Vector.replicate 8 0, tfcause := 0, tfpc := 0, tfaddr := 0,
    tfinfo := 0, tvec := 0, codebase := 0, sabase := 0, intrap := false, poisonC := false }

def Regs.reset : Regs :=
  { s := Vector.replicate 32 ⟨0, 24⟩, p := 0, k := Vector.replicate 8 0, rows := [],
    lat := Vector.replicate 12 Latch.invalid }

/-- The FL384's native latencies (R56). -/
def nativeLat : Vector Nat 16 := #v[1, 3, 12, 4, 2, 4, 8, 3, 3, 5, 6, 8, 2, 4, 1, 2]

/-- A hardware context bound to nothing (R330). -/
def Ctx.fresh (cid : Nat) : Ctx :=
  { cid := cid, status := .free, pc := 0, ctl := 0, regs := Regs.reset, crs := Crs.reset,
    cb := ⟨Vector.replicate 16 0, 0, false⟩, acc := [], tok := 0, tokBind := [], tokWs := [],
    moor := Vector.replicate 16 none, view := View.empty, maps := Vector.replicate 8 none, win := Window.reset,
    ldq := [], fl := [], seq := 0, pt := 0, resume := 0, lat := nativeLat, bind := Binding.none, iss := Iss.none, pends := [],
    wait := none, reads := [], reinj := none, sides := [], counted := none, resumeAt := none, sleepTill := none, phase := 0, counts := [], atSwp := false, preempt := false, held := none, task := none }

/-- The machine right after reset. -/
def State.reset : State :=
  { cur := Ctx.fresh 0, others := [], tiles := [], htime := 0, mem := [], spad := [], poison := [], pcover := [], skey := [],
    fns := [], keys := [], tlb := [], walks := [], walkFaults := [], gops := [], hist := [], sops := [], syncRegs := [], parked := [], answers := [],
    rels := [], posts := [], doms := [], objs := [], launches := [], tickets := [], groups := [], pipes := [], lqs := [],
    lastLq := [], audits := [], dev := Dev.reset, turns := [], uid := 1, fresh := 0 }

end Sys2Proof.Machine
end

