-- ==== Sys2Proof/Machine/Bits.lean ====
section
/-!
DEFINITION. Bit and byte helpers: sign extension, little-endian byte strings (R7), lanes of a row (R94), clamping
(R88). Everything is plain `Nat`, `Int` and `BitVec` arithmetic that the kernel evaluates.
-/
namespace Sys2Proof.Machine

/-- The low `w` bits of `x` read as a two's-complement integer. -/
def sextN (w : Nat) (x : Nat) : Int :=
  let y := x % 2 ^ w
  if 2 ^ w ≤ 2 * y then (y : Int) - 2 ^ w else y

/-- An integer reduced modulo `2^w` (R88, wrapping). -/
def wrapN (w : Nat) (x : Int) : Nat := (x % (2 ^ w : Nat)).toNat

/-- Bits `lo + n - 1` down to `lo` of `x`. -/
def bitsOf (lo n : Nat) (x : Nat) : Nat := (x >>> lo) % 2 ^ n

/-- `x` read by a type of `n` bits, signed or unsigned (R142, R173). -/
def readInt (signed : Bool) (n x : Nat) : Int := if signed then sextN n x else ((x % 2 ^ n : Nat) : Int)

/-- Clamp an integer between two bounds. -/
def clampI (lo hi x : Int) : Int := if x < lo then lo else if hi < x then hi else x

/-- Clamp an integer to a natural between 0 and `p` (R109). -/
def clampCnt (p : Nat) (x : Int) : Nat := (clampI 0 p x).toNat

/-- Least and greatest value of an integer type of `n` bits (R88). -/
def intMin (signed : Bool) (n : Nat) : Int := if signed then -(2 ^ (n - 1) : Nat) else 0
def intMax (signed : Bool) (n : Nat) : Int := if signed then (2 ^ (n - 1) : Nat) - 1 else (2 ^ n : Nat) - 1

/-- `n` bytes of `x`, least significant first (R7). -/
def leBytes : Nat → Nat → List Byte
  | 0, _ => []
  | n + 1, x => BitVec.ofNat 8 x :: leBytes n (x >>> 8)

/-- The number a little-endian byte string stands for (R7). -/
def leNat : List Byte → Nat
  | [] => 0
  | b :: bs => b.toNat + (leNat bs) * 256

/-- Lane `j` of width `w` of a row's bits (R94). -/
def laneN (w j : Nat) (x : Nat) : Nat := (x >>> (w * j)) % 2 ^ w

/-- Lanes of width `w` packed with lane 0 lowest (R94). -/
def packN (w : Nat) : List Nat → Nat
  | [] => 0
  | x :: xs => x % 2 ^ w + (packN w xs) * 2 ^ w

/-- The first `n` lanes of width `w`. -/
def lanesOf (w n : Nat) (x : Nat) : List Nat := (List.range n).map fun j => laneN w j x

/-- Number of one bits among the low `n` bits. -/
def popN : Nat → Nat → Nat
  | 0, _ => 0
  | n + 1, x => x % 2 + popN n (x >>> 1)

/-- Number of leading zero bits of an `n`-bit value (R143). -/
def clzN (n x : Nat) : Nat := if x % 2 ^ n = 0 then n else n - 1 - Nat.log2 (x % 2 ^ n)

/-- Number of trailing zero bits of an `n`-bit value (R143). -/
def ctzN : Nat → Nat → Nat
  | 0, _ => 0
  | n + 1, x => if x % 2 = 1 then 0 else 1 + ctzN n (x >>> 1)

/-- Replace the element at index `i` of a list (nothing happens past its end). -/
def putAt {α : Type} (l : List α) (i : Nat) (a : α) : List α := l.set i a

/-- Look a key up in an association list. -/
def look {α : Type} (k : Nat) : List (Nat × α) → Option α
  | [] => none
  | (j, a) :: r => if j = k then some a else look k r

/-- Set a key of an association list, in place when the key is present, else at the end. -/
def put {α : Type} (k : Nat) (a : α) : List (Nat × α) → List (Nat × α)
  | [] => [(k, a)]
  | (j, b) :: r => if j = k then (k, a) :: r else (j, b) :: put k a r

/-- Remove a key from an association list. -/
def drp {α : Type} (k : Nat) : List (Nat × α) → List (Nat × α)
  | [] => []
  | (j, b) :: r => if j = k then drp k r else (j, b) :: drp k r

end Sys2Proof.Machine
end

