-- ==== Sys2Proof/Machine/Float.lean ====
section
/-!
DEFINITION. Floating-point values and their arithmetic (04 R81 to R87): exact dyadic numbers, one rounding, the five
flags, and with every result whether it is exact. The precision p (24 for FP32, 8 for BF16) names the format; both
have 8 exponent bits and bias 127.
-/
namespace Sys2Proof.Machine

/-- The five flags of R86, in the order of STICKYn.FLAGS (R333). -/
abbrev Flags := BitVec 5
def flNV : Flags := 1
def flDZ : Flags := 2
def flOF : Flags := 4
def flUF : Flags := 8
def flNX : Flags := 16

/-- A decoded floating-point value (R81): a NaN (signalling or not), an infinity, or `±m·2^e`. -/
inductive FVal where
  | nan (sig : Bool)
  | inf (neg : Bool)
  | num (neg : Bool) (m : Nat) (e : Int)
  deriving DecidableEq, Repr

/-- Decode the bits of the format of precision `p` (R81). -/
def fDec (p : Nat) (x : Nat) : FVal :=
  let frac := x % 2 ^ (p - 1)
  let ex := bitsOf (p - 1) 8 x
  let neg := bitsOf (p + 7) 1 x = 1
  if ex = 255 then (if frac = 0 then .inf neg else .nan (bitsOf (p - 2) 1 x = 0))
  else if ex = 0 then .num neg frac (-126 - ((p : Int) - 1))
  else .num neg (2 ^ (p - 1) + frac) ((ex : Int) - 127 - ((p : Int) - 1))

/-- Sign bit of the format. -/
def fSign (p : Nat) (neg : Bool) : Nat := if neg then 2 ^ (p + 7) else 0
/-- The canonical quiet NaN (R81, R85). -/
def fQNaN (p : Nat) : Nat := 255 * 2 ^ (p - 1) + 2 ^ (p - 2)
def fInf (p : Nat) (neg : Bool) : Nat := fSign p neg + 255 * 2 ^ (p - 1)
def fZero (p : Nat) (neg : Bool) : Nat := fSign p neg
def fMax (p : Nat) (neg : Bool) : Nat := fInf p neg - 1

def FVal.isNan : FVal → Bool
  | .nan _ => true
  | _ => false
def FVal.isSig : FVal → Bool
  | .nan s => s
  | _ => false
def FVal.isInf : FVal → Bool
  | .inf _ => true
  | _ => false
def FVal.isZero : FVal → Bool
  | .num _ m _ => m = 0
  | _ => false
def FVal.neg? : FVal → Bool
  | .nan _ => false
  | .inf n => n
  | .num n _ _ => n
def FVal.negate : FVal → FVal
  | .nan s => .nan s
  | .inf n => .inf (!n)
  | .num n m e => .num (!n) m e

/-- lead(x) of R99 for a non-zero finite value; −126 for a zero (R108). -/
def FVal.lead : FVal → Int
  | .num _ m e => if m = 0 then -126 else (Nat.log2 m : Int) + e
  | _ => -126

/-- Flag for signalling operands (R85). -/
def sigNV (a b : FVal) : Flags := if a.isSig || b.isSig then flNV else 0

/-- The result of a floating-point operation before its count: bits, flags, and whether it equals the exact value. -/
structure FRes where
  bits : Nat
  flags : Flags
  exact : Bool
  deriving DecidableEq, Repr

def FRes.nanRes (p : Nat) (fl : Flags) : FRes := ⟨fQNaN p, fl, false⟩

/-- Drop `sh` low bits of `m` rounding by `rm` (R84); `sticky` says that the exact value lies strictly between `m` and
`m + 1`. Answers the kept part and whether anything was lost. -/
def roundShift (rm : BitVec 2) (neg : Bool) (m sh : Nat) (sticky : Bool) : Nat × Bool :=
  let q := m >>> sh
  let r := m - (q <<< sh)
  let inexact := r != 0 || sticky
  let up : Bool :=
    if rm = 0 then 2 * r > 2 ^ sh || (2 * r = 2 ^ sh && (sticky || q % 2 = 1))
    else if rm = 1 then false
    else if rm = 2 then neg && inexact
    else !neg && inexact
  (if up then q + 1 else q, inexact)

/-- `m·2^e` brought to the unit `2^u`, rounded by `rm`. -/
def toUnit (rm : BitVec 2) (neg : Bool) (m : Nat) (e u : Int) (sticky : Bool) : Nat × Bool :=
  if e < u then roundShift rm neg m (u - e).toNat sticky else (m <<< (e - u).toNat, sticky)

/-- Round `±m·2^e` (m not 0) once to the format of precision `p` by `rm` (R83 to R86). -/
def fRound (p : Nat) (rm : BitVec 2) (neg : Bool) (m : Nat) (e : Int) (sticky : Bool) : FRes :=
  let lead := (Nat.log2 m : Int) + e
  let u := max (lead - ((p : Int) - 1)) (-126 - ((p : Int) - 1))
  let (k, inx) := toUnit rm neg m e u sticky
  let bits := ((u + (p : Int) - 1 + 126).toNat) * 2 ^ (p - 1) + k
  if 255 * 2 ^ (p - 1) ≤ bits then
    let toInf := rm = 0 || (rm = 2 && neg) || (rm = 3 && !neg)
    ⟨if toInf then fInf p neg else fMax p neg, flOF ||| flNX, false⟩
  else
    let (ku, _) := toUnit rm neg m e (lead - ((p : Int) - 1)) sticky
    let tiny := lead < -127 || (lead = -127 && ku < 2 ^ p)
    ⟨fSign p neg + bits, if inx then (if tiny then flUF ||| flNX else flNX) else 0, !inx⟩

/-- Signed value of a finite number at unit `2^u`, `u` at or below its exponent. -/
def sAt (u : Int) (neg : Bool) (m : Nat) (e : Int) : Int :=
  let v : Int := ((m <<< (e - u).toNat : Nat) : Int)
  if neg then -v else v

/-- Exact sum of two finite numbers, rounded once (R83): signed zeros as IEEE 754-2019. -/
def addNum (p : Nat) (rm : BitVec 2) (n1 : Bool) (m1 : Nat) (e1 : Int) (n2 : Bool) (m2 : Nat) (e2 : Int) : FRes :=
  let u := min e1 e2
  let x := sAt u n1 m1 e1 + sAt u n2 m2 e2
  if x = 0 then
    ⟨fZero p (if n1 = n2 && m1 = 0 then n1 else rm = 2), 0, true⟩
  else fRound p rm (x < 0) x.natAbs u false

/-- a + b (R83, R85). -/
def fAdd (p : Nat) (rm : BitVec 2) (a b : FVal) : FRes :=
  match a, b with
  | .nan _, _ => .nanRes p (sigNV a b)
  | _, .nan _ => .nanRes p (sigNV a b)
  | .inf x, .inf y => if x = y then ⟨fInf p x, 0, true⟩ else .nanRes p flNV
  | .inf x, _ => ⟨fInf p x, 0, true⟩
  | _, .inf y => ⟨fInf p y, 0, true⟩
  | .num n1 m1 e1, .num n2 m2 e2 => addNum p rm n1 m1 e1 n2 m2 e2

def fSub (p : Nat) (rm : BitVec 2) (a b : FVal) : FRes := fAdd p rm a b.negate

/-- a × b. -/
def fMul (p : Nat) (rm : BitVec 2) (a b : FVal) : FRes :=
  match a, b with
  | .nan _, _ => .nanRes p (sigNV a b)
  | _, .nan _ => .nanRes p (sigNV a b)
  | .inf x, _ => if b.isZero then .nanRes p flNV else ⟨fInf p (x != b.neg?), 0, true⟩
  | _, .inf y => if a.isZero then .nanRes p flNV else ⟨fInf p (a.neg? != y), 0, true⟩
  | .num n1 m1 e1, .num n2 m2 e2 =>
    if m1 * m2 = 0 then ⟨fZero p (n1 != n2), 0, true⟩ else fRound p rm (n1 != n2) (m1 * m2) (e1 + e2) false

/-- a × b + c, rounded once; a product 0 × ∞ raises NV whatever the addend is (R85). -/
def fFma (p : Nat) (rm : BitVec 2) (a b c : FVal) : FRes :=
  let sig := if a.isSig || b.isSig || c.isSig then flNV else 0
  if (a.isInf && b.isZero) || (a.isZero && b.isInf) then .nanRes p flNV
  else match a, b, c with
  | .nan _, _, _ => .nanRes p sig
  | _, .nan _, _ => .nanRes p sig
  | _, _, .nan _ => .nanRes p sig
  | .num n1 m1 e1, .num n2 m2 e2, .num n3 m3 e3 => addNum p rm (n1 != n2) (m1 * m2) (e1 + e2) n3 m3 e3
  | .num _ _ _, .num _ _ _, .inf z => ⟨fInf p z, 0, true⟩
  | _, _, .inf z => if (a.neg? != b.neg?) = z then ⟨fInf p z, 0, true⟩ else .nanRes p flNV
  | _, _, .num _ _ _ => ⟨fInf p (a.neg? != b.neg?), 0, true⟩

/-- a ÷ b, correctly rounded (R151). -/
def fDiv (p : Nat) (rm : BitVec 2) (a b : FVal) : FRes :=
  match a, b with
  | .nan _, _ => .nanRes p (sigNV a b)
  | _, .nan _ => .nanRes p (sigNV a b)
  | .inf _, .inf _ => .nanRes p flNV
  | .inf x, _ => ⟨fInf p (x != b.neg?), 0, true⟩
  | _, .inf y => ⟨fZero p (a.neg? != y), 0, true⟩
  | .num n1 m1 e1, .num n2 m2 e2 =>
    if m2 = 0 then (if m1 = 0 then .nanRes p flNV else ⟨fInf p (n1 != n2), flDZ, false⟩)
    else if m1 = 0 then ⟨fZero p (n1 != n2), 0, true⟩
    else
      let x := m1 <<< 64
      fRound p rm (n1 != n2) (x / m2) (e1 - e2 - 64) (x % m2 != 0)

/-- Integer square root of `n` by bits, `f` of them: the greatest `r` with `r² ≤ n`. -/
def sqrtBits : Nat → Nat → Nat → Nat
  | 0, r, _ => r
  | f + 1, r, n => let c := r + 2 ^ f; sqrtBits f (if c * c ≤ n then c else r) n

/-- Square root, correctly rounded (R151). -/
def fSqrt (p : Nat) (rm : BitVec 2) (a : FVal) : FRes :=
  match a with
  | .nan s => .nanRes p (if s then flNV else 0)
  | .inf n => if n then .nanRes p flNV else ⟨fInf p false, 0, true⟩
  | .num n m e =>
    if m = 0 then ⟨fZero p n, 0, true⟩
    else if n then .nanRes p flNV
    else
      let odd : Nat := (e % 2).toNat
      let x := (m <<< odd) <<< 64
      let r := sqrtBits 50 0 x
      fRound p rm false r ((e - odd) / 2 - 32) (r * r != x)

/-- Order of two values that are not NaN. -/
def fLt (a b : FVal) : Bool :=
  match a, b with
  | .nan _, _ => false
  | _, .nan _ => false
  | .inf x, .inf y => x && !y
  | .inf x, _ => x
  | _, .inf y => !y
  | .num n1 m1 e1, .num n2 m2 e2 => let u := min e1 e2; sAt u n1 m1 e1 < sAt u n2 m2 e2
def fEq (a b : FVal) : Bool := !a.isNan && !b.isNan && !fLt a b && !fLt b a

/-- The condition codes of SFCMP and VFCMP (R152): the answer and the flags. -/
def fCmp (cc : Nat) (a b : FVal) : Bool × Flags :=
  let un := a.isNan || b.isNan
  let quiet := sigNV a b
  let anyN : Flags := if un then flNV else 0
  if cc = 0 then (fEq a b, quiet)
  else if cc = 1 then (un || !fEq a b, quiet)
  else if cc = 2 then (fLt a b, anyN)
  else if cc = 3 then (!un && !fLt b a, anyN)
  else if cc = 4 then (fLt b a, anyN)
  else if cc = 5 then (!un && !fLt a b, anyN)
  else if cc = 6 then (un, quiet)
  else (!un, quiet)

/-- Float to integer of `n` bits (R87): the result's bits and the flags. -/
def fToInt (rm : BitVec 2) (signed : Bool) (n : Nat) (a : FVal) : Nat × Flags :=
  match a with
  | .nan _ => (0, flNV)
  | .inf neg => (wrapN n (if neg then intMin signed n else intMax signed n), flNV)
  | .num neg m e =>
    let (k, inx) := toUnit rm neg m e 0 false
    let v : Int := if neg then -(k : Int) else k
    if v < intMin signed n then (wrapN n (intMin signed n), flNV)
    else if intMax signed n < v then (wrapN n (intMax signed n), flNV)
    else (wrapN n v, if inx then flNX else 0)

/-- Integer to float (R87). -/
def intToF (p : Nat) (rm : BitVec 2) (x : Int) : FRes :=
  if x = 0 then ⟨fZero p false, 0, true⟩ else fRound p rm (x < 0) x.natAbs 0 false

/-- Float to float of precision `p` (R87). -/
def fToF (p : Nat) (rm : BitVec 2) (a : FVal) : FRes :=
  match a with
  | .nan s => .nanRes p (if s then flNV else 0)
  | .inf n => ⟨fInf p n, 0, true⟩
  | .num n m e => if m = 0 then ⟨fZero p n, 0, true⟩ else fRound p rm n m e false

/-! ### Transcendentals (R179, R180)

The exact value is enclosed by arithmetic on numbers of many bits; the result is a value of the format within 2 units
in the last place of it, which one being a free choice. -/

/-- `2^(x / 2^128)` for `x < 2^128`, times `2^128`, by the series of exp(x·ln 2). -/
def exp2Frac : Nat → Nat → Nat
  | 0, _ => 2 ^ 128
  | n + 1, y => 2 ^ 128 + y * (expTail n 2 y) / 2 ^ 128
where
  /-- Horner tail of the exponential series: `1 + y/k·(1 + y/(k+1)·…)`, times `2^128`. -/
  expTail : Nat → Nat → Nat → Nat
    | 0, _, _ => 2 ^ 128
    | n + 1, k, y => 2 ^ 128 + y * (expTail n (k + 1) y) / (k * 2 ^ 128)

/-- ln 2 times 2^128. -/
def ln2Fix : Nat := 235865763225513294137944142764154484399
/-- log2 e times 2^128. -/
def log2eFix : Nat := 490923683258796565746369346286093237521

/-- 2^z for the fixed-point exponent `z / 2^128`: mantissa times 2^128 in [1, 2) and the power of two. -/
def exp2Fix (z : Int) : Nat × Int :=
  let y := clampI (-600 * 2 ^ 128) (600 * 2 ^ 128) z   -- beyond ±600 the result is an infinity or a zero alike
  let q := y / (2 ^ 128 : Nat)
  let f := (y % (2 ^ 128 : Nat)).toNat
  (exp2Frac 40 (f * ln2Fix / 2 ^ 128), q)

/-- Fraction bits of log2 of `x / 2^128` in [1, 2), `n` of them, most significant first. -/
def log2Bits : Nat → Nat → Nat
  | 0, _ => 0
  | n + 1, x =>
    let y := x * x / 2 ^ 128
    if 2 ^ 129 ≤ y then 2 ^ n + log2Bits n (y / 2) else log2Bits n y

inductive TransOp where
  | rcp | rsqrt | exp2 | log2 | sigm
  deriving DecidableEq, Repr

/-- `x·2^(-128)` for a finite value, floored, as a fixed-point exponent argument. -/
def toFix (neg : Bool) (m : Nat) (e : Int) : Int :=
  let k : Nat := if 0 ≤ e + 128 then m <<< (e + 128).toNat else m >>> (-(e + 128)).toNat
  if neg then -(k : Int) else k

/-- A positive number close to the exact result `m·2^e` of the operation on the finite operand `±m0·2^e0`, with its
sign. The relative error is far below 2^(-60), and beside a power of two it lies on the side on which the exact result does. -/
def transApprox (op : TransOp) (neg : Bool) (m0 : Nat) (e0 : Int) : Bool × Nat × Int :=
  match op with
  | .rcp => (neg, 2 ^ 160 / m0, -160 - e0)
  | .rsqrt =>
    let odd : Nat := (e0 % 2).toNat
    let x := m0 <<< odd
    (false, sqrtBits 120 0 (2 ^ 230 / x), -115 - (e0 - odd) / 2)
  | .exp2 =>
    if (Nat.log2 m0 : Int) + e0 < -60 then (false, if neg then 2 ^ 200 - 1 else 2 ^ 200 + 1, -200)
    else let (k, q) := exp2Fix (toFix neg m0 e0); (false, k, q - 128)
  | .log2 =>
    let l := Nat.log2 m0
    let x := (m0 <<< 128) >>> l
    let v : Int := ((e0 + l) * (2 ^ 112 : Nat) + (log2Bits 112 x : Nat))
    (v < 0, v.natAbs, -112)
  | .sigm =>
    -- 1 / (1 + 2^x) with x = −a·log2 e; the numbers 1 and 2^x at the common unit 2^(u−128)
    if (Nat.log2 m0 : Int) + e0 < -60 then (false, if neg then 2 ^ 200 - 1 else 2 ^ 200 + 1, -201)
    else
    let (k, q) := exp2Fix (-(toFix neg m0 e0) * (log2eFix : Int) / (2 ^ 128 : Nat))
    let u : Int := min q 0
    let one := (2 ^ 128) <<< (-u).toNat
    let den := one + (k <<< (q - u).toNat)
    (false, (one <<< 1400) / den, -1400)

/-- Whether the result of the operation on `m0·2^e0` is exact: a power of two, an even power of two, an integer, a
power of two (R179). -/
def transExact (op : TransOp) (m0 : Nat) (e0 : Int) : Bool :=
  match op with
  | .rcp => m0 = 2 ^ Nat.log2 m0
  | .rsqrt => m0 = 2 ^ Nat.log2 m0 && (e0 + Nat.log2 m0) % 2 = 0
  | .exp2 => 0 ≤ e0 || m0 % 2 ^ (-e0).toNat = 0
  | .log2 => m0 = 2 ^ Nat.log2 m0
  | .sigm => false

/-- Whether the magnitude `c` (bits of the format, sign aside) lies within 2 units in the last place of `m·2^e`, the
unit being that of the exact value (R179). -/
def within2ulp (p : Nat) (c : Nat) (m : Nat) (e : Int) : Bool :=
  match fDec p c with
  | .num _ mc ec =>
    let lead := (Nat.log2 m : Int) + e
    let ulp := max lead (-126) - (p : Int) + 1
    let u := min (min e ec) ulp
    let d := sAt u false mc ec - sAt u false m e
    d.natAbs ≤ 2 * 2 ^ (ulp - u).toNat
  | _ => false

/-- The result of a transcendental on a non-zero finite operand. `pick` chooses among the format's values within 2
units in the last place of the exact value (R179); a result above the largest finite value is an infinity, one below
the smallest subnormal a zero (R180). -/
def transFin (p : Nat) (op : TransOp) (pick : BitVec 3) (neg : Bool) (m0 : Nat) (e0 : Int) : FRes :=
  let (sg, m, e) := transApprox op neg m0 e0
  if m = 0 then ⟨fZero p false, if transExact op m0 e0 then 0 else flUF ||| flNX, transExact op m0 e0⟩
  else
    let r := fRound p 0 sg m e (!transExact op m0 e0)
    if transExact op m0 e0 && r.exact then r
    else
      let lead := (Nat.log2 m : Int) + e
      let mag := r.bits % 2 ^ (p + 7)
      let isMax : Bool := match fDec p (fMax p false) with
        | .num _ mm em => let u := min em e; sAt u false mm em < sAt u false m e
        | _ => false
      if isMax then ⟨fInf p sg, flOF ||| flNX, false⟩
      else if lead < -126 - ((p : Int) - 1) then ⟨fZero p sg, flUF ||| flNX, false⟩
      else
        let base := if mag = fInf p false then fMax p false else mag
        let cand : Int := (base : Int) + pick.toInt
        let c := cand.toNat
        let ok : Bool := 0 ≤ cand && within2ulp p c m e && !(op = .sigm && 127 * 2 ^ (p - 1) < c)
        let fl : Flags := if lead < -126 && 0 < (r.flags &&& flUF).toNat then flUF ||| flNX else flNX
        ⟨fSign p sg + (if ok then c else base), fl, false⟩

/-- A transcendental with its special operands (R180). -/
def fTrans (p : Nat) (op : TransOp) (pick : BitVec 3) (a : FVal) : FRes :=
  let one := 127 * 2 ^ (p - 1)
  match a with
  | .nan s => .nanRes p (if s then flNV else 0)
  | .inf n =>
    match op with
    | .rcp => ⟨fZero p n, 0, true⟩
    | .rsqrt => if n then .nanRes p flNV else ⟨fZero p false, 0, true⟩
    | .exp2 => if n then ⟨fZero p false, 0, true⟩ else ⟨fInf p false, 0, true⟩
    | .log2 => if n then .nanRes p flNV else ⟨fInf p false, 0, true⟩
    | .sigm => if n then ⟨fZero p false, 0, true⟩ else ⟨one, 0, true⟩
  | .num n m e =>
    if m = 0 then
      match op with
      | .rcp => ⟨fInf p n, flDZ, false⟩
      | .rsqrt => ⟨fInf p n, flDZ, false⟩
      | .exp2 => ⟨one, 0, true⟩
      | .log2 => ⟨fInf p true, flDZ, false⟩
      | .sigm => ⟨126 * 2 ^ (p - 1), 0, true⟩
    else if n && (op = .rsqrt || op = .log2) then .nanRes p flNV
    else transFin p op pick n m e

end Sys2Proof.Machine
end

