-- ==== Sys2Proof/Machine/Trust.lean ====
section
/-!
DEFINITION. Trust counts (05 R104 to R118): the floor of a value, the count every operation gives its result, and the
fields of SIGFLOOR (R133).
-/
namespace Sys2Proof.Machine

/-- An operand with its count `t` and the precision `p` of its own format. -/
structure TOp where
  val : FVal
  t : Nat
  p : Nat
  deriving DecidableEq, Repr

/-- f(x) of R108. -/
def TOp.floor (a : TOp) : Int := a.val.lead - a.t
/-- Whether the operand's count is the precision of its format. -/
def TOp.full (a : TOp) : Bool := a.p ≤ a.t

/-- R105: a count never exceeds p, and an infinity or a NaN carries 0. -/
def clampCount (p : Nat) (bits : Nat) (t : Nat) : Nat :=
  match fDec p bits with
  | .num _ _ _ => min t p
  | _ => 0

/-- The cases of R110 that come before every rule; `none` where the rule itself decides. -/
def specialCount (p : Nat) (r : FRes) (allFull : Bool) : Option Nat :=
  match fDec p r.bits with
  | .num _ m _ => if m = 0 then some (if r.exact && allFull then p else 0) else none
  | _ => some 0

/-- Add rule (R109) over the floors of the operands. -/
def cntAdd (p : Nat) (r : FRes) (ops : List TOp) : Nat :=
  let full := ops.all TOp.full
  match specialCount p r full with
  | some c => c
  | none =>
    if full && r.exact then p
    else
      match ops with
      | [] => p
      | a :: rest =>
        let f := rest.foldl (fun m x => max m x.floor) a.floor
        clampCnt p ((fDec p r.bits).lead - f)

/-- Multiply rule's count of a product (R109). -/
def mulCount (p : Nat) (ta tb : Nat) : Nat :=
  if ta = tb && ta < p then ta - 1 else min ta tb

/-- Multiply and divide rule (R109). -/
def cntMul (p : Nat) (r : FRes) (a b : TOp) : Nat :=
  match specialCount p r (a.full && b.full) with
  | some c => c
  | none => min p (mulCount p a.t b.t)

/-- The exact leading bit of an unrounded product; −126 for a zero (R108, R109). -/
def prodLead (a b : FVal) : Int :=
  match a, b with
  | .num _ m1 e1, .num _ m2 e2 => if m1 * m2 = 0 then -126 else (Nat.log2 (m1 * m2) : Int) + (e1 + e2)
  | _, _ => -126

/-- Fused multiply-add rule (R109): the product by the multiply rule, then the add rule. -/
def cntFma (p : Nat) (r : FRes) (a b c : TOp) : Nat :=
  match specialCount p r (a.full && b.full && c.full) with
  | some k => k
  | none =>
    if a.full && b.full && c.full && r.exact then p
    else clampCnt p ((fDec p r.bits).lead - max (prodLead a.val b.val - (mulCount p a.t b.t : Int)) c.floor)

/-- Square-root rule (R109). -/
def cntSqrt (p : Nat) (r : FRes) (a : TOp) : Nat :=
  match specialCount p r a.full with
  | some k => k
  | none => min p (a.t + 1)

/-- Conversion between float formats (R109): the count, at most the destination's precision. -/
def cntCvt (p : Nat) (r : FRes) (a : TOp) : Nat :=
  match specialCount p r a.full with
  | some k => k
  | none => min a.t p

/-- Transcendental counts (R113). -/
def cntTrans (p : Nat) (op : TransOp) (r : FRes) (a : TOp) : Nat :=
  match specialCount p r a.full with
  | some k => k
  | none =>
    let er := (fDec p r.bits).lead
    match op with
    | .rcp => min a.t (p - 2)
    | .rsqrt => min (a.t + 1) (p - 2)
    | .exp2 => if a.full then p - 2 else clampCnt (p - 2) (-a.floor - 1)
    | .log2 => if a.full then p - 2 else clampCnt (p - 2) (er + a.t - 1)
    | .sigm => if a.full then p - 2 else clampCnt (p - 2) (er - a.floor + 2)

/-- VFMIN and VFMAX (R177, R112): the chosen bits, the count that travels with it, the flags. -/
def fMinMax (p : Nat) (isMax : Bool) (xb : Nat) (tx : Nat) (yb : Nat) (ty : Nat) : Nat × Nat × Flags :=
  let x := fDec p xb
  let y := fDec p yb
  let fl := sigNV x y
  if x.isNan && y.isNan then (fQNaN p, 0, fl)
  else if x.isNan then (yb, clampCount p yb ty, fl)
  else if y.isNan then (xb, clampCount p xb tx, fl)
  else if fLt x y then (if isMax then (yb, ty, fl) else (xb, tx, fl))
  else if fLt y x then (if isMax then (xb, tx, fl) else (yb, ty, fl))
  else
    -- equal values: −0 counts as less than +0; the lower of the two counts
    let pick := if isMax then (if x.neg? then yb else xb) else (if x.neg? then xb else yb)
    (pick, min tx ty, fl)

/-- Fields of SIGFLOOR (R133). -/
def sfMode (x : BitVec 32) : Nat := bitsOf 16 2 x.toNat
def sfBFloor (x : BitVec 32) : Nat := bitsOf 8 4 x.toNat
def sfFloor (x : BitVec 32) : Nat := bitsOf 0 5 x.toNat
/-- The floor that applies to results of precision `p` (R134). -/
def sfFor (p : Nat) (x : BitVec 32) : Nat := if p = 24 then sfFloor x else sfBFloor x

end Sys2Proof.Machine
end

