-- ==== Sys2Proof/Machine/LaneBits.lean ====
section
/-!
DEFINITION. Rows as lists of lanes (04 R89 to R97, 05 R104 to R106) and the plane slots of PL rows (R93).
-/
namespace Sys2Proof.Machine

/-! ### Formats -/

/-- FMT and PW of a tag (R95). -/
def tagFmt (t : Byte) : Nat := t.toNat % 16
def tagPw (t : Byte) : Nat := t.toNat / 16
def tagInt (wid : Nat) : Byte := BitVec.ofNat 8 (1 + wid)
def tagRaw : Byte := 0
def tagI8 : Byte := 1
def tagI16 : Byte := 2
def tagI32 : Byte := 3
def tagBF16 : Byte := 5
def tagF32 : Byte := 6
def tagCB4 : Byte := 7
/-- The tag of a PL row of width `w` (R95). -/
def tagPL (w : Nat) : Byte := BitVec.ofNat 8 (8 + 16 * (w - 1))

/-- Element width in bits (R94); a byte for RAW and for the plane slots of PL. -/
def fmtBits (fmt : Nat) : Nat :=
  match fmt with
  | 2 => 16
  | 3 => 32
  | 4 => 64
  | 5 => 16
  | 6 => 32
  | 7 => 4
  | _ => 8
/-- Precision of a float format, 0 for the others (R105). -/
def fmtPrec (fmt : Nat) : Nat := if fmt = 5 then 8 else if fmt = 6 then 24 else 0
def laneCount (fmt : Nat) : Nat := 2048 / fmtBits fmt
/-- Mask bit that governs element `j` (R94). -/
def maskBit (fmt j : Nat) : Nat :=
  if fmt = 7 then j / 4 else if fmt = 8 then j % 128 else if fmtBits fmt = 8 then j / 2 else j
def laneOn (k : Mask) (fmt j : Nat) : Bool := k.getLsbD (maskBit fmt j)

/-! ### Lanes -/

/-- A lane: its bits, its count, the flags its production raised. -/
structure Lane where
  val : Nat
  cnt : Nat
  fl : Flags
  deriving DecidableEq, Repr

def Lane.zero (p : Nat) : Lane := ⟨0, p, 0⟩

/-- Count of lane `j` in a trust plane (R106). -/
def planeCnt (p : Nat) (t : TrustBits) (j : Nat) : Nat :=
  if p = 8 then min 8 (bitsOf (4 * j) 4 t.toNat) else if p = 24 then min 24 (bitsOf (8 * j) 8 t.toNat) else 0
/-- A trust plane from counts (R106). -/
def planeOf (p : Nat) (cnts : List Nat) : TrustBits :=
  if p = 8 then BitVec.ofNat 512 (packN 4 cnts) else if p = 24 then BitVec.ofNat 512 (packN 8 cnts) else 0

/-- The lanes of a row by its own tag. -/
def rowLanes (r : Row) : List Lane :=
  let fmt := tagFmt r.tag
  (List.range (laneCount fmt)).map fun j =>
    ⟨laneN (fmtBits fmt) j r.val.toNat, planeCnt (fmtPrec fmt) r.trust j, 0⟩
/-- A row of a tag from its lanes. -/
def rowOfLanes (tag : Byte) (l : List Lane) : Row :=
  let fmt := tagFmt tag
  ⟨BitVec.ofNat 2048 (packN (fmtBits fmt) (l.map Lane.val)), planeOf (fmtPrec fmt) (l.map Lane.cnt), tag⟩

/-! ### Plane slots (R93) -/

def planeW (c : Ctx) : Nat := bitsOf 0 5 c.crs.planew.toNat
def planeSgn (c : Ctx) : Bool := c.crs.planew.getLsbD 8
def planeGroups (w : Nat) : Nat := 16 / w
/-- The sixteen slots of 128 bits of a row. -/
def slotsOf (r : Row) : List Nat := lanesOf 128 16 r.val.toNat
/-- A PL row from its slots; slots from G × w upward are zero (R93). -/
def rowOfSlots (tag : Byte) (l : List Nat) : Row :=
  let w := tagPw tag + 1
  ⟨BitVec.ofNat 2048 (packN 128 (l.take (planeGroups w * w))), 0, tag⟩
/-- Element `j` of group `g` (R93). -/
def plElem (w : Nat) (slots : List Nat) (g j : Nat) : Nat :=
  (List.range w).foldl (fun a b => a + (bitsOf j 1 (slots.getD (g * w + b) 0)) * 2 ^ b) 0
/-- Slots of one group from its 128 elements. -/
def plSlots (w : Nat) (elems : List Nat) : List Nat :=
  (List.range w).map fun b => packN 1 (elems.map fun x => bitsOf b 1 x)
/-- A result of 256 bytes of any tag: float lanes carry count 0, a PL result has its unused slots zero. -/
def bitRow (tag : Byte) (v : RowBits) : Row :=
  if tagFmt tag = 8 then rowOfSlots tag (lanesOf 128 16 v.toNat) else ⟨v, 0, tag⟩

/-! ### Rows that come from memory (R93, R95, R105) -/

/-- A tag that some producer writes: FMT 0 to 8, and PW only beside PL (R95). -/
def tagOk (t : Byte) : Bool := tagFmt t ≤ 8 && (tagFmt t = 8 || tagPw t = 0)
/-- A row as it enters a holder from memory: counts clamped, none beside an infinity, a NaN or a tag without counts, and the
plane slots without elements zero. -/
def normRow (r : Row) : Row :=
  if fmtPrec (tagFmt r.tag) = 0 then bitRow r.tag r.val
  else rowOfLanes r.tag ((rowLanes r).map fun x => { x with cnt := clampCount (fmtPrec (tagFmt r.tag)) x.val x.cnt })

end Sys2Proof.Machine
end

