-- ==== Sys2Proof/Machine/AuditLog.lean ====
section
/-!
DEFINITION. The log of a mirror audit (19 R468, R469): what an audited group takes from outside its contexts, each datum at its
place, and how the contexts of the replay take it from there (log 26).
-/
namespace Sys2Proof.Machine

/-- The audit of a context's group while it runs, and the audit whose replay a context belongs to. -/
def auditOf (s : State) (cid : Nat) : Option Audit := s.audits.find? fun a => a.members.contains cid
def replayFor (s : State) (cid : Nat) : Option Audit := s.audits.find? fun a => a.twins.contains cid
def isReplay (s : State) (cid : Nat) : Bool := (replayFor s cid).isSome

def State.updAudit (s : State) (a : Nat) (f : Audit → Audit) : State :=
  { s with audits := s.audits.map fun x => if x.id = a then f x else x }

/-- An audit goes: its log slot is free, and the launch waits for it no more. -/
def dropAudit (s : State) (a : Audit) : State :=
  { s with
    audits := s.audits.filter fun x => x.id != a.id
    launches := s.launches.map fun l => if l.id = a.launch then { l with audits := l.audits - 1 } else l }

/-- Bytes of a datum. -/
def Datum.size : Datum → Nat
  | .entry (.row _) _ => 385
  | .entry (.scalar _) _ => 9
  | .old _ _ _ => 17
  | .answer a => if a.row.isSome then 400 else 16
  | .read _ => 8
  | .byte _ _ _ => 2

/-- Put a datum at its place. -/
def insertRec (x : AuditRec) : List AuditRec → List AuditRec
  | [] => [x]
  | y :: r => if x.key < y.key then x :: y :: r else y :: insertRec x r

/-- A datum enters the log, under 16 bytes that say its place; when the slot is full the audit is abandoned (R468). -/
def logDatum (s : State) (cid : Nat) (kind : DatumKind) (key : Nat) (val : Datum) : State :=
  match auditOf s cid with
  | none => s
  | some a =>
    let n := a.size + 16 + val.size
    if a.len < n then dropAudit s a
    else s.updAudit a.id fun x => { x with size := n, log := insertRec ⟨a.members.idxOf cid, kind, key, val⟩ x.log }

/-- The data that a context of the replay takes in an order. -/
def Audit.of (a : Audit) (cid : Nat) (kind : DatumKind) : List AuditRec :=
  a.log.filter fun r => r.member = a.twins.idxOf cid && r.kind = kind
/-- The datum at a place of such an order. -/
def Audit.at_ (a : Audit) (cid : Nat) (kind : DatumKind) (key : Nat) : Option Datum :=
  ((a.of cid kind).find? fun r => r.key = key).map AuditRec.val

/-- How many data of an order the context has taken. -/
def Audit.taken (a : Audit) (cid : Nat) (kind : DatumKind) : Nat :=
  ((a.used.find? fun u => u.1 = (cid, kind)).map Prod.snd).getD 0
/-- The next datum of an order. -/
def Audit.next (a : Audit) (cid : Nat) (kind : DatumKind) : Option Datum := ((a.of cid kind)[a.taken cid kind]?).map AuditRec.val
/-- It has been taken; one that the log does not hold is missing. -/
def Audit.take (a : Audit) (cid : Nat) (kind : DatumKind) : Audit :=
  { a with
    used := ((cid, kind), a.taken cid kind + 1) :: a.used.filter fun u => u.1 != (cid, kind)
    lack := a.lack || (a.next cid kind).isNone }
/-- The next datum of an order that a context of a replay takes, and the machine after it. -/
def takeDatum (s : State) (a : Audit) (cid : Nat) (kind : DatumKind) : State × Option Datum :=
  (s.updAudit a.id fun x => x.take cid kind, a.next cid kind)

/-- The context of the original that a context of the replay stands for. -/
def Audit.original (a : Audit) (cid : Nat) : Nat := a.members.getD (a.twins.idxOf cid) cid

end Sys2Proof.Machine
end

