-- ==== Sys2Proof/Machine/Memory.lean ====
section
/-!
DEFINITION. Memory as a list of cells in one canonical form, and what is kept beside it: poison per 32-byte sector
(18 R444), the key a sector was written under (R442), and the record of writes that bounds what a read may return
(12 R320). An address that nothing lists reads as zero (log 2).
-/
namespace Sys2Proof.Machine

/-- What an unlisted address reads as (log 2). -/
def memDefault : Byte := 0

/-- The byte at an address. -/
def memByte (m : List Host.Cell) (a : Nat) : Byte :=
  match m with
  | [] => memDefault
  | (x, b) :: r => if x = a then b else memByte r a

/-- `n` bytes from address `a`. -/
def memRead (m : List Host.Cell) (a n : Nat) : List Byte := (List.range n).map fun i => memByte m (a + i)

/-- Cells strictly rising from `lo`, none equal to what an unlisted address reads as. -/
def wfFrom (lo : Nat) : List Host.Cell → Bool
  | [] => true
  | (a, b) :: r => lo ≤ a && b != memDefault && wfFrom (a + 1) r

/-- The canonical form of a memory. -/
def Memory.wf (m : List Host.Cell) : Bool := wfFrom 0 m

/-- The cells of a run of bytes from address `a`, without those equal to the default. -/
def runCells (a : Nat) : List Byte → List Host.Cell
  | [] => []
  | b :: bs => if b = memDefault then runCells (a + 1) bs else (a, b) :: runCells (a + 1) bs

/-- Write a run of bytes at address `a`. -/
def memWrite (m : List Host.Cell) (a : Nat) (bs : List Byte) : List Host.Cell :=
  m.filter (fun c => c.1 < a) ++ runCells a bs ++ m.filter (fun c => a + bs.length ≤ c.1)

/-- The bytes to write where a mask may leave some as they are. -/
def maskBytes (old new : List Byte) (mask : List Bool) : List Byte :=
  match old, new, mask with
  | o :: os, n :: ns, k :: ks => (if k then n else o) :: maskBytes os ns ks
  | _, _, _ => []

/-- Write the bytes of `new` at `a` where the mask is true. -/
def memWriteMask (m : List Host.Cell) (a : Nat) (new : List Byte) (mask : List Bool) : List Host.Cell :=
  memWrite m a (maskBytes (memRead m a new.length) new mask)

/-! ### Physical reads and writes -/

/-- The sectors that `n` bytes from `pa` touch. -/
def sectorsOf (pa n : Nat) : List Nat :=
  if n = 0 then [] else (List.range ((pa + n - 1) / 32 - pa / 32 + 1)).map (· + pa / 32)

/-- Whether the sector of address `a` was last written under another key than `key` (R442). -/
def otherKey (s : State) (key : Option Nat) (a : Nat) : Bool := look (a / 32) s.skey != key

/-- A remote window address to which no port is up, or which the peer does not export: loads return poison, stores are discarded (20 R485,
R486). -/
def cutOff (s : State) (pa : Nat) : Bool :=
  pa / 2 ^ 48 = 2 && !((s.dev.ports.toList.any fun p => (p.st = .up || p.st = .degraded) && p.peer = some (pa / 2 ^ 39 % 512))
    && Config.peerExports (pa / 2 ^ 39 % 512) (pa % 2 ^ 39))

/-- Bytes at `pa` as read under `key`: bytes written under another key, bytes of a poisoned sector and bytes no port reaches
come back as unspecified data (R442, R209, R444, R486). -/
def physRead (s : State) (pa n : Nat) (key : Option Nat) : List Byte :=
  (List.range n).map fun i =>
    if otherKey s key (pa + i) || s.poison.contains ((pa + i) / 32) || cutOff s (pa + i) then Config.freeByte s.fresh i else memByte s.mem (pa + i)

/-- Whether any sector of the run is poisoned, or beyond reach (R444, R486). -/
def physPoison (s : State) (pa n : Nat) : Bool := (sectorsOf pa n).any fun x => s.poison.contains x || cutOff s (32 * x)

/-- Which bytes of sector `x` a masked write at `pa` covers: all of them. -/
def coversSector (pa : Nat) (mask : List Bool) (x : Nat) : Bool :=
  (List.range 32).all fun i => pa ≤ 32 * x + i && mask.getD (32 * x + i - pa) false

def touchesSector (pa : Nat) (mask : List Bool) (x : Nat) : Bool :=
  (List.range 32).any fun i => pa ≤ 32 * x + i && mask.getD (32 * x + i - pa) false

/-- The key under which the touched sectors are written from now on. -/
def setKeys (pa n : Nat) (mask : List Bool) (key : Option Nat) (sk : List (Nat × Nat)) : List (Nat × Nat) :=
  (sectorsOf pa n).foldl (fun l x =>
    if touchesSector pa mask x then (match key with | some k => put x k (drp x l) | none => drp x l) else l) sk

/-- The touched sectors that were last written under another key: a partial write to one leaves its other bytes
unspecified, since they are decrypted and encrypted again under the new key (R442). -/
def rekeyed (s : State) (pa n : Nat) (mask : List Bool) (key : Option Nat) : List Nat :=
  (sectorsOf pa n).filter fun x =>
    touchesSector pa mask x && look x s.skey != key && !coversSector pa mask x

/-- Write masked bytes at `pa` under `key` (R442, R444). `poisons` says that the value written is itself poisoned. -/
def physWrite (s : State) (pa : Nat) (bytes : List Byte) (mask : List Bool) (key : Option Nat) (poisons : Bool) : State :=
  let n := bytes.length
  let scr := rekeyed s pa n mask key
  let m0 := scr.foldl (fun m x => memWrite m (32 * x) ((List.range 32).map fun i => Config.freeByte s.fresh (32 * x + i))) s.mem
  let cleared := (sectorsOf pa n).filter fun x => coversSector pa mask x
  let kept := s.poison.filter fun x => !(cleared.contains x)
  if cutOff s pa then s else { s with
    mem := memWriteMask m0 pa bytes mask
    poison := if poisons then (sectorsOf pa n).foldl (fun l x => if touchesSector pa mask x && !(l.contains x) then x :: l else l) kept else kept
    skey := setKeys pa n mask key s.skey
    fresh := s.fresh + 1 }

/-! ### Pieces and the record of writes (R207, R208, R320) -/

/-- The pieces of `n` bytes from `pa`, cut at 16-byte boundaries: first byte and length of each (R207). -/
def piecesFrom : Nat → Nat → Nat → List (Nat × Nat)
  | 0, _, _ => []
  | f + 1, pa, n =>
    if n = 0 then [] else
      let k := min n (16 - pa % 16)
      (pa, k) :: piecesFrom f (pa + k) (n - k)
def piecesOf (pa n : Nat) : List (Nat × Nat) := piecesFrom (n / 16 + 2) pa n

/-- The bytes, of a block of `n`, that a masked write at `pa` touches. -/
def maskIn (n pa : Nat) (mask : List Bool) : Nat :=
  (List.range mask.length).foldl (fun m i => if mask.getD i false then m ||| 2 ^ ((pa + i) % n) else m) 0

/-- A piece of write `w` reaches a sector: where it is poisoned, the write clears the poison once it has replaced every byte of it,
in whichever pieces (R444). A write that is itself poisoned leaves the sector so. -/
def coverPiece (s : State) (w pa : Nat) (mask : List Bool) (poisons : Bool) : State :=
  let x := pa / 32
  if poisons || !s.poison.contains x then { s with pcover := drp x s.pcover }
  else
    let old : BitVec 32 := match look x s.pcover with
      | some (k, m) => if k = w then m else 0
      | none => 0
    let m := old ||| BitVec.ofNat 32 (maskIn 32 pa mask)
    if m = BitVec.allOnes 32 then { s with poison := s.poison.filter fun y => y != x, pcover := drp x s.pcover }
    else { s with pcover := put x (w, m) s.pcover }

/-- Write one piece and record it in the total order (R208), with what a read may still return of the piece before it; `w` names
the write whose pieces together may replace a sector (R444). -/
def pieceWriteOf (s : State) (w id agent vf pa : Nat) (bytes : List Byte) (mask : List Bool) (key : Option Nat) (poisons : Bool) :
    State :=
  let s1 := physWrite s pa bytes mask key poisons
  let before := if physPoison s (16 * (pa / 16)) 16 then none else some (memRead s.mem (16 * (pa / 16)) 16)
  coverPiece { s1 with
    hist := ⟨id, agent, vf, pa / 16, BitVec.ofNat 16 (maskIn 16 pa mask), look (pa / 32) s.skey, before⟩ :: s.hist } w pa mask poisons
def pieceWrite (s : State) (id agent vf pa : Nat) (bytes : List Byte) (mask : List Bool) (key : Option Nat) (poisons : Bool) : State :=
  pieceWriteOf s id id agent vf pa bytes mask key poisons

/-- The scratchpad of a tile: byte `off` of tile `t` (R16). -/
def spadKey (t off : Nat) : Nat := t * 2 ^ 23 + off
/-- Where byte `a` of the allocation of `n` banks from `bank` lies in its tile's scratchpad: bank after bank, the lines of
each in their order (R197, R198). -/
def physOff (bank n a : Nat) : Nat :=
  let b := a % (n * 2 ^ 18)
  (bank + b / 128 % n) * 2 ^ 18 + b / 128 / n * 128 + b % 128

/-! ### Copies into a scratchpad in the order of its writes (R208, R320) -/

/-- The number of the piece that a scratchpad byte lies in; those of memory lie below 2^60. -/
def spadPiece (k : Nat) : Nat := 2 ^ 60 + k / 16
/-- An engine writes bytes of a scratchpad: every piece of it is recorded with what a read may still return of the piece before it. -/
def spadCopy (s : State) (id agent vf : Nat) (l : List (Nat × Byte)) : State :=
  let ps := (l.map fun b => b.1 / 16).eraseDups
  let mask (p : Nat) : BitVec 16 := BitVec.ofNat 16 (l.foldl (fun m b => if b.1 / 16 = p then m ||| 2 ^ (b.1 % 16) else m) 0)
  { s with
    spad := l.foldl (fun m b => memWrite m b.1 [b.2]) s.spad
    hist := (ps.map fun p => ⟨id, agent, vf, spadPiece (16 * p), mask p, none, some (memRead s.spad (16 * p) 16)⟩) ++ s.hist }
/-- Writes that every load of the tile observes from its next cycle on (R199), or that every access of a bank's new owner does (15 R376):
nothing earlier may be returned of the pieces. -/
def settlePieces (s : State) (p : Nat → Bool) : State := { s with hist := s.hist.filter fun w => !(2 ^ 60 ≤ w.piece && p (w.piece - 2 ^ 60)) }
/-- Those that hold some bytes. -/
def settleSpad (s : State) (ks : List Nat) : State := settlePieces s fun p => ks.any fun k => k / 16 = p

end Sys2Proof.Machine
end

