-- ==== Sys2Proof/Machine/Access.lean ====
section
/-!
DEFINITION. Translation (18 R429 to R442): range entries, the page table and its cache, permissions, the physical
window, keys; and the access to contexts, tiles and functions by number.
-/
namespace Sys2Proof.Machine

/-! ### Contexts, tiles and functions by number -/

/-- The hardware context a context number stands on: tile × 16 + core × 4 + context. Bindings of one hardware context
that follow one another differ by multiples of 4,096. -/
def hwOf (cid : Nat) : Nat := cid % 4096
def tileOf (cid : Nat) : Nat := hwOf cid / 16
def coreOf (cid : Nat) : Nat := cid / 4 % 4
def ctxNo (cid : Nat) : Nat := cid % 4

/-- A tile id that names a tile (R15), and whether its site is enabled (R17). -/
def tileIdOk (t : Nat) : Bool := t < 128 && t % 16 < 13
def siteEnabled (s : State) (t : Nat) : Bool := tileIdOk t && (s.dev.tdmap.toList.getD (t / 16) 0).getLsbD (t % 16)

def State.tile (s : State) (t : Nat) : Tile :=
  match s.tiles.find? (fun x => x.tid = t) with
  | some x => x
  | none => Tile.reset t

def setTileIn (t : Tile) : List Tile → List Tile
  | [] => [t]
  | x :: r => if x.tid = t.tid then t :: r else x :: setTileIn t r
def State.setTile (s : State) (t : Tile) : State := { s with tiles := setTileIn t s.tiles }

/-- The context of that number (a free one where none exists). -/
def State.ctx (s : State) (c : Nat) : Ctx :=
  if s.cur.cid = c then s.cur
  else match s.others.find? (fun x => x.cid = c) with
    | some x => x
    | none => Ctx.fresh c

def setCtxIn (x : Ctx) : List Ctx → List Ctx
  | [] => [x]
  | y :: r => if y.cid = x.cid then x :: r else y :: setCtxIn x r
def State.setCtx (s : State) (x : Ctx) : State :=
  if s.cur.cid = x.cid then { s with cur := x } else { s with others := setCtxIn x s.others }
/-- Change a context that exists. -/
def State.updCtx (s : State) (c : Nat) (f : Ctx → Ctx) : State :=
  if s.cur.cid = c || s.others.any fun x => x.cid = c then s.setCtx (f (s.ctx c)) else s
def State.updCur (s : State) (f : Ctx → Ctx) : State := { s with cur := f s.cur }

/-- Bring a context into focus. -/
def State.focus (s : State) (c : Nat) : State :=
  if s.cur.cid = c then s
  else { s with cur := s.ctx c, others := setCtxIn s.cur (s.others.filter fun x => x.cid != c) }

/-- Every context that exists. -/
def State.allCtx (s : State) : List Ctx := s.cur :: s.others

def State.fn (s : State) (f : Nat) : Fn := (look f s.fns).getD (Fn.reset f)
def State.setFn (s : State) (f : Nat) (x : Fn) : State := { s with fns := put f x s.fns }

/-! ### Range entries and the page table -/

/-- Fields of a range entry (R431). -/
def reBase (e : BitVec 256) : Nat := bitsOf 32 44 e.toNat
def reLimit (e : BitVec 256) : Nat := bitsOf 80 44 e.toNat
def rePPN (e : BitVec 256) : Nat := bitsOf 128 40 e.toNat
def reKey (e : BitVec 256) : Nat := bitsOf 168 13 e.toNat
def reEnc (e : BitVec 256) : Bool := e.getLsbD 181
def reTag (e : BitVec 256) : Word := e.extractLsb' 192 64
def reV (e : BitVec 256) : Bool := e.getLsbD 7

/-- Fields of a tag word (R119). -/
def twMode (t : Word) : Nat := bitsOf 62 2 t.toNat
def twWid (t : Word) : Nat := bitsOf 61 1 t.toNat
def twFix (t : Word) : Nat := bitsOf 56 5 t.toNat
def twBase (t : Word) : Nat := bitsOf 0 56 t.toNat
/-- Whether a tag word breaks R119. -/
def twBad (t : Word) : Bool :=
  twMode t = 3 || (twWid t != 0 && twMode t != 2) || (twFix t != 0 && twMode t != 1) || 24 < twFix t
    || (twBase t != 0 && twMode t != 2)

/-- Whether a valid entry is malformed (R432). -/
def reBad (e : BitVec 256) : Bool :=
  reLimit e < reBase e || 2 ^ 40 < rePPN e + (reLimit e - reBase e + 1) || (!reEnc e && reKey e != 0) || twBad (reTag e)

/-- The lowest-numbered valid entry covering the page (R430, R432). -/
def coverOf (page : Nat) : List (Nat × BitVec 256) → Option (Nat × BitVec 256)
  | [] => none
  | (n, e) :: r =>
    let rest := coverOf page r
    if reV e && reBase e ≤ page && page ≤ reLimit e then
      match rest with
      | some (k, f) => if k < n then some (k, f) else some (n, e)
      | none => some (n, e)
    else rest

/-- The access kinds of R438. -/
inductive Need where
  | r | w | rw | x
  deriving DecidableEq, Repr

def Need.writes : Need → Bool
  | .w => true
  | .rw => true
  | _ => false

/-- Whether R, W, X bits allow an access (R438). -/
def permits (n : Need) (r w x : Bool) : Bool :=
  match n with
  | .r => r
  | .w => w
  | .rw => r && w
  | .x => x

/-- A finished translation: physical address, key material (none: plaintext), tag word, the entry's base for R122. -/
structure Tr where
  pa : Nat
  key : Option Nat
  tagw : Word
  base : Nat
  deriving DecidableEq, Repr

/-- What translation answers: an address, a fault with SUB of R439, or a miss that needs a walk of this page. -/
inductive TrRes where
  | ok (t : Tr)
  | fault (sub : Nat)
  | miss (page : Nat)
  deriving DecidableEq, Repr

/-- Region of a physical address (R429). -/
def paRegion (pa : Nat) : Nat := pa / 2 ^ 48

/-- Whether `pa` lies in the function's physical window (R429, R476). -/
def inWindow (pwin : Word) (pa : Nat) : Bool :=
  match paRegion pa with
  | 0 =>
    let gib := pa / 2 ^ 30
    pwin.getLsbD 31 && bitsOf 0 9 pwin.toNat ≤ gib && gib ≤ bitsOf 9 9 pwin.toNat
  | 1 => pwin.getLsbD 32
  | 2 => pwin.getLsbD 30
  | _ => false

/-- A remote window address that names no peer: an id from 320, or the device's own (20 R485). -/
def noPeer (s : State) (pa : Nat) : Bool :=
  paRegion pa = 2 && (320 ≤ pa / 2 ^ 39 % 512 || pa / 2 ^ 39 % 512 = s.dev.devid)

/-- The key check of R442: the material when the function may use the id at this address. -/
def keyCheck (s : State) (vf : Nat) (enc : Bool) (k pa : Nat) : Option (Option Nat) :=
  if !enc then some none
  else if paRegion pa != 0 then none
  else match look k s.keys with
    | some ks => if ks.own = vf && ks.kst = 1 then some (some ks.key) else none
    | none => none

/-- Step 3 of R430: the address against the window, then the permission, then the key. -/
def finishTr (s : State) (vf : Nat) (need : Need) (pa : Nat) (r w x enc : Bool) (key : Nat) (tagw : Word) (base : Nat) : TrRes :=
  if !inWindow (s.fn vf).pwin pa || noPeer s pa then .fault 8
  else if !permits need r w x then .fault 4
  else match keyCheck s vf enc key pa with
    | some k => .ok ⟨pa, k, tagw, base⟩
    | none => .fault 5

/-- Leaf of a page table entry at a level: the address of `ea`. -/
def leafPa (level : Nat) (e : Word) (ea : Nat) : Nat :=
  (bitsOf 0 40 e.toNat) * 4096 + ea % 2 ^ (12 + 9 * level)

/-- A cached leaf applied to an access (R434, R438, R441). -/
def useLeaf (s : State) (vf : Nat) (need : Need) (ea level : Nat) (e : Word) : TrRes :=
  let st := bitsOf 61 2 e.toNat
  if st = 0 then .fault 3
  else if st = 3 || (st = 2 && need.writes) then .fault 6
  else finishTr s vf need (leafPa level e ea) (e.getLsbD 56) (e.getLsbD 57) (e.getLsbD 58) (e.getLsbD 53)
    (bitsOf 40 13 e.toNat) 0 0

/-- The cached leaf covering a page. -/
def tlbFind (vf page : Nat) (l : List TlbEntry) : Option TlbEntry :=
  l.find? fun t => t.vf = vf && t.page = page / 2 ^ (9 * t.level)

/-- Translate `ea` for an access of an agent (R430). -/
def translate (s : State) (agent vf : Nat) (need : Need) (ea : Word) : TrRes :=
  if bitsOf 56 8 ea.toNat != 0 then .fault 1
  else
    let a := ea.toNat
    let page := a / 4096
    match coverOf page (s.fn vf).ranges with
    | some (_, e) =>
      if reBad e then .fault 7
      else finishTr s vf need (rePPN e * 4096 + (a - reBase e * 4096)) (e.getLsbD 1) (e.getLsbD 2) (e.getLsbD 3)
        (reEnc e) (reKey e) (reTag e) (reBase e * 4096)
    | none =>
      if !(s.fn vf).ptroot.getLsbD 63 then .fault 2
      else match tlbFind vf page s.tlb with
        | some t => useLeaf s vf need a t.level t.entry
        | none =>
          match s.walkFaults.find? (fun w => w.agent = agent && w.vf = vf && w.page = page) with
          | some w => .fault w.sub
          | none => .miss page

/-- Start a walk for a page, or join the one in progress (R437). -/
def startWalk (s : State) (agent vf page die : Nat) : State :=
  if s.walks.any (fun w => w.vf = vf && w.page = page) then
    { s with walks := s.walks.map fun w =>
        if w.vf = vf && w.page = page && !(w.waiters.contains agent) then { w with waiters := w.waiters ++ [agent] } else w }
  else
    let busy := (s.walks.filter fun w => w.die = die && w.started).length
    { s with walks := s.walks ++ [⟨s.uid, vf, page, die, busy < 384, [agent]⟩], uid := s.uid + 1 }

/-- Waiting walks start, the oldest first, where their die has fewer than 384 of them under way: `run` names the dies of those that are
(R437). -/
def startFree (run : List Nat) : List Walk → List Walk
  | [] => []
  | w :: r =>
    if w.started || 384 ≤ run.count w.die then w :: startFree run r else { w with started := true } :: startFree (w.die :: run) r

/-- Forget the faults of walks that an agent waited for. -/
def dropWalkFaults (s : State) (agent : Nat) : State :=
  { s with walkFaults := s.walkFaults.filter fun w => w.agent != agent }

/-- An agent waits for no walk any more: the device keeps no fault for whoever comes after it (R437). -/
def dropWaits (s : State) (agent : Nat) : State :=
  { dropWalkFaults s agent with walks := s.walks.map fun w => { w with waiters := w.waiters.filter fun a => a != agent } }

/-- Table pointer entries: the zero rules of R434 (a pointer has ST 1, and no X, W, R, ENC, KEY, C64). -/
def pointerBad (e : Word) : Bool :=
  bitsOf 61 2 e.toNat != 1 || e.getLsbD 59 || bitsOf 53 6 e.toNat != 0 || bitsOf 40 13 e.toNat != 0

/-- Leaves: reserved bits, C64 only at level 0, alignment of PFN, ENC 0 with a key (R434, R435). -/
def leafBad (level : Nat) (e : Word) : Bool :=
  bitsOf 54 2 e.toNat != 0 || (e.getLsbD 59 && level != 0) || level = 3
    || (level = 2 && bitsOf 0 18 e.toNat != 0) || (level = 1 && bitsOf 0 9 e.toNat != 0)
    || (!e.getLsbD 53 && bitsOf 40 13 e.toNat != 0)

/-- Why a table entry at a physical address must not be read: it lies outside the function's window or names no peer (SUB 8), or it is
to be read with a key outside HBM (SUB 5). DEDUCED: R429 and R442 hold for the tables of every level as for any address the function
reaches (log 90). -/
def tableBar (s : State) (vf : Nat) (enc : Bool) (at_ : Nat) : Option Nat :=
  if !inWindow (s.fn vf).pwin at_ || noPeer s at_ then some 8
  else if enc && paRegion at_ != 0 then some 5
  else none
/-- A table entry as a walk reads it (R436), or SUB. -/
def tableEntry (s : State) (vf : Nat) (key : Option Nat) (enc : Bool) (at_ : Nat) : Except Nat Word :=
  match tableBar s vf enc at_ with
  | some k => .error k
  | none => if physPoison s at_ 8 then .error 9 else .ok (BitVec.ofNat 64 (leNat (physRead s at_ 8 key)))

/-- What a leaf entry of a level gives: itself, or SUB (R434, R435). -/
def leafOf (level : Nat) (e : Word) : Except Nat (Nat × Word) :=
  if !e.getLsbD 63 then .error 2 else if !e.getLsbD 60 || leafBad level e then .error 7 else .ok (level, e)
/-- A level-0 entry for `ea`: where it and the first leaf of its 64 KiB group disagree, and one of them is a leaf of such a group, the
access translates by either, which is a free choice (R435). -/
def groupLeaf (s : State) (vf : Nat) (key : Option Nat) (enc : Bool) (ea at_ : Nat) (e : Word) : Except Nat (Nat × Word) :=
  let k := bitsOf 12 4 ea
  match tableEntry s vf key enc (at_ - 8 * k) with
  | .error _ => leafOf 0 e
  | .ok f =>
    let c64 (x : Word) : Bool := x.getLsbD 63 && x.getLsbD 60 && x.getLsbD 59
    let g : Word := f + BitVec.ofNat 64 k
    if (c64 e || c64 f) && g != e && Config.freeNat (s.fresh * 2 ^ 44 + ea / 4096) % 2 = 1 then leafOf 0 g else leafOf 0 e

/-- The walk from a table at `pa` of `level` (R435, R436): a leaf with its level, or SUB. -/
def walkFrom (s : State) (vf : Nat) (key : Option Nat) (enc : Bool) (ea : Nat) : Nat → Nat → Nat → Except Nat (Nat × Word)
  | 0, _, _ => .error 7
  | f + 1, level, pa =>
    let idx := if level = 3 then bitsOf 39 17 ea else bitsOf (12 + 9 * level) 9 ea
    let at_ := pa + 8 * idx
    match tableEntry s vf key enc at_ with
    | .error k => .error k
    | .ok e =>
      if level = 0 then groupLeaf s vf key enc ea at_ e
      else if !e.getLsbD 63 then .error 2
      else if e.getLsbD 60 then leafOf level e
      else if pointerBad e || bitsOf 54 2 e.toNat != 0 then .error 7
      else walkFrom s vf key enc ea f (level - 1) (bitsOf 0 40 e.toNat * 4096)

/-- A whole walk under PTROOT (R433, R436). -/
def walkPage (s : State) (vf page : Nat) : Except Nat (Nat × Word) :=
  let r := (s.fn vf).ptroot
  let base := bitsOf 0 49 r.toNat * 8
  if !r.getLsbD 63 then .error 2
  else if bitsOf 0 17 r.toNat != 0 then .error 7
  else match tableBar s vf (r.getLsbD 62) (base + 8 * bitsOf 27 17 page), keyCheck s vf (r.getLsbD 62) (bitsOf 49 13 r.toNat) base with
    | some k, _ => .error k
    | none, none => .error 5
    | none, some k => walkFrom s vf k (r.getLsbD 62) (page * 4096) 4 3 base

end Sys2Proof.Machine
end

