-- ==== Sys2Proof/Machine/Legal.lean ====
section
/-!
DEFINITION. Which operand fields make an operation legal (02 R32 to R36, and the decode rules of each instruction's own
chapter), one rule per instruction; and the rules that concern a whole bundle (R31, R51, R156, R342).
-/
namespace Sys2Proof.Machine

/-! ### Selectors (R35, R36, R516, R212) -/

def selScalar (x : BitVec 10) : Bool := 352 ≤ x.toNat && x.toNat ≤ 383
def selLatch (x : BitVec 10) : Bool := 329 ≤ x.toNat && x.toNat ≤ 340
def selSLatch (x : BitVec 10) : Bool := 329 ≤ x.toNat && x.toNat ≤ 331
/-- Any source selector (R35). -/
def selAny (x : BitVec 10) : Bool := x.toNat ≤ 340 || selScalar x
/-- A scalar selector or a ~S latch: never a row (R516). -/
def selNoRow (x : BitVec 10) : Bool := selScalar x || selSLatch x
/-- A position that takes only a row (R516). -/
def selRow (x : BitVec 10) : Bool := x.toNat ≤ 340 && !selSLatch x
/-- A position of the V format that takes only a scalar source (R191). -/
def selVScalar (x : BitVec 10) : Bool := selScalar x || selLatch x
/-- A scalar source of slot W: also an LDQ scalar entry (R212). -/
def selWScalar (x : BitVec 10) : Bool := selVScalar x || x.toNat = 328

/-! ### Slot S (06) -/

/-- Unused fields of an SR operation are zero; the ext bits it uses are `m`, QSEL included when `q` lists the source
positions it reads (R139). -/
def srUse (f : SRF) (sd : Bool) (q : List Nat) (pd pa pb : Bool) (m : Nat) : Bool :=
  let qs := bitsOf 17 2 f.ext.toNat
  (sd || f.sd = 0) && (q.contains 1 || f.sa = 0) && (q.contains 2 || f.sb = 0) && (q.contains 3 || f.sc = 0)
    && (pd || f.pd = 0) && (pa || f.pa = 0) && (pb || f.pb = 0)
    && (f.ext.toNat % 2 ^ 17) &&& m = f.ext.toNat % 2 ^ 17
    && (qs = 0 || (q.contains qs && (if qs = 1 then f.sa else if qs = 2 then f.sb else f.sc) = 0))

def legBin (f : SRF) : Bool := srUse f true [1, 2] false false false 0
def legUn (f : SRF) : Bool := srUse f true [1] false false false 0
/-- ADD, SUB, MUL: TY and SAT (R142). -/
def legTy (f : SRF) : Bool := srUse f true [1, 2] false false false 0xF && f.ext.toNat % 8 ≤ 3
/-- Shifts (R145). -/
def legShift (f : SRF) : Bool :=
  if f.ext.getLsbD 6 then srUse f true [1] false false false 0x7F else legBin f
/-- SEL (R146). -/
def legSel (f : SRF) : Bool := srUse f true [1, 2] false true false 1
/-- LEA (R147). -/
def legLea (f : SRF) : Bool :=
  if f.ext.getLsbD 16 then srUse f true [1] false false false 0x11FFF else srUse f true [1, 2] false false false 0xFFFF
def legCmp (f : SRF) : Bool := srUse f false [1, 2] true false false 0xF && f.ext.toNat % 16 ≤ 9
def legSfcmp (f : SRF) : Bool := srUse f false [1, 2] true false false 0xF && f.ext.toNat % 16 ≤ 7
def legP2 (f : SRF) : Bool := srUse f false [] true true true 3
def legP1 (f : SRF) : Bool := srUse f false [] true true false 0
def legF2 (f : SRF) : Bool := srUse f true [1, 2] false false false 3
def legF3 (f : SRF) : Bool := srUse f true [1, 2, 3] false false false 3
def legF1 (f : SRF) : Bool := srUse f true [1] false false false 3
def legCvt (f : SRF) : Bool := srUse f true [1] false false false 0xF
def legBri (f : SRF) : Bool := srUse f false [1, 2] false false false 0
def legRet (f : SRF) : Bool := srUse f false [1] false false false 0

/-- Control register numbers the map assigns (R163, R337). -/
def crAssigned (n : Nat) : Bool :=
  n ≤ 3 || n = 8 || n = 9 || (0x10 ≤ n && n ≤ 0x14) || (0x20 ≤ n && n ≤ 0x27) || n = 0x30 || n = 0x31
    || (0x40 ≤ n && n ≤ 0x48) || (0x50 ≤ n && n ≤ 0x57)
def legCread (f : SRF) : Bool := srUse f true [] false false false 0xFFF && crAssigned (f.ext.toNat % 4096)
def legCwrite (f : SRF) : Bool := srUse f false [1] false false false 0xFFF && crAssigned (f.ext.toNat % 4096)

def legMovi (f : SIF) : Bool := f.sa = 0
def legMovhi (f : SIF) : Bool := bitsOf 26 12 f.imm.toNat = 0
def sbUse (f : SBF) (sa sb pa sense : Bool) : Bool :=
  (sa || f.sa = 0) && (sb || f.sb = 0) && (pa || f.pa = 0) && (if sense then f.ext.toNat ≤ 1 else f.ext = 0)
def legBrsig (f : SBF) : Bool := sbUse f true true false false && f.sb.toNat ≤ 25

/-! ### Slots A and B (07) -/

/-- Destination of a row operation whose k is a write mask (R36, R169). -/
def vDst (f : VF) : Bool := f.dst.toNat < 320 && (!f.t || (f.dst = 0 && f.k = 0))
/-- Destination of a row operation whose k is no write mask (R169, R175, R187, R189). -/
def vDstNoMask (f : VF) : Bool := f.dst.toNat < 320 && (!f.t || f.dst = 0)
def vDstK (f : VF) : Bool := f.dst.toNat < 8 && !f.t
def vDstS (f : VF) : Bool := f.dst.toNat < 32 && !f.t
def modN (f : VF) : Nat := f.mod.toNat

def legV2 (f : VF) : Bool := vDst f && selAny f.a && selAny f.b && f.c = 0
def legV1 (f : VF) : Bool := vDst f && selAny f.a && f.b = 0 && f.c = 0
def legV3 (f : VF) : Bool := vDst f && selAny f.a && selAny f.b && selAny f.c
def legVInt2 (f : VF) : Bool := legV2 f
def legVMad (f : VF) : Bool := legV3 f
def legVNoSat (f : VF) : Bool := legV2 f && modN f < 8
def legVShift (f : VF) : Bool := legV2 f && modN f < 4
def legVPopc (f : VF) : Bool := legV1 f && modN f < 4
def legVBit2 (f : VF) : Bool := legV2 f && modN f = 0 && !(selNoRow f.a && selNoRow f.b)
def legVNot (f : VF) : Bool := legV1 f && modN f = 0 && !selNoRow f.a
def legVCmp (f : VF) : Bool := vDstK f && selAny f.a && selAny f.b && f.c.toNat ≤ 9 && modN f < 4
def legVSel (f : VF) : Bool :=
  vDstNoMask f && selAny f.a && selAny f.b && f.c = 0 && modN f = 0 && !(selNoRow f.a && selNoRow f.b)
def legVF2 (f : VF) : Bool := legV2 f && modN f < 8
def legVF3 (f : VF) : Bool := legV3 f && modN f < 8
def legVFMin (f : VF) : Bool := legV2 f && (modN f = 0 || modN f = 4)
def legVFAbs (f : VF) : Bool := legV1 f && (modN f = 0 || modN f = 4)
def legVFCmp (f : VF) : Bool :=
  vDstK f && selAny f.a && selAny f.b && f.c.toNat ≤ 7 && (modN f = 0 || modN f = 4)
def legVTrans (f : VF) : Bool := legV1 f && (modN f = 0 || modN f = 4)
/-- VCVT (R181): DFMT 1 to 6, no DSGN and no SAT to a float. -/
def legVCvt (f : VF) : Bool :=
  let d := f.c.toNat % 16
  vDst f && selRow f.a && f.b = 0 && modN f < 4 && 1 ≤ d && d ≤ 6
    && !((d = 5 || d = 6) && (f.c.getLsbD 4 || f.c.getLsbD 6))
def legVCb (f : VF) : Bool :=
  vDst f && selRow f.a && f.b = 0 && modN f = 0 && f.c.toNat % 128 = 0 && f.c.toNat / 128 ≤ 3
def legVPlane (f : VF) : Bool := vDst f && selRow f.a && f.b = 0 && modN f % 8 = 0 && f.c.toNat < 32
def legVUnplane (f : VF) : Bool :=
  vDst f && selRow f.a && f.b = 0 && modN f < 2 && f.c.toNat < 32 && !(f.c.getLsbD 4 && modN f = 0)
def legVPadd (f : VF) : Bool := vDst f && selRow f.a && selRow f.b && f.c = 0 && modN f % 8 = 0
def legVPand (f : VF) : Bool := legVPadd f && modN f = 0
def legVPcnt (f : VF) : Bool := vDstNoMask f && selRow f.a && f.b = 0 && f.c = 0 && modN f = 0
def vRedDst (f : VF) : Bool := if f.mod.getLsbD 3 then vDstS f else vDstNoMask f
def legVRsum (f : VF) : Bool := vRedDst f && selRow f.a && f.b = 0 && f.c = 0
def legVRmax (f : VF) : Bool := legVRsum f && modN f % 4 = 0
def legVRsigmin (f : VF) : Bool := legVRsum f && modN f % 8 = 0
def legVBcast (f : VF) : Bool := vDst f && selRow f.a && f.b = 0 && f.c.toNat < 256 && modN f = 0
def legVExt (f : VF) : Bool :=
  vDstS f && selRow f.a && f.b = 0 && f.k = 0 && !f.mod.getLsbD 3 && !f.mod.getLsbD 1
def legVIns (f : VF) : Bool := vDst f && selRow f.a && selVScalar f.b && f.c.toNat < 256 && modN f = 0
def legVPerm (f : VF) : Bool := vDst f && selRow f.a && selRow f.b && f.c = 0 && modN f = 0
def legVShiftl (f : VF) : Bool :=
  vDst f && selRow f.a && (if f.mod.getLsbD 3 then selRow f.b else f.b = 0) && f.c.toNat < 512 && modN f % 8 = 0
def legVIota (f : VF) : Bool := vDst f && selVScalar f.a && f.b = 0 && f.c = 0 && modN f < 4
def legVMov (f : VF) : Bool := vDst f && selRow f.a && f.b = 0 && f.c = 0 && modN f = 0
def legVFill (f : VF) : Bool := vDst f && selVScalar f.a && f.b = 0 && f.c = 0 && modN f ≤ 5
def legVSig (f : VF) : Bool := legVMov f && f.k = 0
def legVSigset (f : VF) : Bool := vDst f && selRow f.a && selRow f.b && f.c = 0 && f.k = 0 && modN f = 0
def legVFmt (f : VF) : Bool :=
  vDst f && selRow f.a && f.b = 0 && f.k = 0 && modN f = 0 && f.c.toNat < 256 && f.c.toNat % 16 ≤ 8
    && (f.c.toNat % 16 = 8 || f.c.toNat / 16 = 0)
def kRest (f : VF) : Bool := !f.t && f.c = 0 && f.k = 0 && f.mod = 0 && f.a.toNat < 8
def legKand (f : VF) : Bool := kRest f && f.dst.toNat < 8 && f.b.toNat < 8
def legKnot (f : VF) : Bool := kRest f && f.dst.toNat < 8 && f.b = 0
def legKpopc (f : VF) : Bool := kRest f && f.dst.toNat < 32 && f.b = 0

/-! ### Slots L and W (08) -/

def legLdsRow (f : MXF) : Bool := f.data.toNat < 320 && f.mod.toNat ≤ 8
def legLdsW32 (f : MXF) : Bool := selScalar f.data && f.mod.toNat ≤ 1
def legLdsW64 (f : MXF) : Bool := selScalar f.data && f.mod = 0
def legLdgRow (f : MXF) : Bool := f.data = 0 && f.mod.toNat ≤ 8
def legLdgW32 (f : MXF) : Bool := f.data = 0 && f.mod.toNat ≤ 1
def legLdgW64 (f : MXF) : Bool := f.data = 0 && f.mod = 0
def legLdgTag (f : MXF) : Bool := f.data = 0 && (f.mod = 0 || f.mod = 5 || f.mod = 6)
def legDrop (f : MXF) : Bool :=
  f.data = 0 && f.base = 0 && f.index = 0 && f.mod = 0 && 1 ≤ f.off.toNat && f.off.toNat ≤ 32
def legStRow (f : MXF) : Bool := selRow f.data && f.mod.toNat < 8
def legStScalar (f : MXF) : Bool := selWScalar f.data && f.mod = 0
def legStTag (f : MXF) : Bool := selAny f.data && f.mod.toNat < 8 && (!selNoRow f.data || f.mod = 0)
/-- Global atomics (R217): `mm` for MIN and MAX, `fa` for FADD. -/
def legAtom (mm fa : Bool) (f : MXF) : Bool :=
  selWScalar f.data && f.mod.toNat % 4 ≤ 1 && (mm || !f.mod.getLsbD 2) && (!fa || f.mod.toNat % 4 = 0)
def legSatom (f : MXF) : Bool := selWScalar f.data && f.mod.toNat ≤ 13

/-! ### Slots M and C (09, 10) -/

/-- Consumed-token fields without their use bit are zero (R34). -/
def enTok (f : ENF) : Bool :=
  (f.use.getLsbD 2 || f.tk1 = 0) && (f.use.getLsbD 1 || f.tk2 = 0) && (f.use.getLsbD 0 || f.tk3 = 0)
/-- The ext bits of `m` are zero. -/
def extZero (f : ENF) (m : Nat) : Bool := f.ext.toNat &&& m = 0
def xcZero (f : XCF) (m : Nat) : Bool := f.ext.toNat &&& m = 0
def legTen (f : ENF) : Bool := enTok f && extZero f 1
def legGath (f : ENF) : Bool := enTok f && extZero f 3
def legScat (f : ENF) : Bool := enTok f && extZero f 7
def legRed (f : ENF) : Bool := enTok f
def legBind (f : ENF) : Bool := enTok f && f.use = 0 && extZero f 0x1FFF
def legBindOff (f : ENF) : Bool := enTok f && f.use = 0 && extZero f 0x1F0FFF && f.ext.getLsbD 12
def legPoll (f : XCF) : Bool := xcZero f 0x7FFFFFFFFF
def legPollWin (f : XCF) : Bool := xcZero f (0x3FFFFFFFFF ||| (0x3F <<< 39)) && f.ext.getLsbD 38
def legCancel (f : XCF) : Bool := xcZero f 0x3FFFFFFFFFF
def legCancelAll (f : XCF) : Bool := f.ext.toNat = 2 ^ 41
def legTmap (f : XCF) : Bool := xcZero f 0xFFFFFFFFFF
def legBerth (f : XCF) : Bool := xcZero f 0x1FFFFFFFFFF && 1 ≤ f.ext.toNat >>> 41 && f.ext.toNat >>> 41 ≤ 64
def legNoExt (f : XCF) : Bool := f.ext = 0
def legPd (f : XCF) : Bool := xcZero f 0x1FFFFFFFFFFF
/-- CHAIN.BEGIN (R267). -/
def legChain (f : XCF) : Bool :=
  xcZero f 0x3FFFFFFF && f.ext.toNat >>> 32 != 0 && !(f.ext.getLsbD 31 && f.ext.getLsbD 30)
/-- MMA forms (R270): which latches are allowed. -/
def legMma (la lb : Bool) (f : ENF) : Bool :=
  enTok f && extZero f 0xF && (la || !f.ext.getLsbD 5) && (lb || !f.ext.getLsbD 4)
    && (!f.ext.getLsbD 5 || extZero f 0x1F0000) && (!f.ext.getLsbD 4 || extZero f 0xF800)
def legMgath (f : ENF) : Bool := enTok f && extZero f 1 && bitsOf 11 10 f.ext.toNat < 320
def legMldb (f : ENF) : Bool := enTok f && extZero f 0x7FF
def legCbload (f : ENF) : Bool := enTok f && f.use = 0 && extZero f 0xFFFF
def legAccZero (f : ENF) : Bool := enTok f && extZero f 0xF && f.ext.toNat >>> 5 != 0
def accBlk (f : ENF) : Nat := bitsOf 17 4 f.ext.toNat
def accBlk2 (f : ENF) : Nat := bitsOf 13 4 f.ext.toNat
def accPair (f : ENF) : Bool := f.ext.getLsbD 12
def accTile (f : ENF) : Nat := bitsOf 7 5 f.ext.toNat
def accHalf (f : ENF) : Bool := f.ext.getLsbD 6
def accFmt (f : ENF) : Nat := bitsOf 4 2 f.ext.toNat
/-- ACC.RD and ACC.WR (R282). -/
def legAcc (rd : Bool) (f : ENF) : Bool :=
  enTok f && extZero f 3 && accTile f ≤ 19 && accFmt f ≤ 2
    && (!accHalf f || (accFmt f = 1 && !accPair f))
    && (bitsOf 2 2 f.ext.toNat = 0 || (rd && accFmt f = 1))
    && (if accPair f then accBlk f / 4 != accBlk2 f / 4 && (accFmt f = 1 || accTile f < 19) else accBlk2 f = 0)

/-! ### Slot Y -/

def syN (f : SYF) : Nat := f.ext.toNat % 65536
def sySrc (f : SYF) : Bool := f.ext.getLsbD 16
/-- The operand n of R296: an immediate (at least `lo`) or a scalar. -/
def syOperand (f : SYF) (lo : Nat) : Bool :=
  f.ext.toNat < 2 ^ 17 && (if sySrc f then syN f = 0 else f.sb = 0 && lo ≤ syN f)
def legSemInit (f : SYF) : Bool := f.pd = 0 && f.ext = 0
def legPost (f : SYF) : Bool := f.pd = 0 && syOperand f 1
def legTry (f : SYF) : Bool := syOperand f 1
def legArrive (f : SYF) : Bool := f.pd = 0 && syOperand f 0
def legBarTest (f : SYF) : Bool := f.ext = 0
/-- MOOR, UNMOOR (R323, R324). -/
def legMoor (f : SYF) : Bool :=
  f.pd = 0 && bitsOf 24 4 f.ext.toNat = 0 && bitsOf 28 3 f.ext.toNat != 7
def legUnmoor (f : SYF) : Bool :=
  f.sa = 0 && f.sb = 0 && f.pd = 0 && f.ext.toNat % 2 ^ 30 = 0 && (!f.ext.getLsbD 30 || f.ext.toNat = 2 ^ 30)
def legRel (f : SYF) : Bool := f.sb = 0 && f.pd = 0 && f.ext = 0
def legAcq (f : SYF) : Bool := f.pd = 0 && syOperand f 0
/-- FENCE (R326). -/
def legFence (f : XCF) : Bool :=
  let rel := f.ext.getLsbD 44
  let acq := f.ext.getLsbD 43
  xcZero f 0x7FFFFFFFFFF && (rel || acq) && f.ext.toNat >>> 45 != 7 && (rel || f.ext.toNat >>> 45 = 0)
def legTk (f : XCF) : Bool := xcZero f 0x7FFF && f.ext.toNat >>> 16 != 0
def legTrap (f : XCF) : Bool := f.ext.toNat < 65536
def legSleep (f : XCF) : Bool := xcZero f 0x3FFFFFFFFFF
/-- Fields of the pipe and queue operations (R356, R387). -/
def syPipe (f : SYF) : Nat := bitsOf 31 4 f.ext.toNat
def syPipeSel (f : SYF) : BitVec 10 := f.ext.extractLsb' 21 10
def syQSel (f : SYF) : BitVec 10 := f.ext.extractLsb' 25 10
def syFmt (f : SYF) : Nat := bitsOf 20 4 f.ext.toNat
def legPipePush (f : SYF) : Bool :=
  f.sa = 0 && f.sb = 0 && f.pd = 0 && f.ext.toNat % 2 ^ 21 = 0 && selRow (syPipeSel f)
def legPipePop (f : SYF) : Bool :=
  f.sa = 0 && f.sb = 0 && f.pd = 0 && f.ext.toNat % 2 ^ 21 = 0 && (syPipeSel f).toNat < 320
def legPipePopTry (f : SYF) : Bool :=
  f.sa = 0 && f.sb = 0 && f.ext.toNat % 2 ^ 21 = 2 ^ 20 && (syPipeSel f).toNat < 320
def legQPush (f : SYF) : Bool := f.sb = 0 && f.ext.toNat % 2 ^ 25 = 0 && selRow (syQSel f)
def legQPop (f : SYF) : Bool :=
  f.sb = 0 && f.ext.toNat % 2 ^ 20 = 0 && !f.ext.getLsbD 24 && syFmt f ≤ 6 && (syQSel f).toNat < 320
def legQPopTry (f : SYF) : Bool :=
  f.sb = 0 && f.ext.toNat % 2 ^ 20 = 0 && f.ext.getLsbD 24 && syFmt f ≤ 6 && (syQSel f).toNat < 320
def legQInfo (f : SYF) : Bool := f.sb = 0 && f.pd = 0 && f.ext.toNat % 2 ^ 30 = 0
/-- SPAWN, TS.GET (R423, R424), COMPLETE (R380), PHASE (R366), BANK.REL (R377). -/
def legSpawn (f : SYF) : Bool := f.pd = 0 && f.ext.toNat % 2 ^ 20 = 0 && bitsOf 20 2 f.ext.toNat != 3
def legTsGet (f : SYF) : Bool :=
  f.sa = 0 && f.sb = 0 && f.pd = 0 && f.ext.toNat % 2 ^ 28 = 0 && bitsOf 28 2 f.ext.toNat != 3
def legComplete (f : SYF) : Bool := f.sb = 0 && f.pd = 0 && f.ext.toNat ≤ 2
def legPhase (f : XCF) : Bool := f.ext.toNat < 16
def legBankRel (f : XCF) : Bool := f.ext.toNat < 2 ^ 32 && f.ext != 0

/-! ### The control word -/

/-- Fields of the control word (R30). -/
def ctlSwp (c : BitVec 32) : Bool := c.getLsbD 0
def ctlRep (c : BitVec 32) : Bool := c.getLsbD 4
def ctlCsrc (c : BitVec 32) : Bool := c.getLsbD 5
def ctlCnt (c : BitVec 32) : BitVec 8 := c.extractLsb' 6 8
def ctlStride (c : BitVec 32) : Int := (c.extractLsb' 14 8).toInt
def ctlMask (c : BitVec 32) (bit : Nat) : Bool := c.getLsbD bit

/-- A legal control word (R30, R31): reserved bits zero; no repeat field without REP; a scalar count names S0 to S31. -/
def legCtl (c : BitVec 32) : Bool :=
  c &&& 0xF000000E = 0 && (ctlRep c || c &&& 0x0FFFFFE0 = 0)
    && !(ctlRep c && ctlCsrc c && 32 ≤ (ctlCnt c).toNat)

end Sys2Proof.Machine
end

