-- ==== Sys2Proof/WellFormed.lean ====
section
/-!
DEFINITION. Well-formedness of an instruction: the operand rules of its format and its chapter (02 R32 to R36), the
constructor a variant of a shared opcode decodes to, and the events' arguments, on which the spec puts no encoding.
-/
namespace Sys2Proof

open Sys2Proof.Machine

/-- Whether an operation's operand fields are legal in a bundle (R32, R55). -/
def wfInstr : Instr → Bool
  | .add _ f => legTy f
  | .sub _ f => legTy f
  | .mul _ f => legTy f
  | .mulh _ f => legBin f
  | .mulhn _ f => legBin f
  | .div _ f => legBin f
  | .divn _ f => legBin f
  | .rem _ f => legBin f
  | .remn _ f => legBin f
  | .and _ f => legBin f
  | .or _ f => legBin f
  | .xor _ f => legBin f
  | .andn _ f => legBin f
  | .shl _ f => legShift f
  | .shr _ f => legShift f
  | .sar _ f => legShift f
  | .rot _ f => legShift f
  | .clz _ f => legUn f
  | .ctz _ f => legUn f
  | .popc _ f => legUn f
  | .min _ f => legBin f
  | .max _ f => legBin f
  | .minn _ f => legBin f
  | .maxn _ f => legBin f
  | .sel _ f => legSel f
  | .lea _ f => legLea f
  | .cmp _ f => legCmp f
  | .addi _ _ => true
  | .andi _ _ => true
  | .ori _ _ => true
  | .xori _ _ => true
  | .movi _ f => legMovi f
  | .movhi _ f => legMovhi f
  | .pand _ f => legP2 f
  | .por _ f => legP2 f
  | .pxor _ f => legP2 f
  | .pnot _ f => legP1 f
  | .sfadd _ f => legF2 f
  | .sfsub _ f => legF2 f
  | .sfmul _ f => legF2 f
  | .sffma _ f => legF3 f
  | .sfdiv _ f => legF2 f
  | .sfsqrt _ f => legF1 f
  | .sfcmp _ f => legSfcmp f
  | .sfcvtI32 _ f => legCvt f
  | .sfcvtF32 _ f => legCvt f
  | .sigget _ f => legUn f
  | .sigset _ f => legBin f
  | .br _ f => sbUse f false false false false
  | .brp _ f => sbUse f false false true true
  | .brsig _ f => legBrsig f
  | .loop _ f => sbUse f true false false false
  | .call _ f => sbUse f true false false false
  | .bri _ f => legBri f
  | .ret _ f => legRet f
  | .cread _ f => legCread f
  | .cwrite _ f => legCwrite f
  | .vadd _ _ f => legVInt2 f
  | .vsub _ _ f => legVInt2 f
  | .vmul _ _ f => legVInt2 f
  | .vmulh _ _ f => legVNoSat f
  | .vmad _ _ f => legVMad f
  | .vand _ _ f => legVBit2 f
  | .vor _ _ f => legVBit2 f
  | .vxor _ _ f => legVBit2 f
  | .vnot _ _ f => legVNot f
  | .vshl _ _ f => legVShift f
  | .vshr _ _ f => legVShift f
  | .vsar _ _ f => legVShift f
  | .vmin _ _ f => legVNoSat f
  | .vmax _ _ f => legVNoSat f
  | .vabsdiff _ _ f => legVNoSat f
  | .vcmp _ _ f => legVCmp f
  | .vsel _ _ f => legVSel f
  | .vpopc _ _ f => legVPopc f
  | .vfadd _ _ f => legVF2 f
  | .vfsub _ _ f => legVF2 f
  | .vfmul _ _ f => legVF2 f
  | .vffma _ _ f => legVF3 f
  | .vfmin _ _ f => legVFMin f
  | .vfmax _ _ f => legVFMin f
  | .vfabs _ _ f => legVFAbs f
  | .vfneg _ _ f => legVFAbs f
  | .vfcmp _ _ f => legVFCmp f
  | .vrcp _ _ f => legVTrans f
  | .vrsqrt _ _ f => legVTrans f
  | .vexp2 _ _ f => legVTrans f
  | .vlog2 _ _ f => legVTrans f
  | .vsigm _ _ f => legVTrans f
  | .vcvt _ _ f => legVCvt f
  | .vcbdec _ _ f => legVCb f
  | .vcbenc _ _ f => legVCb f
  | .vplane _ _ f => legVPlane f
  | .vunplane _ _ f => legVUnplane f
  | .vpadd _ _ f => legVPadd f
  | .vpsub _ _ f => legVPadd f
  | .vpand _ _ f => legVPand f
  | .vpcnt _ _ f => legVPcnt f
  | .vrsum _ _ f => legVRsum f
  | .vrmax _ _ f => legVRmax f
  | .vrmin _ _ f => legVRmax f
  | .vrsigmin _ _ f => legVRsigmin f
  | .vbcast _ _ f => legVBcast f
  | .vext _ _ f => legVExt f
  | .vins _ _ f => legVIns f
  | .vperm _ _ f => legVPerm f
  | .vshiftl _ _ f => legVShiftl f
  | .viota _ _ f => legVIota f
  | .vmov _ _ f => legVMov f
  | .vfill _ _ f => legVFill f
  | .vsig _ _ f => legVSig f
  | .vsigset _ _ f => legVSigset f
  | .vfmt _ _ f => legVFmt f
  | .kand _ _ f => legKand f
  | .kor _ _ f => legKand f
  | .knot _ _ f => legKnot f
  | .kpopc _ _ f => legKpopc f
  | .lease _ f => legNoExt f
  | .leaseTry _ f => legPd f
  | .unlease _ f => legNoExt f
  | .chainBegin _ f => legChain f
  | .chainEnd _ f => legNoExt f
  | .mmaBf16 _ f => legMma true true f
  | .mmaCb4 _ f => legMma false true f
  | .mmaPlane _ f => legMma false false f
  | .mgath _ f => legMgath f
  | .mldb _ f => legMldb f
  | .cbload _ f => legCbload f
  | .accZero _ f => legAccZero f
  | .accRd _ f => legAcc true f
  | .accWr _ f => legAcc false f
  | .ldsRow _ f => legLdsRow f
  | .ldsW32 _ f => legLdsW32 f
  | .ldsW64 _ f => legLdsW64 f
  | .ldgRow _ f => legLdgRow f
  | .ldgW32 _ f => legLdgW32 f
  | .ldgW64 _ f => legLdgW64 f
  | .ldgTag _ f => legLdgTag f
  | .pfg _ f => legLdgW64 f
  | .ldqDrop _ f => legDrop f
  | .stsRow _ f => legStRow f
  | .stsW32 _ f => legStScalar f
  | .stsW64 _ f => legStScalar f
  | .stgRow _ f => legStRow f
  | .stgW32 _ f => legStScalar f
  | .stgW64 _ f => legStScalar f
  | .stgTag _ f => legStTag f
  | .atomAdd _ f => legAtom false false f
  | .atomMin _ f => legAtom true false f
  | .atomMax _ f => legAtom true false f
  | .atomAnd _ f => legAtom false false f
  | .atomOr _ f => legAtom false false f
  | .atomXor _ f => legAtom false false f
  | .atomXchg _ f => legAtom false false f
  | .atomCas _ f => legAtom false false f
  | .atomFadd _ f => legAtom false true f
  | .satom _ f => legSatom f
  | .cpyTen _ f => legTen f
  | .cpyRow _ f => legTen f
  | .cpyGath _ f => legGath f
  | .cpyScat _ f => legScat f
  | .cpySpad _ f => legTen f
  | .cpyBind _ f => legBind f && !f.ext.getLsbD 12
  | .cpyBindOff _ f => legBindOff f
  | .cpyRed _ f => legRed f
  | .cpyFill _ f => legTen f
  | .cpyPoll _ f => legPoll f && !f.ext.getLsbD 38
  | .cpyPollWin _ f => legPollWin f
  | .cpyCancel _ f => legCancel f && !f.ext.getLsbD 41
  | .cpyCancelAll _ f => legCancelAll f
  | .tmap _ f => legTmap f
  | .berthSet _ f => legBerth f
  | .semInit _ f => legSemInit f
  | .semPost _ f => legPost f
  | .semWait _ f => legPost f
  | .semTry _ f => legTry f
  | .barInit _ f => legSemInit f
  | .barArrive _ f => legArrive f
  | .barExpect _ f => legPost f
  | .barWait _ f => legSemInit f
  | .barTest _ f => legBarTest f
  | .gbar _ f => legNoExt f
  | .moor _ f => legMoor f
  | .unmoor _ f => legUnmoor f
  | .acq _ f => legAcq f
  | .rel _ f => legRel f
  | .fence _ f => legFence f
  | .tkwait _ f => legTk f
  | .tkclr _ f => legTk f
  | .pipePush _ f => legPipePush f
  | .pipePop _ f => legPipePop f && !f.ext.getLsbD 20
  | .pipePopTry _ f => legPipePopTry f
  | .qPush _ f => legQPush f
  | .qPop _ f => legQPop f && !f.ext.getLsbD 24
  | .qPopTry _ f => legQPopTry f
  | .qTry _ f => legQPush f
  | .qPeek _ f => legQPop f
  | .qInfo _ f => legQInfo f
  | .spawn _ f => legSpawn f
  | .taskEnd _ f => legNoExt f
  | .taskAbandon _ f => legNoExt f
  | .tsGet _ f => legTsGet f
  | .bankRel _ f => legBankRel f
  | .hintSucc _ f => legNoExt f
  | .waitvis _ f => legNoExt f
  | .complete _ f => legComplete f
  | .phase _ f => legPhase f
  | .trap _ f => legTrap f
  | .rett _ f => legNoExt f
  | .yield _ f => legNoExt f
  | .sleep _ f => legSleep f
  | .endCtx _ f => legNoExt f
  | .nop ctl => legCtl ctl
  | .resultVisible _ => true
  | .trapEntry _ => true
  | .loadEntryReturn _ => true
  | .globalAccessPerformed _ _ _ => true
  | .atomicAtHome _ => true
  | .pageWalkComplete _ => true
  | .copyStart _ _ => true
  | .berthGrant _ => true
  | .copySector _ _ _ _ => true
  | .streamRowArrive _ _ _ => true
  | .sectorPost _ => true
  | .syncOpAtHome _ => true
  | .syncAnswer _ => true
  | .queueOpAtHome _ => true
  | .pipeRowArrive _ => true
  | .tokenWaitRelease _ => true
  | .leaseGrant _ => true
  | .mmaStep _ _ _ _ _ => true
  | .mgathFill _ _ => true
  | .mldbLoad _ _ => true
  | .accOpPerformed _ _ => true
  | .chainComplete _ => true
  | .chainOverrun _ => true
  | .sleepDeadline _ => true
  | .preemptRequest _ => true
  | .contextSave _ => true
  | .restoreRequest _ => true
  | .contextRestore _ => true
  | .launchPop => true
  | .ticketReserve _ => true
  | .preemptTimeout _ => true
  | .groupReady _ => true
  | .bankFree _ _ => true
  | .completionRecordWrite _ => true
  | .nodeFire _ => true
  | .auditReplay _ => true
  | .auditCompare _ => true
  | .taskDispatch _ _ => true
  | .taskCommit _ => true
  | .domainComplete _ => true
  | .loadCodeObject _ => true
  | .unload _ => true
  | .domainOpen _ => true
  | .nodeReleaseCancel _ => true
  | .readMarginTable _ => true
  | .attestationQuote _ => true
  | .keyLoad _ => true
  | .keyRevoke _ => true
  | .raiseMinsvn _ => true
  | .guardBandHint _ => true
  | .writeSignerDigest _ => true
  | .lqtailWrite _ _ _ => true
  | .lqcfgWrite _ _ _ => true
  | .tinvWrite _ _ => true
  | .tsyncRead _ => true
  | .partWrite _ _ _ => true
  | .pwinWrite _ _ => true
  | .injWrite _ _ => true
  | .devidWrite _ => true
  | .rlogheadWrite _ => true
  | .registerWrite _ => true
  | .deviceReset _ => true
  | .functionLevelReset _ => true
  | .timingReplay _ _ => true
  | .marginUpWindow _ => true
  | .marginDownWindow _ => true
  | .tileDrained _ => true
  | .powerStateEnter _ => true
  | .tileWake _ => true
  | .powerMeasure _ _ => true
  | .boostLeaseExpire _ => true
  | .budgetMessage _ => true
  | .budgetLeaseExpire _ => true
  | .thermalLimit => true
  | .dramQuarantine _ => true
  | .ucieLinkDown _ => true
  | .portRetrain _ => true
  | .portTraining _ _ _ _ => true
  | .timeSync _ => true
  | .remoteAccess _ => true
  | .hostMemoryWrite _ _ _ => true
  | .tmapCbloadReadArrive _ => true
  | .mbdoorWrite _ _ => true
  | .launchCancel _ => true
  | .thermalRecovery => true
  | .wearIntegration _ _ _ _ => true
  | .hbmScrub _ _ => true
  | .clockStretch _ _ => true

end Sys2Proof
end

