-- ==== Sys2Proof/Decode.lean ====
section
/-!
DEFINITION. The bundle's encoding (02 R28 to R36, 03 R72 to R78): fields to bits and back, one decoder per slot, the
checks of a whole bundle with a name for each rejection, and the encoder.
-/
namespace Sys2Proof

open Sys2Proof.Machine

/-! ### Operand formats (R33): bits to fields and fields to bits -/

def fieldsV (o : Operands) : VF :=
  ⟨o.extractLsb' 38 10, o.getLsbD 37, o.extractLsb' 27 10, o.extractLsb' 17 10, o.extractLsb' 7 10,
   o.extractLsb' 4 3, o.extractLsb' 0 4⟩
def bitsV (f : VF) : Operands := f.dst ++ BitVec.ofBool f.t ++ f.a ++ f.b ++ f.c ++ f.k ++ f.mod
def fieldsSR (o : Operands) : SRF :=
  ⟨o.extractLsb' 43 5, o.extractLsb' 38 5, o.extractLsb' 33 5, o.extractLsb' 28 5, o.extractLsb' 25 3,
   o.extractLsb' 22 3, o.extractLsb' 19 3, o.extractLsb' 0 19⟩
def bitsSR (f : SRF) : Operands := f.sd ++ f.sa ++ f.sb ++ f.sc ++ f.pd ++ f.pa ++ f.pb ++ f.ext
def fieldsSI (o : Operands) : SIF := ⟨o.extractLsb' 43 5, o.extractLsb' 38 5, o.extractLsb' 0 38⟩
def bitsSI (f : SIF) : Operands := f.sd ++ f.sa ++ f.imm
def fieldsSB (o : Operands) : SBF :=
  ⟨o.extractLsb' 43 5, o.extractLsb' 38 5, o.extractLsb' 35 3, o.extractLsb' 32 3, o.extractLsb' 0 32⟩
def bitsSB (f : SBF) : Operands := f.sa ++ f.sb ++ f.pa ++ f.ext ++ f.off
def fieldsMX (o : Operands) : MXF :=
  ⟨o.extractLsb' 38 10, o.extractLsb' 33 5, o.extractLsb' 28 5, o.extractLsb' 4 24, o.extractLsb' 0 4⟩
def bitsMX (f : MXF) : Operands := f.data ++ f.base ++ f.index ++ f.off ++ f.mod
def fieldsEN (o : Operands) : ENF :=
  ⟨o.extractLsb' 42 6, o.extractLsb' 36 6, o.extractLsb' 30 6, o.extractLsb' 24 6, o.extractLsb' 21 3,
   o.extractLsb' 0 21⟩
def bitsEN (f : ENF) : Operands := f.tkd ++ f.tk1 ++ f.tk2 ++ f.tk3 ++ f.use ++ f.ext
def fieldsXC (o : Operands) : XCF := ⟨o⟩
def bitsXC (f : XCF) : Operands := f.ext
def fieldsSY (o : Operands) : SYF :=
  ⟨o.extractLsb' 43 5, o.extractLsb' 38 5, o.extractLsb' 35 3, o.extractLsb' 0 35⟩
def bitsSY (f : SYF) : Operands := f.sa ++ f.sb ++ f.pd ++ f.ext

/-- The 60 bits of a slot (R32). -/
def slotWord (op : BitVec 8) (g : Guard) (o : Operands) : SlotBits := op ++ g.pred ++ BitVec.ofBool g.sense ++ o
def slotOp (x : SlotBits) : BitVec 8 := x.extractLsb' 52 8
def slotGuard (x : SlotBits) : Guard := ⟨x.extractLsb' 49 3, x.getLsbD 48⟩
def slotOperands (x : SlotBits) : Operands := x.extractLsb' 0 48

/-! ### Opcodes (R72 to R78) -/

/-- Slot S: the operation of an opcode. -/
def decodeS (op : Nat) (g : Guard) (o : Operands) : Option Instr :=
  match op with
  | 0x01 => some (.add g (fieldsSR o))
  | 0x02 => some (.sub g (fieldsSR o))
  | 0x03 => some (.mul g (fieldsSR o))
  | 0x04 => some (.mulh g (fieldsSR o))
  | 0x05 => some (.mulhn g (fieldsSR o))
  | 0x06 => some (.div g (fieldsSR o))
  | 0x07 => some (.divn g (fieldsSR o))
  | 0x08 => some (.rem g (fieldsSR o))
  | 0x09 => some (.remn g (fieldsSR o))
  | 0x0A => some (.and g (fieldsSR o))
  | 0x0B => some (.or g (fieldsSR o))
  | 0x0C => some (.xor g (fieldsSR o))
  | 0x0D => some (.andn g (fieldsSR o))
  | 0x0E => some (.shl g (fieldsSR o))
  | 0x0F => some (.shr g (fieldsSR o))
  | 0x10 => some (.sar g (fieldsSR o))
  | 0x11 => some (.rot g (fieldsSR o))
  | 0x12 => some (.clz g (fieldsSR o))
  | 0x13 => some (.ctz g (fieldsSR o))
  | 0x14 => some (.popc g (fieldsSR o))
  | 0x15 => some (.min g (fieldsSR o))
  | 0x16 => some (.max g (fieldsSR o))
  | 0x17 => some (.minn g (fieldsSR o))
  | 0x18 => some (.maxn g (fieldsSR o))
  | 0x19 => some (.sel g (fieldsSR o))
  | 0x1A => some (.lea g (fieldsSR o))
  | 0x1B => some (.cmp g (fieldsSR o))
  | 0x20 => some (.addi g (fieldsSI o))
  | 0x21 => some (.andi g (fieldsSI o))
  | 0x22 => some (.ori g (fieldsSI o))
  | 0x23 => some (.xori g (fieldsSI o))
  | 0x24 => some (.movi g (fieldsSI o))
  | 0x25 => some (.movhi g (fieldsSI o))
  | 0x30 => some (.pand g (fieldsSR o))
  | 0x31 => some (.por g (fieldsSR o))
  | 0x32 => some (.pxor g (fieldsSR o))
  | 0x33 => some (.pnot g (fieldsSR o))
  | 0x40 => some (.sfadd g (fieldsSR o))
  | 0x41 => some (.sfsub g (fieldsSR o))
  | 0x42 => some (.sfmul g (fieldsSR o))
  | 0x43 => some (.sffma g (fieldsSR o))
  | 0x44 => some (.sfdiv g (fieldsSR o))
  | 0x45 => some (.sfsqrt g (fieldsSR o))
  | 0x46 => some (.sfcmp g (fieldsSR o))
  | 0x47 => some (.sfcvtI32 g (fieldsSR o))
  | 0x48 => some (.sfcvtF32 g (fieldsSR o))
  | 0x49 => some (.sigget g (fieldsSR o))
  | 0x4A => some (.sigset g (fieldsSR o))
  | 0x60 => some (.br g (fieldsSB o))
  | 0x61 => some (.brp g (fieldsSB o))
  | 0x62 => some (.brsig g (fieldsSB o))
  | 0x63 => some (.loop g (fieldsSB o))
  | 0x64 => some (.call g (fieldsSB o))
  | 0x65 => some (.bri g (fieldsSR o))
  | 0x66 => some (.ret g (fieldsSR o))
  | 0x68 => some (.cread g (fieldsSR o))
  | 0x69 => some (.cwrite g (fieldsSR o))
  | _ => none

/-- Slot A and B: the operation of an opcode. -/
def decodeV (inB : Bool) (op : Nat) (g : Guard) (o : Operands) : Option Instr :=
  match op with
  | 0x01 => some (.vadd g inB (fieldsV o))
  | 0x02 => some (.vsub g inB (fieldsV o))
  | 0x03 => some (.vmul g inB (fieldsV o))
  | 0x04 => some (.vmulh g inB (fieldsV o))
  | 0x05 => some (.vmad g inB (fieldsV o))
  | 0x06 => some (.vand g inB (fieldsV o))
  | 0x07 => some (.vor g inB (fieldsV o))
  | 0x08 => some (.vxor g inB (fieldsV o))
  | 0x09 => some (.vnot g inB (fieldsV o))
  | 0x0A => some (.vshl g inB (fieldsV o))
  | 0x0B => some (.vshr g inB (fieldsV o))
  | 0x0C => some (.vsar g inB (fieldsV o))
  | 0x0D => some (.vmin g inB (fieldsV o))
  | 0x0E => some (.vmax g inB (fieldsV o))
  | 0x0F => some (.vabsdiff g inB (fieldsV o))
  | 0x10 => some (.vcmp g inB (fieldsV o))
  | 0x11 => some (.vsel g inB (fieldsV o))
  | 0x12 => some (.vpopc g inB (fieldsV o))
  | 0x48 => some (.vfadd g inB (fieldsV o))
  | 0x49 => some (.vfsub g inB (fieldsV o))
  | 0x4A => some (.vfmul g inB (fieldsV o))
  | 0x4B => some (.vffma g inB (fieldsV o))
  | 0x4C => some (.vfmin g inB (fieldsV o))
  | 0x4D => some (.vfmax g inB (fieldsV o))
  | 0x4E => some (.vfabs g inB (fieldsV o))
  | 0x4F => some (.vfneg g inB (fieldsV o))
  | 0x50 => some (.vfcmp g inB (fieldsV o))
  | 0x58 => some (.vrcp g inB (fieldsV o))
  | 0x59 => some (.vrsqrt g inB (fieldsV o))
  | 0x5A => some (.vexp2 g inB (fieldsV o))
  | 0x5B => some (.vlog2 g inB (fieldsV o))
  | 0x5C => some (.vsigm g inB (fieldsV o))
  | 0x60 => some (.vcvt g inB (fieldsV o))
  | 0x61 => some (.vcbdec g inB (fieldsV o))
  | 0x62 => some (.vcbenc g inB (fieldsV o))
  | 0x68 => some (.vplane g inB (fieldsV o))
  | 0x69 => some (.vunplane g inB (fieldsV o))
  | 0x6A => some (.vpadd g inB (fieldsV o))
  | 0x6B => some (.vpsub g inB (fieldsV o))
  | 0x6C => some (.vpand g inB (fieldsV o))
  | 0x6D => some (.vpcnt g inB (fieldsV o))
  | 0x70 => some (.vrsum g inB (fieldsV o))
  | 0x71 => some (.vrmax g inB (fieldsV o))
  | 0x72 => some (.vrmin g inB (fieldsV o))
  | 0x73 => some (.vrsigmin g inB (fieldsV o))
  | 0x74 => some (.vbcast g inB (fieldsV o))
  | 0x75 => some (.vext g inB (fieldsV o))
  | 0x76 => some (.vins g inB (fieldsV o))
  | 0x77 => some (.vperm g inB (fieldsV o))
  | 0x78 => some (.vshiftl g inB (fieldsV o))
  | 0x79 => some (.viota g inB (fieldsV o))
  | 0x7A => some (.vmov g inB (fieldsV o))
  | 0x7B => some (.vfill g inB (fieldsV o))
  | 0x80 => some (.vsig g inB (fieldsV o))
  | 0x81 => some (.vsigset g inB (fieldsV o))
  | 0x82 => some (.vfmt g inB (fieldsV o))
  | 0x90 => some (.kand g inB (fieldsV o))
  | 0x91 => some (.kor g inB (fieldsV o))
  | 0x92 => some (.knot g inB (fieldsV o))
  | 0x93 => some (.kpopc g inB (fieldsV o))
  | _ => none

/-- Slot M: the operation of an opcode. -/
def decodeM (op : Nat) (g : Guard) (o : Operands) : Option Instr :=
  match op with
  | 0x01 => some (.lease g (fieldsXC o))
  | 0x02 => some (.leaseTry g (fieldsXC o))
  | 0x03 => some (.unlease g (fieldsXC o))
  | 0x08 => some (.chainBegin g (fieldsXC o))
  | 0x09 => some (.chainEnd g (fieldsXC o))
  | 0x10 => some (.mmaBf16 g (fieldsEN o))
  | 0x11 => some (.mmaCb4 g (fieldsEN o))
  | 0x12 => some (.mmaPlane g (fieldsEN o))
  | 0x18 => some (.mgath g (fieldsEN o))
  | 0x19 => some (.mldb g (fieldsEN o))
  | 0x1A => some (.cbload g (fieldsEN o))
  | 0x20 => some (.accZero g (fieldsEN o))
  | 0x21 => some (.accRd g (fieldsEN o))
  | 0x22 => some (.accWr g (fieldsEN o))
  | _ => none

/-- Slot L: the operation of an opcode. -/
def decodeL (op : Nat) (g : Guard) (o : Operands) : Option Instr :=
  match op with
  | 0x01 => some (.ldsRow g (fieldsMX o))
  | 0x02 => some (.ldsW32 g (fieldsMX o))
  | 0x03 => some (.ldsW64 g (fieldsMX o))
  | 0x08 => some (.ldgRow g (fieldsMX o))
  | 0x09 => some (.ldgW32 g (fieldsMX o))
  | 0x0A => some (.ldgW64 g (fieldsMX o))
  | 0x0B => some (.ldgTag g (fieldsMX o))
  | 0x10 => some (.pfg g (fieldsMX o))
  | 0x11 => some (.ldqDrop g (fieldsMX o))
  | _ => none

/-- Slot W: the operation of an opcode. -/
def decodeW (op : Nat) (g : Guard) (o : Operands) : Option Instr :=
  match op with
  | 0x01 => some (.stsRow g (fieldsMX o))
  | 0x02 => some (.stsW32 g (fieldsMX o))
  | 0x03 => some (.stsW64 g (fieldsMX o))
  | 0x08 => some (.stgRow g (fieldsMX o))
  | 0x09 => some (.stgW32 g (fieldsMX o))
  | 0x0A => some (.stgW64 g (fieldsMX o))
  | 0x0B => some (.stgTag g (fieldsMX o))
  | 0x20 => some (.atomAdd g (fieldsMX o))
  | 0x21 => some (.atomMin g (fieldsMX o))
  | 0x22 => some (.atomMax g (fieldsMX o))
  | 0x23 => some (.atomAnd g (fieldsMX o))
  | 0x24 => some (.atomOr g (fieldsMX o))
  | 0x25 => some (.atomXor g (fieldsMX o))
  | 0x26 => some (.atomXchg g (fieldsMX o))
  | 0x27 => some (.atomCas g (fieldsMX o))
  | 0x28 => some (.atomFadd g (fieldsMX o))
  | 0x30 => some (.satom g (fieldsMX o))
  | _ => none

/-- Slot C: the operation of an opcode. -/
def decodeC (op : Nat) (g : Guard) (o : Operands) : Option Instr :=
  match op with
  | 0x01 => some (.cpyTen g (fieldsEN o))
  | 0x02 => some (.cpyRow g (fieldsEN o))
  | 0x03 => some (.cpyGath g (fieldsEN o))
  | 0x04 => some (.cpyScat g (fieldsEN o))
  | 0x05 => some (.cpySpad g (fieldsEN o))
  | 0x06 => some (if o.getLsbD 12 then .cpyBindOff g (fieldsEN o) else .cpyBind g (fieldsEN o))
  | 0x07 => some (.cpyRed g (fieldsEN o))
  | 0x08 => some (.cpyFill g (fieldsEN o))
  | 0x10 => some (if o.getLsbD 38 then .cpyPollWin g (fieldsXC o) else .cpyPoll g (fieldsXC o))
  | 0x11 => some (if o.getLsbD 41 then .cpyCancelAll g (fieldsXC o) else .cpyCancel g (fieldsXC o))
  | 0x18 => some (.tmap g (fieldsXC o))
  | 0x19 => some (.berthSet g (fieldsXC o))
  | _ => none

/-- Slot Y: the operation of an opcode. -/
def decodeY (op : Nat) (g : Guard) (o : Operands) : Option Instr :=
  match op with
  | 0x01 => some (.semInit g (fieldsSY o))
  | 0x02 => some (.semPost g (fieldsSY o))
  | 0x03 => some (.semWait g (fieldsSY o))
  | 0x04 => some (.semTry g (fieldsSY o))
  | 0x08 => some (.barInit g (fieldsSY o))
  | 0x09 => some (.barArrive g (fieldsSY o))
  | 0x0A => some (.barExpect g (fieldsSY o))
  | 0x0B => some (.barWait g (fieldsSY o))
  | 0x0C => some (.barTest g (fieldsSY o))
  | 0x0D => some (.gbar g (fieldsXC o))
  | 0x10 => some (.moor g (fieldsSY o))
  | 0x11 => some (.unmoor g (fieldsSY o))
  | 0x12 => some (.acq g (fieldsSY o))
  | 0x13 => some (.rel g (fieldsSY o))
  | 0x14 => some (.fence g (fieldsXC o))
  | 0x18 => some (.tkwait g (fieldsXC o))
  | 0x19 => some (.tkclr g (fieldsXC o))
  | 0x20 => some (.pipePush g (fieldsSY o))
  | 0x21 => some (if o.getLsbD 20 then .pipePopTry g (fieldsSY o) else .pipePop g (fieldsSY o))
  | 0x28 => some (.qPush g (fieldsSY o))
  | 0x29 => some (if o.getLsbD 24 then .qPopTry g (fieldsSY o) else .qPop g (fieldsSY o))
  | 0x2A => some (.qTry g (fieldsSY o))
  | 0x2B => some (.qPeek g (fieldsSY o))
  | 0x2C => some (.qInfo g (fieldsSY o))
  | 0x30 => some (.spawn g (fieldsSY o))
  | 0x31 => some (.taskEnd g (fieldsXC o))
  | 0x32 => some (.taskAbandon g (fieldsXC o))
  | 0x33 => some (.tsGet g (fieldsSY o))
  | 0x38 => some (.bankRel g (fieldsXC o))
  | 0x39 => some (.hintSucc g (fieldsXC o))
  | 0x3A => some (.waitvis g (fieldsXC o))
  | 0x3B => some (.complete g (fieldsSY o))
  | 0x3C => some (.phase g (fieldsXC o))
  | 0x40 => some (.trap g (fieldsXC o))
  | 0x41 => some (.rett g (fieldsXC o))
  | 0x42 => some (.yield g (fieldsXC o))
  | 0x43 => some (.sleep g (fieldsXC o))
  | 0x44 => some (.endCtx g (fieldsXC o))
  | _ => none

/-- The operation in slot `i` (R29, R32). -/
def decodeSlot (i : Nat) (x : SlotBits) : Option Instr :=
  let op := (slotOp x).toNat
  let g := slotGuard x
  let o := slotOperands x
  match i with
  | 0 => decodeS op g o
  | 1 => decodeV false op g o
  | 2 => decodeV true op g o
  | 3 => decodeM op g o
  | 4 => decodeL op g o
  | 5 => decodeW op g o
  | 6 => decodeC op g o
  | 7 => decodeY op g o
  | _ => none

/-- The slot an operation stands in; none for a happening of the device and for the empty bundle. -/
def slotOf : Instr → Option Nat
  | .add _ _ => some 0
  | .sub _ _ => some 0
  | .mul _ _ => some 0
  | .mulh _ _ => some 0
  | .mulhn _ _ => some 0
  | .div _ _ => some 0
  | .divn _ _ => some 0
  | .rem _ _ => some 0
  | .remn _ _ => some 0
  | .and _ _ => some 0
  | .or _ _ => some 0
  | .xor _ _ => some 0
  | .andn _ _ => some 0
  | .shl _ _ => some 0
  | .shr _ _ => some 0
  | .sar _ _ => some 0
  | .rot _ _ => some 0
  | .clz _ _ => some 0
  | .ctz _ _ => some 0
  | .popc _ _ => some 0
  | .min _ _ => some 0
  | .max _ _ => some 0
  | .minn _ _ => some 0
  | .maxn _ _ => some 0
  | .sel _ _ => some 0
  | .lea _ _ => some 0
  | .cmp _ _ => some 0
  | .addi _ _ => some 0
  | .andi _ _ => some 0
  | .ori _ _ => some 0
  | .xori _ _ => some 0
  | .movi _ _ => some 0
  | .movhi _ _ => some 0
  | .pand _ _ => some 0
  | .por _ _ => some 0
  | .pxor _ _ => some 0
  | .pnot _ _ => some 0
  | .sfadd _ _ => some 0
  | .sfsub _ _ => some 0
  | .sfmul _ _ => some 0
  | .sffma _ _ => some 0
  | .sfdiv _ _ => some 0
  | .sfsqrt _ _ => some 0
  | .sfcmp _ _ => some 0
  | .sfcvtI32 _ _ => some 0
  | .sfcvtF32 _ _ => some 0
  | .sigget _ _ => some 0
  | .sigset _ _ => some 0
  | .br _ _ => some 0
  | .brp _ _ => some 0
  | .brsig _ _ => some 0
  | .loop _ _ => some 0
  | .call _ _ => some 0
  | .bri _ _ => some 0
  | .ret _ _ => some 0
  | .cread _ _ => some 0
  | .cwrite _ _ => some 0
  | .vadd _ inB _ => some (if inB then 2 else 1)
  | .vsub _ inB _ => some (if inB then 2 else 1)
  | .vmul _ inB _ => some (if inB then 2 else 1)
  | .vmulh _ inB _ => some (if inB then 2 else 1)
  | .vmad _ inB _ => some (if inB then 2 else 1)
  | .vand _ inB _ => some (if inB then 2 else 1)
  | .vor _ inB _ => some (if inB then 2 else 1)
  | .vxor _ inB _ => some (if inB then 2 else 1)
  | .vnot _ inB _ => some (if inB then 2 else 1)
  | .vshl _ inB _ => some (if inB then 2 else 1)
  | .vshr _ inB _ => some (if inB then 2 else 1)
  | .vsar _ inB _ => some (if inB then 2 else 1)
  | .vmin _ inB _ => some (if inB then 2 else 1)
  | .vmax _ inB _ => some (if inB then 2 else 1)
  | .vabsdiff _ inB _ => some (if inB then 2 else 1)
  | .vcmp _ inB _ => some (if inB then 2 else 1)
  | .vsel _ inB _ => some (if inB then 2 else 1)
  | .vpopc _ inB _ => some (if inB then 2 else 1)
  | .vfadd _ inB _ => some (if inB then 2 else 1)
  | .vfsub _ inB _ => some (if inB then 2 else 1)
  | .vfmul _ inB _ => some (if inB then 2 else 1)
  | .vffma _ inB _ => some (if inB then 2 else 1)
  | .vfmin _ inB _ => some (if inB then 2 else 1)
  | .vfmax _ inB _ => some (if inB then 2 else 1)
  | .vfabs _ inB _ => some (if inB then 2 else 1)
  | .vfneg _ inB _ => some (if inB then 2 else 1)
  | .vfcmp _ inB _ => some (if inB then 2 else 1)
  | .vrcp _ inB _ => some (if inB then 2 else 1)
  | .vrsqrt _ inB _ => some (if inB then 2 else 1)
  | .vexp2 _ inB _ => some (if inB then 2 else 1)
  | .vlog2 _ inB _ => some (if inB then 2 else 1)
  | .vsigm _ inB _ => some (if inB then 2 else 1)
  | .vcvt _ inB _ => some (if inB then 2 else 1)
  | .vcbdec _ inB _ => some (if inB then 2 else 1)
  | .vcbenc _ inB _ => some (if inB then 2 else 1)
  | .vplane _ inB _ => some (if inB then 2 else 1)
  | .vunplane _ inB _ => some (if inB then 2 else 1)
  | .vpadd _ inB _ => some (if inB then 2 else 1)
  | .vpsub _ inB _ => some (if inB then 2 else 1)
  | .vpand _ inB _ => some (if inB then 2 else 1)
  | .vpcnt _ inB _ => some (if inB then 2 else 1)
  | .vrsum _ inB _ => some (if inB then 2 else 1)
  | .vrmax _ inB _ => some (if inB then 2 else 1)
  | .vrmin _ inB _ => some (if inB then 2 else 1)
  | .vrsigmin _ inB _ => some (if inB then 2 else 1)
  | .vbcast _ inB _ => some (if inB then 2 else 1)
  | .vext _ inB _ => some (if inB then 2 else 1)
  | .vins _ inB _ => some (if inB then 2 else 1)
  | .vperm _ inB _ => some (if inB then 2 else 1)
  | .vshiftl _ inB _ => some (if inB then 2 else 1)
  | .viota _ inB _ => some (if inB then 2 else 1)
  | .vmov _ inB _ => some (if inB then 2 else 1)
  | .vfill _ inB _ => some (if inB then 2 else 1)
  | .vsig _ inB _ => some (if inB then 2 else 1)
  | .vsigset _ inB _ => some (if inB then 2 else 1)
  | .vfmt _ inB _ => some (if inB then 2 else 1)
  | .kand _ inB _ => some (if inB then 2 else 1)
  | .kor _ inB _ => some (if inB then 2 else 1)
  | .knot _ inB _ => some (if inB then 2 else 1)
  | .kpopc _ inB _ => some (if inB then 2 else 1)
  | .lease _ _ => some 3
  | .leaseTry _ _ => some 3
  | .unlease _ _ => some 3
  | .chainBegin _ _ => some 3
  | .chainEnd _ _ => some 3
  | .mmaBf16 _ _ => some 3
  | .mmaCb4 _ _ => some 3
  | .mmaPlane _ _ => some 3
  | .mgath _ _ => some 3
  | .mldb _ _ => some 3
  | .cbload _ _ => some 3
  | .accZero _ _ => some 3
  | .accRd _ _ => some 3
  | .accWr _ _ => some 3
  | .ldsRow _ _ => some 4
  | .ldsW32 _ _ => some 4
  | .ldsW64 _ _ => some 4
  | .ldgRow _ _ => some 4
  | .ldgW32 _ _ => some 4
  | .ldgW64 _ _ => some 4
  | .ldgTag _ _ => some 4
  | .pfg _ _ => some 4
  | .ldqDrop _ _ => some 4
  | .stsRow _ _ => some 5
  | .stsW32 _ _ => some 5
  | .stsW64 _ _ => some 5
  | .stgRow _ _ => some 5
  | .stgW32 _ _ => some 5
  | .stgW64 _ _ => some 5
  | .stgTag _ _ => some 5
  | .atomAdd _ _ => some 5
  | .atomMin _ _ => some 5
  | .atomMax _ _ => some 5
  | .atomAnd _ _ => some 5
  | .atomOr _ _ => some 5
  | .atomXor _ _ => some 5
  | .atomXchg _ _ => some 5
  | .atomCas _ _ => some 5
  | .atomFadd _ _ => some 5
  | .satom _ _ => some 5
  | .cpyTen _ _ => some 6
  | .cpyRow _ _ => some 6
  | .cpyGath _ _ => some 6
  | .cpyScat _ _ => some 6
  | .cpySpad _ _ => some 6
  | .cpyBind _ _ => some 6
  | .cpyBindOff _ _ => some 6
  | .cpyRed _ _ => some 6
  | .cpyFill _ _ => some 6
  | .cpyPoll _ _ => some 6
  | .cpyPollWin _ _ => some 6
  | .cpyCancel _ _ => some 6
  | .cpyCancelAll _ _ => some 6
  | .tmap _ _ => some 6
  | .berthSet _ _ => some 6
  | .semInit _ _ => some 7
  | .semPost _ _ => some 7
  | .semWait _ _ => some 7
  | .semTry _ _ => some 7
  | .barInit _ _ => some 7
  | .barArrive _ _ => some 7
  | .barExpect _ _ => some 7
  | .barWait _ _ => some 7
  | .barTest _ _ => some 7
  | .gbar _ _ => some 7
  | .moor _ _ => some 7
  | .unmoor _ _ => some 7
  | .acq _ _ => some 7
  | .rel _ _ => some 7
  | .fence _ _ => some 7
  | .tkwait _ _ => some 7
  | .tkclr _ _ => some 7
  | .pipePush _ _ => some 7
  | .pipePop _ _ => some 7
  | .pipePopTry _ _ => some 7
  | .qPush _ _ => some 7
  | .qPop _ _ => some 7
  | .qPopTry _ _ => some 7
  | .qTry _ _ => some 7
  | .qPeek _ _ => some 7
  | .qInfo _ _ => some 7
  | .spawn _ _ => some 7
  | .taskEnd _ _ => some 7
  | .taskAbandon _ _ => some 7
  | .tsGet _ _ => some 7
  | .bankRel _ _ => some 7
  | .hintSucc _ _ => some 7
  | .waitvis _ _ => some 7
  | .complete _ _ => some 7
  | .phase _ _ => some 7
  | .trap _ _ => some 7
  | .rett _ _ => some 7
  | .yield _ _ => some 7
  | .sleep _ _ => some 7
  | .endCtx _ _ => some 7
  | .nop _ => none
  | .resultVisible _ => none
  | .trapEntry _ => none
  | .loadEntryReturn _ => none
  | .globalAccessPerformed _ _ _ => none
  | .atomicAtHome _ => none
  | .pageWalkComplete _ => none
  | .copyStart _ _ => none
  | .berthGrant _ => none
  | .copySector _ _ _ _ => none
  | .streamRowArrive _ _ _ => none
  | .sectorPost _ => none
  | .syncOpAtHome _ => none
  | .syncAnswer _ => none
  | .queueOpAtHome _ => none
  | .pipeRowArrive _ => none
  | .tokenWaitRelease _ => none
  | .leaseGrant _ => none
  | .mmaStep _ _ _ _ _ => none
  | .mgathFill _ _ => none
  | .mldbLoad _ _ => none
  | .accOpPerformed _ _ => none
  | .chainComplete _ => none
  | .chainOverrun _ => none
  | .sleepDeadline _ => none
  | .preemptRequest _ => none
  | .contextSave _ => none
  | .restoreRequest _ => none
  | .contextRestore _ => none
  | .launchPop => none
  | .ticketReserve _ => none
  | .preemptTimeout _ => none
  | .groupReady _ => none
  | .bankFree _ _ => none
  | .completionRecordWrite _ => none
  | .nodeFire _ => none
  | .auditReplay _ => none
  | .auditCompare _ => none
  | .taskDispatch _ _ => none
  | .taskCommit _ => none
  | .domainComplete _ => none
  | .loadCodeObject _ => none
  | .unload _ => none
  | .domainOpen _ => none
  | .nodeReleaseCancel _ => none
  | .readMarginTable _ => none
  | .attestationQuote _ => none
  | .keyLoad _ => none
  | .keyRevoke _ => none
  | .raiseMinsvn _ => none
  | .guardBandHint _ => none
  | .writeSignerDigest _ => none
  | .lqtailWrite _ _ _ => none
  | .lqcfgWrite _ _ _ => none
  | .tinvWrite _ _ => none
  | .tsyncRead _ => none
  | .partWrite _ _ _ => none
  | .pwinWrite _ _ => none
  | .injWrite _ _ => none
  | .devidWrite _ => none
  | .rlogheadWrite _ => none
  | .registerWrite _ => none
  | .deviceReset _ => none
  | .functionLevelReset _ => none
  | .timingReplay _ _ => none
  | .marginUpWindow _ => none
  | .marginDownWindow _ => none
  | .tileDrained _ => none
  | .powerStateEnter _ => none
  | .tileWake _ => none
  | .powerMeasure _ _ => none
  | .boostLeaseExpire _ => none
  | .budgetMessage _ => none
  | .budgetLeaseExpire _ => none
  | .thermalLimit => none
  | .dramQuarantine _ => none
  | .ucieLinkDown _ => none
  | .portRetrain _ => none
  | .portTraining _ _ _ _ => none
  | .timeSync _ => none
  | .remoteAccess _ => none
  | .hostMemoryWrite _ _ _ => none
  | .tmapCbloadReadArrive _ => none
  | .mbdoorWrite _ _ => none
  | .launchCancel _ => none
  | .thermalRecovery => none
  | .wearIntegration _ _ _ _ => none
  | .hbmScrub _ _ => none
  | .clockStretch _ _ => none

/-- The slot's bits of an operation, written from the same tables; zero where there is none. -/
def encodeSlot : Instr → SlotBits
  | .add g f => slotWord 0x01 g (bitsSR f)
  | .sub g f => slotWord 0x02 g (bitsSR f)
  | .mul g f => slotWord 0x03 g (bitsSR f)
  | .mulh g f => slotWord 0x04 g (bitsSR f)
  | .mulhn g f => slotWord 0x05 g (bitsSR f)
  | .div g f => slotWord 0x06 g (bitsSR f)
  | .divn g f => slotWord 0x07 g (bitsSR f)
  | .rem g f => slotWord 0x08 g (bitsSR f)
  | .remn g f => slotWord 0x09 g (bitsSR f)
  | .and g f => slotWord 0x0A g (bitsSR f)
  | .or g f => slotWord 0x0B g (bitsSR f)
  | .xor g f => slotWord 0x0C g (bitsSR f)
  | .andn g f => slotWord 0x0D g (bitsSR f)
  | .shl g f => slotWord 0x0E g (bitsSR f)
  | .shr g f => slotWord 0x0F g (bitsSR f)
  | .sar g f => slotWord 0x10 g (bitsSR f)
  | .rot g f => slotWord 0x11 g (bitsSR f)
  | .clz g f => slotWord 0x12 g (bitsSR f)
  | .ctz g f => slotWord 0x13 g (bitsSR f)
  | .popc g f => slotWord 0x14 g (bitsSR f)
  | .min g f => slotWord 0x15 g (bitsSR f)
  | .max g f => slotWord 0x16 g (bitsSR f)
  | .minn g f => slotWord 0x17 g (bitsSR f)
  | .maxn g f => slotWord 0x18 g (bitsSR f)
  | .sel g f => slotWord 0x19 g (bitsSR f)
  | .lea g f => slotWord 0x1A g (bitsSR f)
  | .cmp g f => slotWord 0x1B g (bitsSR f)
  | .addi g f => slotWord 0x20 g (bitsSI f)
  | .andi g f => slotWord 0x21 g (bitsSI f)
  | .ori g f => slotWord 0x22 g (bitsSI f)
  | .xori g f => slotWord 0x23 g (bitsSI f)
  | .movi g f => slotWord 0x24 g (bitsSI f)
  | .movhi g f => slotWord 0x25 g (bitsSI f)
  | .pand g f => slotWord 0x30 g (bitsSR f)
  | .por g f => slotWord 0x31 g (bitsSR f)
  | .pxor g f => slotWord 0x32 g (bitsSR f)
  | .pnot g f => slotWord 0x33 g (bitsSR f)
  | .sfadd g f => slotWord 0x40 g (bitsSR f)
  | .sfsub g f => slotWord 0x41 g (bitsSR f)
  | .sfmul g f => slotWord 0x42 g (bitsSR f)
  | .sffma g f => slotWord 0x43 g (bitsSR f)
  | .sfdiv g f => slotWord 0x44 g (bitsSR f)
  | .sfsqrt g f => slotWord 0x45 g (bitsSR f)
  | .sfcmp g f => slotWord 0x46 g (bitsSR f)
  | .sfcvtI32 g f => slotWord 0x47 g (bitsSR f)
  | .sfcvtF32 g f => slotWord 0x48 g (bitsSR f)
  | .sigget g f => slotWord 0x49 g (bitsSR f)
  | .sigset g f => slotWord 0x4A g (bitsSR f)
  | .br g f => slotWord 0x60 g (bitsSB f)
  | .brp g f => slotWord 0x61 g (bitsSB f)
  | .brsig g f => slotWord 0x62 g (bitsSB f)
  | .loop g f => slotWord 0x63 g (bitsSB f)
  | .call g f => slotWord 0x64 g (bitsSB f)
  | .bri g f => slotWord 0x65 g (bitsSR f)
  | .ret g f => slotWord 0x66 g (bitsSR f)
  | .cread g f => slotWord 0x68 g (bitsSR f)
  | .cwrite g f => slotWord 0x69 g (bitsSR f)
  | .vadd g _ f => slotWord 0x01 g (bitsV f)
  | .vsub g _ f => slotWord 0x02 g (bitsV f)
  | .vmul g _ f => slotWord 0x03 g (bitsV f)
  | .vmulh g _ f => slotWord 0x04 g (bitsV f)
  | .vmad g _ f => slotWord 0x05 g (bitsV f)
  | .vand g _ f => slotWord 0x06 g (bitsV f)
  | .vor g _ f => slotWord 0x07 g (bitsV f)
  | .vxor g _ f => slotWord 0x08 g (bitsV f)
  | .vnot g _ f => slotWord 0x09 g (bitsV f)
  | .vshl g _ f => slotWord 0x0A g (bitsV f)
  | .vshr g _ f => slotWord 0x0B g (bitsV f)
  | .vsar g _ f => slotWord 0x0C g (bitsV f)
  | .vmin g _ f => slotWord 0x0D g (bitsV f)
  | .vmax g _ f => slotWord 0x0E g (bitsV f)
  | .vabsdiff g _ f => slotWord 0x0F g (bitsV f)
  | .vcmp g _ f => slotWord 0x10 g (bitsV f)
  | .vsel g _ f => slotWord 0x11 g (bitsV f)
  | .vpopc g _ f => slotWord 0x12 g (bitsV f)
  | .vfadd g _ f => slotWord 0x48 g (bitsV f)
  | .vfsub g _ f => slotWord 0x49 g (bitsV f)
  | .vfmul g _ f => slotWord 0x4A g (bitsV f)
  | .vffma g _ f => slotWord 0x4B g (bitsV f)
  | .vfmin g _ f => slotWord 0x4C g (bitsV f)
  | .vfmax g _ f => slotWord 0x4D g (bitsV f)
  | .vfabs g _ f => slotWord 0x4E g (bitsV f)
  | .vfneg g _ f => slotWord 0x4F g (bitsV f)
  | .vfcmp g _ f => slotWord 0x50 g (bitsV f)
  | .vrcp g _ f => slotWord 0x58 g (bitsV f)
  | .vrsqrt g _ f => slotWord 0x59 g (bitsV f)
  | .vexp2 g _ f => slotWord 0x5A g (bitsV f)
  | .vlog2 g _ f => slotWord 0x5B g (bitsV f)
  | .vsigm g _ f => slotWord 0x5C g (bitsV f)
  | .vcvt g _ f => slotWord 0x60 g (bitsV f)
  | .vcbdec g _ f => slotWord 0x61 g (bitsV f)
  | .vcbenc g _ f => slotWord 0x62 g (bitsV f)
  | .vplane g _ f => slotWord 0x68 g (bitsV f)
  | .vunplane g _ f => slotWord 0x69 g (bitsV f)
  | .vpadd g _ f => slotWord 0x6A g (bitsV f)
  | .vpsub g _ f => slotWord 0x6B g (bitsV f)
  | .vpand g _ f => slotWord 0x6C g (bitsV f)
  | .vpcnt g _ f => slotWord 0x6D g (bitsV f)
  | .vrsum g _ f => slotWord 0x70 g (bitsV f)
  | .vrmax g _ f => slotWord 0x71 g (bitsV f)
  | .vrmin g _ f => slotWord 0x72 g (bitsV f)
  | .vrsigmin g _ f => slotWord 0x73 g (bitsV f)
  | .vbcast g _ f => slotWord 0x74 g (bitsV f)
  | .vext g _ f => slotWord 0x75 g (bitsV f)
  | .vins g _ f => slotWord 0x76 g (bitsV f)
  | .vperm g _ f => slotWord 0x77 g (bitsV f)
  | .vshiftl g _ f => slotWord 0x78 g (bitsV f)
  | .viota g _ f => slotWord 0x79 g (bitsV f)
  | .vmov g _ f => slotWord 0x7A g (bitsV f)
  | .vfill g _ f => slotWord 0x7B g (bitsV f)
  | .vsig g _ f => slotWord 0x80 g (bitsV f)
  | .vsigset g _ f => slotWord 0x81 g (bitsV f)
  | .vfmt g _ f => slotWord 0x82 g (bitsV f)
  | .kand g _ f => slotWord 0x90 g (bitsV f)
  | .kor g _ f => slotWord 0x91 g (bitsV f)
  | .knot g _ f => slotWord 0x92 g (bitsV f)
  | .kpopc g _ f => slotWord 0x93 g (bitsV f)
  | .lease g f => slotWord 0x01 g (bitsXC f)
  | .leaseTry g f => slotWord 0x02 g (bitsXC f)
  | .unlease g f => slotWord 0x03 g (bitsXC f)
  | .chainBegin g f => slotWord 0x08 g (bitsXC f)
  | .chainEnd g f => slotWord 0x09 g (bitsXC f)
  | .mmaBf16 g f => slotWord 0x10 g (bitsEN f)
  | .mmaCb4 g f => slotWord 0x11 g (bitsEN f)
  | .mmaPlane g f => slotWord 0x12 g (bitsEN f)
  | .mgath g f => slotWord 0x18 g (bitsEN f)
  | .mldb g f => slotWord 0x19 g (bitsEN f)
  | .cbload g f => slotWord 0x1A g (bitsEN f)
  | .accZero g f => slotWord 0x20 g (bitsEN f)
  | .accRd g f => slotWord 0x21 g (bitsEN f)
  | .accWr g f => slotWord 0x22 g (bitsEN f)
  | .ldsRow g f => slotWord 0x01 g (bitsMX f)
  | .ldsW32 g f => slotWord 0x02 g (bitsMX f)
  | .ldsW64 g f => slotWord 0x03 g (bitsMX f)
  | .ldgRow g f => slotWord 0x08 g (bitsMX f)
  | .ldgW32 g f => slotWord 0x09 g (bitsMX f)
  | .ldgW64 g f => slotWord 0x0A g (bitsMX f)
  | .ldgTag g f => slotWord 0x0B g (bitsMX f)
  | .pfg g f => slotWord 0x10 g (bitsMX f)
  | .ldqDrop g f => slotWord 0x11 g (bitsMX f)
  | .stsRow g f => slotWord 0x01 g (bitsMX f)
  | .stsW32 g f => slotWord 0x02 g (bitsMX f)
  | .stsW64 g f => slotWord 0x03 g (bitsMX f)
  | .stgRow g f => slotWord 0x08 g (bitsMX f)
  | .stgW32 g f => slotWord 0x09 g (bitsMX f)
  | .stgW64 g f => slotWord 0x0A g (bitsMX f)
  | .stgTag g f => slotWord 0x0B g (bitsMX f)
  | .atomAdd g f => slotWord 0x20 g (bitsMX f)
  | .atomMin g f => slotWord 0x21 g (bitsMX f)
  | .atomMax g f => slotWord 0x22 g (bitsMX f)
  | .atomAnd g f => slotWord 0x23 g (bitsMX f)
  | .atomOr g f => slotWord 0x24 g (bitsMX f)
  | .atomXor g f => slotWord 0x25 g (bitsMX f)
  | .atomXchg g f => slotWord 0x26 g (bitsMX f)
  | .atomCas g f => slotWord 0x27 g (bitsMX f)
  | .atomFadd g f => slotWord 0x28 g (bitsMX f)
  | .satom g f => slotWord 0x30 g (bitsMX f)
  | .cpyTen g f => slotWord 0x01 g (bitsEN f)
  | .cpyRow g f => slotWord 0x02 g (bitsEN f)
  | .cpyGath g f => slotWord 0x03 g (bitsEN f)
  | .cpyScat g f => slotWord 0x04 g (bitsEN f)
  | .cpySpad g f => slotWord 0x05 g (bitsEN f)
  | .cpyBind g f => slotWord 0x06 g (bitsEN f)
  | .cpyBindOff g f => slotWord 0x06 g (bitsEN f)
  | .cpyRed g f => slotWord 0x07 g (bitsEN f)
  | .cpyFill g f => slotWord 0x08 g (bitsEN f)
  | .cpyPoll g f => slotWord 0x10 g (bitsXC f)
  | .cpyPollWin g f => slotWord 0x10 g (bitsXC f)
  | .cpyCancel g f => slotWord 0x11 g (bitsXC f)
  | .cpyCancelAll g f => slotWord 0x11 g (bitsXC f)
  | .tmap g f => slotWord 0x18 g (bitsXC f)
  | .berthSet g f => slotWord 0x19 g (bitsXC f)
  | .semInit g f => slotWord 0x01 g (bitsSY f)
  | .semPost g f => slotWord 0x02 g (bitsSY f)
  | .semWait g f => slotWord 0x03 g (bitsSY f)
  | .semTry g f => slotWord 0x04 g (bitsSY f)
  | .barInit g f => slotWord 0x08 g (bitsSY f)
  | .barArrive g f => slotWord 0x09 g (bitsSY f)
  | .barExpect g f => slotWord 0x0A g (bitsSY f)
  | .barWait g f => slotWord 0x0B g (bitsSY f)
  | .barTest g f => slotWord 0x0C g (bitsSY f)
  | .gbar g f => slotWord 0x0D g (bitsXC f)
  | .moor g f => slotWord 0x10 g (bitsSY f)
  | .unmoor g f => slotWord 0x11 g (bitsSY f)
  | .acq g f => slotWord 0x12 g (bitsSY f)
  | .rel g f => slotWord 0x13 g (bitsSY f)
  | .fence g f => slotWord 0x14 g (bitsXC f)
  | .tkwait g f => slotWord 0x18 g (bitsXC f)
  | .tkclr g f => slotWord 0x19 g (bitsXC f)
  | .pipePush g f => slotWord 0x20 g (bitsSY f)
  | .pipePop g f => slotWord 0x21 g (bitsSY f)
  | .pipePopTry g f => slotWord 0x21 g (bitsSY f)
  | .qPush g f => slotWord 0x28 g (bitsSY f)
  | .qPop g f => slotWord 0x29 g (bitsSY f)
  | .qPopTry g f => slotWord 0x29 g (bitsSY f)
  | .qTry g f => slotWord 0x2A g (bitsSY f)
  | .qPeek g f => slotWord 0x2B g (bitsSY f)
  | .qInfo g f => slotWord 0x2C g (bitsSY f)
  | .spawn g f => slotWord 0x30 g (bitsSY f)
  | .taskEnd g f => slotWord 0x31 g (bitsXC f)
  | .taskAbandon g f => slotWord 0x32 g (bitsXC f)
  | .tsGet g f => slotWord 0x33 g (bitsSY f)
  | .bankRel g f => slotWord 0x38 g (bitsXC f)
  | .hintSucc g f => slotWord 0x39 g (bitsXC f)
  | .waitvis g f => slotWord 0x3A g (bitsXC f)
  | .complete g f => slotWord 0x3B g (bitsSY f)
  | .phase g f => slotWord 0x3C g (bitsXC f)
  | .trap g f => slotWord 0x40 g (bitsXC f)
  | .rett g f => slotWord 0x41 g (bitsXC f)
  | .yield g f => slotWord 0x42 g (bitsXC f)
  | .sleep g f => slotWord 0x43 g (bitsXC f)
  | .endCtx g f => slotWord 0x44 g (bitsXC f)
  | .nop _ => 0
  | .resultVisible _ => 0
  | .trapEntry _ => 0
  | .loadEntryReturn _ => 0
  | .globalAccessPerformed _ _ _ => 0
  | .atomicAtHome _ => 0
  | .pageWalkComplete _ => 0
  | .copyStart _ _ => 0
  | .berthGrant _ => 0
  | .copySector _ _ _ _ => 0
  | .streamRowArrive _ _ _ => 0
  | .sectorPost _ => 0
  | .syncOpAtHome _ => 0
  | .syncAnswer _ => 0
  | .queueOpAtHome _ => 0
  | .pipeRowArrive _ => 0
  | .tokenWaitRelease _ => 0
  | .leaseGrant _ => 0
  | .mmaStep _ _ _ _ _ => 0
  | .mgathFill _ _ => 0
  | .mldbLoad _ _ => 0
  | .accOpPerformed _ _ => 0
  | .chainComplete _ => 0
  | .chainOverrun _ => 0
  | .sleepDeadline _ => 0
  | .preemptRequest _ => 0
  | .contextSave _ => 0
  | .restoreRequest _ => 0
  | .contextRestore _ => 0
  | .launchPop => 0
  | .ticketReserve _ => 0
  | .preemptTimeout _ => 0
  | .groupReady _ => 0
  | .bankFree _ _ => 0
  | .completionRecordWrite _ => 0
  | .nodeFire _ => 0
  | .auditReplay _ => 0
  | .auditCompare _ => 0
  | .taskDispatch _ _ => 0
  | .taskCommit _ => 0
  | .domainComplete _ => 0
  | .loadCodeObject _ => 0
  | .unload _ => 0
  | .domainOpen _ => 0
  | .nodeReleaseCancel _ => 0
  | .readMarginTable _ => 0
  | .attestationQuote _ => 0
  | .keyLoad _ => 0
  | .keyRevoke _ => 0
  | .raiseMinsvn _ => 0
  | .guardBandHint _ => 0
  | .writeSignerDigest _ => 0
  | .lqtailWrite _ _ _ => 0
  | .lqcfgWrite _ _ _ => 0
  | .tinvWrite _ _ => 0
  | .tsyncRead _ => 0
  | .partWrite _ _ _ => 0
  | .pwinWrite _ _ => 0
  | .injWrite _ _ => 0
  | .devidWrite _ => 0
  | .rlogheadWrite _ => 0
  | .registerWrite _ => 0
  | .deviceReset _ => 0
  | .functionLevelReset _ => 0
  | .timingReplay _ _ => 0
  | .marginUpWindow _ => 0
  | .marginDownWindow _ => 0
  | .tileDrained _ => 0
  | .powerStateEnter _ => 0
  | .tileWake _ => 0
  | .powerMeasure _ _ => 0
  | .boostLeaseExpire _ => 0
  | .budgetMessage _ => 0
  | .budgetLeaseExpire _ => 0
  | .thermalLimit => 0
  | .dramQuarantine _ => 0
  | .ucieLinkDown _ => 0
  | .portRetrain _ => 0
  | .portTraining _ _ _ _ => 0
  | .timeSync _ => 0
  | .remoteAccess _ => 0
  | .hostMemoryWrite _ _ _ => 0
  | .tmapCbloadReadArrive _ => 0
  | .mbdoorWrite _ _ => 0
  | .launchCancel _ => 0
  | .thermalRecovery => 0
  | .wearIntegration _ _ _ _ => 0
  | .hbmScrub _ _ => 0
  | .clockStretch _ _ => 0

/-- The guard of an operation. -/
def guardOf : Instr → Guard
  | .add g _ => g
  | .sub g _ => g
  | .mul g _ => g
  | .mulh g _ => g
  | .mulhn g _ => g
  | .div g _ => g
  | .divn g _ => g
  | .rem g _ => g
  | .remn g _ => g
  | .and g _ => g
  | .or g _ => g
  | .xor g _ => g
  | .andn g _ => g
  | .shl g _ => g
  | .shr g _ => g
  | .sar g _ => g
  | .rot g _ => g
  | .clz g _ => g
  | .ctz g _ => g
  | .popc g _ => g
  | .min g _ => g
  | .max g _ => g
  | .minn g _ => g
  | .maxn g _ => g
  | .sel g _ => g
  | .lea g _ => g
  | .cmp g _ => g
  | .addi g _ => g
  | .andi g _ => g
  | .ori g _ => g
  | .xori g _ => g
  | .movi g _ => g
  | .movhi g _ => g
  | .pand g _ => g
  | .por g _ => g
  | .pxor g _ => g
  | .pnot g _ => g
  | .sfadd g _ => g
  | .sfsub g _ => g
  | .sfmul g _ => g
  | .sffma g _ => g
  | .sfdiv g _ => g
  | .sfsqrt g _ => g
  | .sfcmp g _ => g
  | .sfcvtI32 g _ => g
  | .sfcvtF32 g _ => g
  | .sigget g _ => g
  | .sigset g _ => g
  | .br g _ => g
  | .brp g _ => g
  | .brsig g _ => g
  | .loop g _ => g
  | .call g _ => g
  | .bri g _ => g
  | .ret g _ => g
  | .cread g _ => g
  | .cwrite g _ => g
  | .vadd g _ _ => g
  | .vsub g _ _ => g
  | .vmul g _ _ => g
  | .vmulh g _ _ => g
  | .vmad g _ _ => g
  | .vand g _ _ => g
  | .vor g _ _ => g
  | .vxor g _ _ => g
  | .vnot g _ _ => g
  | .vshl g _ _ => g
  | .vshr g _ _ => g
  | .vsar g _ _ => g
  | .vmin g _ _ => g
  | .vmax g _ _ => g
  | .vabsdiff g _ _ => g
  | .vcmp g _ _ => g
  | .vsel g _ _ => g
  | .vpopc g _ _ => g
  | .vfadd g _ _ => g
  | .vfsub g _ _ => g
  | .vfmul g _ _ => g
  | .vffma g _ _ => g
  | .vfmin g _ _ => g
  | .vfmax g _ _ => g
  | .vfabs g _ _ => g
  | .vfneg g _ _ => g
  | .vfcmp g _ _ => g
  | .vrcp g _ _ => g
  | .vrsqrt g _ _ => g
  | .vexp2 g _ _ => g
  | .vlog2 g _ _ => g
  | .vsigm g _ _ => g
  | .vcvt g _ _ => g
  | .vcbdec g _ _ => g
  | .vcbenc g _ _ => g
  | .vplane g _ _ => g
  | .vunplane g _ _ => g
  | .vpadd g _ _ => g
  | .vpsub g _ _ => g
  | .vpand g _ _ => g
  | .vpcnt g _ _ => g
  | .vrsum g _ _ => g
  | .vrmax g _ _ => g
  | .vrmin g _ _ => g
  | .vrsigmin g _ _ => g
  | .vbcast g _ _ => g
  | .vext g _ _ => g
  | .vins g _ _ => g
  | .vperm g _ _ => g
  | .vshiftl g _ _ => g
  | .viota g _ _ => g
  | .vmov g _ _ => g
  | .vfill g _ _ => g
  | .vsig g _ _ => g
  | .vsigset g _ _ => g
  | .vfmt g _ _ => g
  | .kand g _ _ => g
  | .kor g _ _ => g
  | .knot g _ _ => g
  | .kpopc g _ _ => g
  | .lease g _ => g
  | .leaseTry g _ => g
  | .unlease g _ => g
  | .chainBegin g _ => g
  | .chainEnd g _ => g
  | .mmaBf16 g _ => g
  | .mmaCb4 g _ => g
  | .mmaPlane g _ => g
  | .mgath g _ => g
  | .mldb g _ => g
  | .cbload g _ => g
  | .accZero g _ => g
  | .accRd g _ => g
  | .accWr g _ => g
  | .ldsRow g _ => g
  | .ldsW32 g _ => g
  | .ldsW64 g _ => g
  | .ldgRow g _ => g
  | .ldgW32 g _ => g
  | .ldgW64 g _ => g
  | .ldgTag g _ => g
  | .pfg g _ => g
  | .ldqDrop g _ => g
  | .stsRow g _ => g
  | .stsW32 g _ => g
  | .stsW64 g _ => g
  | .stgRow g _ => g
  | .stgW32 g _ => g
  | .stgW64 g _ => g
  | .stgTag g _ => g
  | .atomAdd g _ => g
  | .atomMin g _ => g
  | .atomMax g _ => g
  | .atomAnd g _ => g
  | .atomOr g _ => g
  | .atomXor g _ => g
  | .atomXchg g _ => g
  | .atomCas g _ => g
  | .atomFadd g _ => g
  | .satom g _ => g
  | .cpyTen g _ => g
  | .cpyRow g _ => g
  | .cpyGath g _ => g
  | .cpyScat g _ => g
  | .cpySpad g _ => g
  | .cpyBind g _ => g
  | .cpyBindOff g _ => g
  | .cpyRed g _ => g
  | .cpyFill g _ => g
  | .cpyPoll g _ => g
  | .cpyPollWin g _ => g
  | .cpyCancel g _ => g
  | .cpyCancelAll g _ => g
  | .tmap g _ => g
  | .berthSet g _ => g
  | .semInit g _ => g
  | .semPost g _ => g
  | .semWait g _ => g
  | .semTry g _ => g
  | .barInit g _ => g
  | .barArrive g _ => g
  | .barExpect g _ => g
  | .barWait g _ => g
  | .barTest g _ => g
  | .gbar g _ => g
  | .moor g _ => g
  | .unmoor g _ => g
  | .acq g _ => g
  | .rel g _ => g
  | .fence g _ => g
  | .tkwait g _ => g
  | .tkclr g _ => g
  | .pipePush g _ => g
  | .pipePop g _ => g
  | .pipePopTry g _ => g
  | .qPush g _ => g
  | .qPop g _ => g
  | .qPopTry g _ => g
  | .qTry g _ => g
  | .qPeek g _ => g
  | .qInfo g _ => g
  | .spawn g _ => g
  | .taskEnd g _ => g
  | .taskAbandon g _ => g
  | .tsGet g _ => g
  | .bankRel g _ => g
  | .hintSucc g _ => g
  | .waitvis g _ => g
  | .complete g _ => g
  | .phase g _ => g
  | .trap g _ => g
  | .rett g _ => g
  | .yield g _ => g
  | .sleep g _ => g
  | .endCtx g _ => g
  | .nop _ => ⟨0, false⟩
  | .resultVisible _ => ⟨0, false⟩
  | .trapEntry _ => ⟨0, false⟩
  | .loadEntryReturn _ => ⟨0, false⟩
  | .globalAccessPerformed _ _ _ => ⟨0, false⟩
  | .atomicAtHome _ => ⟨0, false⟩
  | .pageWalkComplete _ => ⟨0, false⟩
  | .copyStart _ _ => ⟨0, false⟩
  | .berthGrant _ => ⟨0, false⟩
  | .copySector _ _ _ _ => ⟨0, false⟩
  | .streamRowArrive _ _ _ => ⟨0, false⟩
  | .sectorPost _ => ⟨0, false⟩
  | .syncOpAtHome _ => ⟨0, false⟩
  | .syncAnswer _ => ⟨0, false⟩
  | .queueOpAtHome _ => ⟨0, false⟩
  | .pipeRowArrive _ => ⟨0, false⟩
  | .tokenWaitRelease _ => ⟨0, false⟩
  | .leaseGrant _ => ⟨0, false⟩
  | .mmaStep _ _ _ _ _ => ⟨0, false⟩
  | .mgathFill _ _ => ⟨0, false⟩
  | .mldbLoad _ _ => ⟨0, false⟩
  | .accOpPerformed _ _ => ⟨0, false⟩
  | .chainComplete _ => ⟨0, false⟩
  | .chainOverrun _ => ⟨0, false⟩
  | .sleepDeadline _ => ⟨0, false⟩
  | .preemptRequest _ => ⟨0, false⟩
  | .contextSave _ => ⟨0, false⟩
  | .restoreRequest _ => ⟨0, false⟩
  | .contextRestore _ => ⟨0, false⟩
  | .launchPop => ⟨0, false⟩
  | .ticketReserve _ => ⟨0, false⟩
  | .preemptTimeout _ => ⟨0, false⟩
  | .groupReady _ => ⟨0, false⟩
  | .bankFree _ _ => ⟨0, false⟩
  | .completionRecordWrite _ => ⟨0, false⟩
  | .nodeFire _ => ⟨0, false⟩
  | .auditReplay _ => ⟨0, false⟩
  | .auditCompare _ => ⟨0, false⟩
  | .taskDispatch _ _ => ⟨0, false⟩
  | .taskCommit _ => ⟨0, false⟩
  | .domainComplete _ => ⟨0, false⟩
  | .loadCodeObject _ => ⟨0, false⟩
  | .unload _ => ⟨0, false⟩
  | .domainOpen _ => ⟨0, false⟩
  | .nodeReleaseCancel _ => ⟨0, false⟩
  | .readMarginTable _ => ⟨0, false⟩
  | .attestationQuote _ => ⟨0, false⟩
  | .keyLoad _ => ⟨0, false⟩
  | .keyRevoke _ => ⟨0, false⟩
  | .raiseMinsvn _ => ⟨0, false⟩
  | .guardBandHint _ => ⟨0, false⟩
  | .writeSignerDigest _ => ⟨0, false⟩
  | .lqtailWrite _ _ _ => ⟨0, false⟩
  | .lqcfgWrite _ _ _ => ⟨0, false⟩
  | .tinvWrite _ _ => ⟨0, false⟩
  | .tsyncRead _ => ⟨0, false⟩
  | .partWrite _ _ _ => ⟨0, false⟩
  | .pwinWrite _ _ => ⟨0, false⟩
  | .injWrite _ _ => ⟨0, false⟩
  | .devidWrite _ => ⟨0, false⟩
  | .rlogheadWrite _ => ⟨0, false⟩
  | .registerWrite _ => ⟨0, false⟩
  | .deviceReset _ => ⟨0, false⟩
  | .functionLevelReset _ => ⟨0, false⟩
  | .timingReplay _ _ => ⟨0, false⟩
  | .marginUpWindow _ => ⟨0, false⟩
  | .marginDownWindow _ => ⟨0, false⟩
  | .tileDrained _ => ⟨0, false⟩
  | .powerStateEnter _ => ⟨0, false⟩
  | .tileWake _ => ⟨0, false⟩
  | .powerMeasure _ _ => ⟨0, false⟩
  | .boostLeaseExpire _ => ⟨0, false⟩
  | .budgetMessage _ => ⟨0, false⟩
  | .budgetLeaseExpire _ => ⟨0, false⟩
  | .thermalLimit => ⟨0, false⟩
  | .dramQuarantine _ => ⟨0, false⟩
  | .ucieLinkDown _ => ⟨0, false⟩
  | .portRetrain _ => ⟨0, false⟩
  | .portTraining _ _ _ _ => ⟨0, false⟩
  | .timeSync _ => ⟨0, false⟩
  | .remoteAccess _ => ⟨0, false⟩
  | .hostMemoryWrite _ _ _ => ⟨0, false⟩
  | .tmapCbloadReadArrive _ => ⟨0, false⟩
  | .mbdoorWrite _ _ => ⟨0, false⟩
  | .launchCancel _ => ⟨0, false⟩
  | .thermalRecovery => ⟨0, false⟩
  | .wearIntegration _ _ _ _ => ⟨0, false⟩
  | .hbmScrub _ _ => ⟨0, false⟩
  | .clockStretch _ _ => ⟨0, false⟩

/-! ### Bundles -/

/-- Why a bundle is rejected. -/
inductive Illegal where
  /-- fewer than 64 bytes -/
  | short
  /-- reserved control-word bits not zero, or a repeat field with REP 0 (R30, R31) -/
  | control
  /-- an opcode the map leaves unassigned in its slot, or an empty slot with bits 51:0 not zero (R32) -/
  | opcode (slot : Nat)
  /-- an operand field against its format or its instruction's rule (R32 to R36) -/
  | operands (slot : Nat)
  /-- a control transfer or a context instruction in a repeated bundle (R51) -/
  | repeated
  /-- a control transfer in slot S with a context instruction in slot Y (R156, R342, R424) -/
  | twoTransfers
  /-- RETT beside another operation (R342) -/
  | rettAlone
  /-- YIELD without SWP (R342) -/
  | yieldSwitch
  deriving DecidableEq, Repr

/-- Control transfers of slot S (R51). -/
def isBranch : Instr → Bool
  | .br _ _ | .brp _ _ | .brsig _ _ | .loop _ _ | .call _ _ | .bri _ _ | .ret _ _ => true
  | _ => false
/-- Context instructions of slot Y, and the two that end a task (R51, R342, R424). -/
def isContext : Instr → Bool
  | .trap _ _ | .rett _ _ | .yield _ _ | .sleep _ _ | .endCtx _ _ | .taskEnd _ _ | .taskAbandon _ _ => true
  | _ => false
def isRett : Instr → Bool
  | .rett _ _ => true
  | _ => false
def isYield : Instr → Bool
  | .yield _ _ => true
  | _ => false

/-- Slot `i` of a bundle (R28). -/
def bundleSlot (b : Bundle) (i : Nat) : SlotBits := b.extractLsb' (32 + 60 * i) 60
def bundleCtl (b : Bundle) : BitVec 32 := b.extractLsb' 0 32

/-- The operations of slots `i`, `i + 1`, … of a bundle, `n` of them, in slot order. -/
def decodeSlots (b : Bundle) : Nat → Nat → Except Illegal (List Instr)
  | 0, _ => .ok []
  | n + 1, i =>
    let x := bundleSlot b i
    if slotOp x = 0 then
      if x = 0 then decodeSlots b n (i + 1) else .error (.opcode i)
    else match decodeSlot i x with
      | none => .error (.opcode i)
      | some ins =>
        if wfInstr ins then
          match decodeSlots b n (i + 1) with
          | .ok l => .ok (ins :: l)
          | .error e => .error e
        else .error (.operands i)

/-- The rules on a whole bundle. -/
def bundleRules (ctl : BitVec 32) (ops : List Instr) : Except Illegal Unit :=
  if !legCtl ctl then .error .control
  else if ctlRep ctl && ops.any (fun i => isBranch i || isContext i) then .error .repeated
  else if ops.any isBranch && ops.any isContext then .error .twoTransfers
  else if ops.any isRett && ops.length != 1 then .error .rettAlone
  else if ops.any isYield && !ctlSwp ctl then .error .yieldSwitch
  else .ok ()

/-- A bundle's control word and operations in slot order, or why it is illegal. -/
def decodeBundle (b : Bundle) : Except Illegal (BitVec 32 × List Instr) :=
  match decodeSlots b 8 0 with
  | .error e => .error e
  | .ok ops =>
    match bundleRules (bundleCtl b) ops with
    | .error e => .error e
    | .ok _ => .ok (bundleCtl b, ops)

/-- A bundle from its 64 bytes (R28). -/
def bundleOfBytes (l : List Byte) : Bundle := BitVec.ofNat 512 (leNat l)

/-- Decode any bytes: the first 64 are the bundle, the others are left over. -/
def decode (l : List Byte) : Except Illegal ((BitVec 32 × List Instr) × List Byte) :=
  if l.length < 64 then .error .short
  else match decodeBundle (bundleOfBytes (l.take 64)) with
    | .ok r => .ok (r, l.drop 64)
    | .error e => .error e

/-- The bundle that carries these operations under a control word. -/
def encodeBundle (ctl : BitVec 32) (ops : List Instr) : Bundle :=
  ops.foldl (fun b i => match slotOf i with
    | some k => b ||| ((encodeSlot i).setWidth 512 <<< (32 + 60 * k))
    | none => b) (ctl.setWidth 512)

/-- The control word under which an operation stands alone: YIELD needs SWP (R342). -/
def aloneCtl : Instr → BitVec 32
  | .yield _ _ => 1
  | .nop ctl => ctl
  | _ => 0

/-- The words of an instruction that stands alone in its bundle; a happening of the device has no encoding. -/
def encode (i : Instr) : Option Bundle :=
  match i with
  | .nop ctl => some (ctl.setWidth 512)
  | _ => if (slotOf i).isSome then some (encodeBundle (aloneCtl i) [i]) else none

/-- The instruction a bundle's first operation is, or NOP (for the host's table words). -/
def headInstr : BitVec 32 × List Instr → Instr
  | (ctl, []) => .nop ctl
  | (_, i :: _) => i

/-- The instruction read from a bundle of which the low `nbits` bits are `w` and the others zero. -/
def decodeTableWord (nbits w : Nat) : Option Instr :=
  match decodeBundle (BitVec.ofNat 512 (w % 2 ^ nbits)) with
  | .ok r => some (headInstr r)
  | .error _ => none

end Sys2Proof
end

