-- ==== Sys2Proof/Machine/Shape.lean ====
section
/-!
DEFINITION. What each operation reads, by its fields: the row selectors, the scalars in field order, the predicates,
the mask, and whether it names the old destination row. Written from the formats (02 R33) and the instructions' own
tables; used to capture operands (R53, R339), to pop queues once per bundle (R37) and to find the produced token (R39).
-/
namespace Sys2Proof.Machine

/-- Source selectors with their operand positions: blocks 0, 1, 2 of a replay entry. -/
def selSrcs : Instr → List (Nat × BitVec 10)
  | .vadd _ _ f => [(0, f.a), (1, f.b)]
  | .vsub _ _ f => [(0, f.a), (1, f.b)]
  | .vmul _ _ f => [(0, f.a), (1, f.b)]
  | .vmulh _ _ f => [(0, f.a), (1, f.b)]
  | .vmad _ _ f => [(0, f.a), (1, f.b), (2, f.c)]
  | .vand _ _ f => [(0, f.a), (1, f.b)]
  | .vor _ _ f => [(0, f.a), (1, f.b)]
  | .vxor _ _ f => [(0, f.a), (1, f.b)]
  | .vnot _ _ f => [(0, f.a)]
  | .vshl _ _ f => [(0, f.a), (1, f.b)]
  | .vshr _ _ f => [(0, f.a), (1, f.b)]
  | .vsar _ _ f => [(0, f.a), (1, f.b)]
  | .vmin _ _ f => [(0, f.a), (1, f.b)]
  | .vmax _ _ f => [(0, f.a), (1, f.b)]
  | .vabsdiff _ _ f => [(0, f.a), (1, f.b)]
  | .vcmp _ _ f => [(0, f.a), (1, f.b)]
  | .vsel _ _ f => [(0, f.a), (1, f.b)]
  | .vpopc _ _ f => [(0, f.a)]
  | .vfadd _ _ f => [(0, f.a), (1, f.b)]
  | .vfsub _ _ f => [(0, f.a), (1, f.b)]
  | .vfmul _ _ f => [(0, f.a), (1, f.b)]
  | .vffma _ _ f => [(0, f.a), (1, f.b), (2, f.c)]
  | .vfmin _ _ f => [(0, f.a), (1, f.b)]
  | .vfmax _ _ f => [(0, f.a), (1, f.b)]
  | .vfabs _ _ f => [(0, f.a)]
  | .vfneg _ _ f => [(0, f.a)]
  | .vfcmp _ _ f => [(0, f.a), (1, f.b)]
  | .vrcp _ _ f => [(0, f.a)]
  | .vrsqrt _ _ f => [(0, f.a)]
  | .vexp2 _ _ f => [(0, f.a)]
  | .vlog2 _ _ f => [(0, f.a)]
  | .vsigm _ _ f => [(0, f.a)]
  | .vcvt _ _ f => [(0, f.a)]
  | .vcbdec _ _ f => [(0, f.a)]
  | .vcbenc _ _ f => [(0, f.a)]
  | .vplane _ _ f => [(0, f.a)]
  | .vunplane _ _ f => [(0, f.a)]
  | .vpadd _ _ f => [(0, f.a), (1, f.b)]
  | .vpsub _ _ f => [(0, f.a), (1, f.b)]
  | .vpand _ _ f => [(0, f.a), (1, f.b)]
  | .vpcnt _ _ f => [(0, f.a)]
  | .vrsum _ _ f => [(0, f.a)]
  | .vrmax _ _ f => [(0, f.a)]
  | .vrmin _ _ f => [(0, f.a)]
  | .vrsigmin _ _ f => [(0, f.a)]
  | .vbcast _ _ f => [(0, f.a)]
  | .vext _ _ f => [(0, f.a)]
  | .vins _ _ f => [(0, f.a), (1, f.b)]
  | .vperm _ _ f => [(0, f.a), (1, f.b)]
  | .vshiftl _ _ f => if f.mod.getLsbD 3 then [(0, f.a), (1, f.b)] else [(0, f.a)]
  | .viota _ _ f => [(0, f.a)]
  | .vmov _ _ f => [(0, f.a)]
  | .vfill _ _ f => [(0, f.a)]
  | .vsig _ _ f => [(0, f.a)]
  | .vsigset _ _ f => [(0, f.a), (1, f.b)]
  | .vfmt _ _ f => [(0, f.a)]
  | .stsRow _ f => [(0, f.data)]
  | .stsW32 _ f => [(0, f.data)]
  | .stsW64 _ f => [(0, f.data)]
  | .stgRow _ f => [(0, f.data)]
  | .stgW32 _ f => [(0, f.data)]
  | .stgW64 _ f => [(0, f.data)]
  | .stgTag _ f => [(0, f.data)]
  | .atomAdd _ f => [(0, f.data)]
  | .atomMin _ f => [(0, f.data)]
  | .atomMax _ f => [(0, f.data)]
  | .atomAnd _ f => [(0, f.data)]
  | .atomOr _ f => [(0, f.data)]
  | .atomXor _ f => [(0, f.data)]
  | .atomXchg _ f => [(0, f.data)]
  | .atomCas _ f => [(0, f.data)]
  | .atomFadd _ f => [(0, f.data)]
  | .satom _ f => [(0, f.data)]
  | .pipePush _ f => [(1, syPipeSel f)]
  | .qPush _ f => [(1, syQSel f)]
  | .qTry _ f => [(1, syQSel f)]
  | .mgath _ f => [(1, f.ext.extractLsb' 11 10)]
  | _ => []

/-- The position an SR operation's QSEL replaces by a pop of the LDQ: 1 sa, 2 sb, 3 sc, 0 none (R139). -/
def qselOf (f : SRF) : Nat := bitsOf 17 2 f.ext.toNat

/-- Scalars read through a block of their own: position and register; the ones QSEL replaces are left out. -/
def blockScalars : Instr → List (Nat × BitVec 5)
  | .add _ f => srScalars f [(1, f.sa), (2, f.sb)]
  | .sub _ f => srScalars f [(1, f.sa), (2, f.sb)]
  | .mul _ f => srScalars f [(1, f.sa), (2, f.sb)]
  | .mulh _ f => srScalars f [(1, f.sa), (2, f.sb)]
  | .mulhn _ f => srScalars f [(1, f.sa), (2, f.sb)]
  | .div _ f => srScalars f [(1, f.sa), (2, f.sb)]
  | .divn _ f => srScalars f [(1, f.sa), (2, f.sb)]
  | .rem _ f => srScalars f [(1, f.sa), (2, f.sb)]
  | .remn _ f => srScalars f [(1, f.sa), (2, f.sb)]
  | .and _ f => srScalars f [(1, f.sa), (2, f.sb)]
  | .or _ f => srScalars f [(1, f.sa), (2, f.sb)]
  | .xor _ f => srScalars f [(1, f.sa), (2, f.sb)]
  | .andn _ f => srScalars f [(1, f.sa), (2, f.sb)]
  | .shl _ f => srScalars f (if f.ext.getLsbD 6 then [(1, f.sa)] else [(1, f.sa), (2, f.sb)])
  | .shr _ f => srScalars f (if f.ext.getLsbD 6 then [(1, f.sa)] else [(1, f.sa), (2, f.sb)])
  | .sar _ f => srScalars f (if f.ext.getLsbD 6 then [(1, f.sa)] else [(1, f.sa), (2, f.sb)])
  | .rot _ f => srScalars f (if f.ext.getLsbD 6 then [(1, f.sa)] else [(1, f.sa), (2, f.sb)])
  | .clz _ f => srScalars f [(1, f.sa)]
  | .ctz _ f => srScalars f [(1, f.sa)]
  | .popc _ f => srScalars f [(1, f.sa)]
  | .min _ f => srScalars f [(1, f.sa), (2, f.sb)]
  | .max _ f => srScalars f [(1, f.sa), (2, f.sb)]
  | .minn _ f => srScalars f [(1, f.sa), (2, f.sb)]
  | .maxn _ f => srScalars f [(1, f.sa), (2, f.sb)]
  | .sel _ f => srScalars f [(1, f.sa), (2, f.sb)]
  | .lea _ f => srScalars f (if f.ext.getLsbD 16 then [(1, f.sa)] else [(1, f.sa), (2, f.sb)])
  | .cmp _ f => srScalars f [(1, f.sa), (2, f.sb)]
  | .addi _ f => [(0, f.sa)]
  | .andi _ f => [(0, f.sa)]
  | .ori _ f => [(0, f.sa)]
  | .xori _ f => [(0, f.sa)]
  | .movhi _ f => [(0, f.sa)]
  | .sfadd _ f => srScalars f [(1, f.sa), (2, f.sb)]
  | .sfsub _ f => srScalars f [(1, f.sa), (2, f.sb)]
  | .sfmul _ f => srScalars f [(1, f.sa), (2, f.sb)]
  | .sffma _ f => srScalars f [(1, f.sa), (2, f.sb), (3, f.sc)]
  | .sfdiv _ f => srScalars f [(1, f.sa), (2, f.sb)]
  | .sfsqrt _ f => srScalars f [(1, f.sa)]
  | .sfcmp _ f => srScalars f [(1, f.sa), (2, f.sb)]
  | .sfcvtI32 _ f => srScalars f [(1, f.sa)]
  | .sfcvtF32 _ f => srScalars f [(1, f.sa)]
  | .sigget _ f => srScalars f [(1, f.sa)]
  | .sigset _ f => srScalars f [(1, f.sa), (2, f.sb)]
  | .brsig _ f => [(0, f.sa)]
  | .loop _ f => [(0, f.sa)]
  | .bri _ f => srScalars f [(1, f.sa), (2, f.sb)]
  | .ret _ f => srScalars f [(1, f.sa)]
  | .cwrite _ f => srScalars f [(1, f.sa)]
  | .ldsRow _ f => [(1, f.base), (2, f.index)]
  | .ldsW32 _ f => [(1, f.base), (2, f.index)]
  | .ldsW64 _ f => [(1, f.base), (2, f.index)]
  | .ldgRow _ f => [(1, f.base), (2, f.index)]
  | .ldgW32 _ f => [(1, f.base), (2, f.index)]
  | .ldgW64 _ f => [(1, f.base), (2, f.index)]
  | .ldgTag _ f => [(1, f.base), (2, f.index)]
  | .pfg _ f => [(1, f.base), (2, f.index)]
  | .stsRow _ f => [(1, f.base), (2, f.index)]
  | .stsW32 _ f => [(1, f.base), (2, f.index)]
  | .stsW64 _ f => [(1, f.base), (2, f.index)]
  | .stgRow _ f => [(1, f.base), (2, f.index)]
  | .stgW32 _ f => [(1, f.base), (2, f.index)]
  | .stgW64 _ f => [(1, f.base), (2, f.index)]
  | .stgTag _ f => [(1, f.base), (2, f.index)]
  | .atomAdd _ f => [(1, f.base), (2, f.index)]
  | .atomMin _ f => [(1, f.base), (2, f.index)]
  | .atomMax _ f => [(1, f.base), (2, f.index)]
  | .atomAnd _ f => [(1, f.base), (2, f.index)]
  | .atomOr _ f => [(1, f.base), (2, f.index)]
  | .atomXor _ f => [(1, f.base), (2, f.index)]
  | .atomXchg _ f => [(1, f.base), (2, f.index)]
  | .atomCas _ f => [(1, f.base), (2, f.index)]
  | .atomFadd _ f => [(1, f.base), (2, f.index)]
  | .satom _ f => [(1, f.base)]
  | .semInit _ f => [(0, f.sa), (1, f.sb)]
  | .semPost _ f => if sySrc f then [(0, f.sa), (1, f.sb)] else [(0, f.sa)]
  | .semWait _ f => if sySrc f then [(0, f.sa), (1, f.sb)] else [(0, f.sa)]
  | .semTry _ f => if sySrc f then [(0, f.sa), (1, f.sb)] else [(0, f.sa)]
  | .barInit _ f => [(0, f.sa), (1, f.sb)]
  | .barArrive _ f => if sySrc f then [(0, f.sa), (1, f.sb)] else [(0, f.sa)]
  | .barExpect _ f => if sySrc f then [(0, f.sa), (1, f.sb)] else [(0, f.sa)]
  | .barWait _ f => [(0, f.sa), (1, f.sb)]
  | .barTest _ f => [(0, f.sa), (1, f.sb)]
  | .moor _ f => [(0, f.sa), (1, f.sb)]
  | .acq _ f => if sySrc f then [(0, f.sa), (1, f.sb)] else [(0, f.sa)]
  | .rel _ f => [(0, f.sa)]
  | .qPush _ f => [(0, f.sa)]
  | .qPop _ f => [(0, f.sa)]
  | .qPopTry _ f => [(0, f.sa)]
  | .qTry _ f => [(0, f.sa)]
  | .qPeek _ f => [(0, f.sa)]
  | .qInfo _ f => [(0, f.sa)]
  | .spawn _ f => [(0, f.sa), (1, f.sb), (2, f.ext.extractLsb' 30 5)]
  | .complete _ f => [(0, f.sa)]
  | _ => []
where
  /-- Positions of an SR operation count from 1 in QSEL and from 0 in the entry's blocks. -/
  srScalars (f : SRF) (l : List (Nat × BitVec 5)) : List (Nat × BitVec 5) :=
    (l.filter fun x => x.1 != qselOf f).map fun x => (x.1 - 1, x.2)

/-- Whether the operation pops an LDQ entry in place of a scalar, and at which block (R139). -/
def qselPop : Instr → Option Nat
  | .add _ f => if qselOf f = 0 then none else some (qselOf f - 1)
  | .sub _ f => if qselOf f = 0 then none else some (qselOf f - 1)
  | .mul _ f => if qselOf f = 0 then none else some (qselOf f - 1)
  | .mulh _ f => if qselOf f = 0 then none else some (qselOf f - 1)
  | .mulhn _ f => if qselOf f = 0 then none else some (qselOf f - 1)
  | .div _ f => if qselOf f = 0 then none else some (qselOf f - 1)
  | .divn _ f => if qselOf f = 0 then none else some (qselOf f - 1)
  | .rem _ f => if qselOf f = 0 then none else some (qselOf f - 1)
  | .remn _ f => if qselOf f = 0 then none else some (qselOf f - 1)
  | .and _ f => if qselOf f = 0 then none else some (qselOf f - 1)
  | .or _ f => if qselOf f = 0 then none else some (qselOf f - 1)
  | .xor _ f => if qselOf f = 0 then none else some (qselOf f - 1)
  | .andn _ f => if qselOf f = 0 then none else some (qselOf f - 1)
  | .shl _ f => if qselOf f = 0 then none else some (qselOf f - 1)
  | .shr _ f => if qselOf f = 0 then none else some (qselOf f - 1)
  | .sar _ f => if qselOf f = 0 then none else some (qselOf f - 1)
  | .rot _ f => if qselOf f = 0 then none else some (qselOf f - 1)
  | .clz _ f => if qselOf f = 0 then none else some (qselOf f - 1)
  | .ctz _ f => if qselOf f = 0 then none else some (qselOf f - 1)
  | .popc _ f => if qselOf f = 0 then none else some (qselOf f - 1)
  | .min _ f => if qselOf f = 0 then none else some (qselOf f - 1)
  | .max _ f => if qselOf f = 0 then none else some (qselOf f - 1)
  | .minn _ f => if qselOf f = 0 then none else some (qselOf f - 1)
  | .maxn _ f => if qselOf f = 0 then none else some (qselOf f - 1)
  | .sel _ f => if qselOf f = 0 then none else some (qselOf f - 1)
  | .lea _ f => if qselOf f = 0 then none else some (qselOf f - 1)
  | .cmp _ f => if qselOf f = 0 then none else some (qselOf f - 1)
  | .pand _ f => if qselOf f = 0 then none else some (qselOf f - 1)
  | .por _ f => if qselOf f = 0 then none else some (qselOf f - 1)
  | .pxor _ f => if qselOf f = 0 then none else some (qselOf f - 1)
  | .pnot _ f => if qselOf f = 0 then none else some (qselOf f - 1)
  | .sfadd _ f => if qselOf f = 0 then none else some (qselOf f - 1)
  | .sfsub _ f => if qselOf f = 0 then none else some (qselOf f - 1)
  | .sfmul _ f => if qselOf f = 0 then none else some (qselOf f - 1)
  | .sffma _ f => if qselOf f = 0 then none else some (qselOf f - 1)
  | .sfdiv _ f => if qselOf f = 0 then none else some (qselOf f - 1)
  | .sfsqrt _ f => if qselOf f = 0 then none else some (qselOf f - 1)
  | .sfcmp _ f => if qselOf f = 0 then none else some (qselOf f - 1)
  | .sfcvtI32 _ f => if qselOf f = 0 then none else some (qselOf f - 1)
  | .sfcvtF32 _ f => if qselOf f = 0 then none else some (qselOf f - 1)
  | .sigget _ f => if qselOf f = 0 then none else some (qselOf f - 1)
  | .sigset _ f => if qselOf f = 0 then none else some (qselOf f - 1)
  | .bri _ f => if qselOf f = 0 then none else some (qselOf f - 1)
  | .ret _ f => if qselOf f = 0 then none else some (qselOf f - 1)
  | .cread _ f => if qselOf f = 0 then none else some (qselOf f - 1)
  | .cwrite _ f => if qselOf f = 0 then none else some (qselOf f - 1)
  | _ => none

/-- The `n` scalars from `r` on. -/
def scalarRun : Nat → BitVec 5 → List (BitVec 5)
  | 0, _ => []
  | n + 1, r => r :: scalarRun n (r + 1)

/-- Scalars of an engine operation, in field order: 8 bytes each from block 0 (R233, R339). `nc` is how many scalars
hold a tensor copy's coordinates. -/
def engineScalars (nc : Nat) : Instr → List (BitVec 5)
  | .cpyTen _ f => scalarRun nc (f.ext.extractLsb' 13 5) ++ [f.ext.extractLsb' 8 5, f.ext.extractLsb' 3 5]
  | .cpyGath _ f => scalarRun 2 (f.ext.extractLsb' 13 5) ++ [f.ext.extractLsb' 8 5, f.ext.extractLsb' 3 5]
  | .cpyScat _ f => scalarRun 2 (f.ext.extractLsb' 13 5) ++ [f.ext.extractLsb' 8 5, f.ext.extractLsb' 3 5]
  | .cpyRow _ f => [f.ext.extractLsb' 16 5, f.ext.extractLsb' 11 5, f.ext.extractLsb' 6 5]
  | .cpySpad _ f => [f.ext.extractLsb' 16 5, f.ext.extractLsb' 11 5, f.ext.extractLsb' 6 5, f.ext.extractLsb' 1 5]
  | .cpyBind _ f => [f.ext.extractLsb' 16 5]
  | .cpyRed _ f => [f.ext.extractLsb' 16 5, f.ext.extractLsb' 11 5, f.ext.extractLsb' 6 5, f.ext.extractLsb' 1 5]
  | .cpyFill _ f => [f.ext.extractLsb' 16 5, f.ext.extractLsb' 11 5, f.ext.extractLsb' 6 5, f.ext.extractLsb' 1 5]
  | .mmaBf16 _ f => [f.ext.extractLsb' 16 5, f.ext.extractLsb' 11 5, f.ext.extractLsb' 6 5]
  | .mmaCb4 _ f => [f.ext.extractLsb' 16 5, f.ext.extractLsb' 11 5, f.ext.extractLsb' 6 5]
  | .mmaPlane _ f => [f.ext.extractLsb' 16 5, f.ext.extractLsb' 11 5, f.ext.extractLsb' 6 5]
  | .mgath _ f => [f.ext.extractLsb' 6 5, f.ext.extractLsb' 1 5]
  | .mldb _ f => [f.ext.extractLsb' 16 5, f.ext.extractLsb' 11 5]
  | .cbload _ f => [f.ext.extractLsb' 16 5]
  | .tmap _ f => [f.ext.extractLsb' 43 5]
  | .sleep _ f => [f.ext.extractLsb' 43 5]
  | _ => []

/-- The tensor-map slot a copy names (R224). -/
def mapSlot : Instr → Option (BitVec 3)
  | .cpyTen _ f => some (f.ext.extractLsb' 18 3)
  | .cpyGath _ f => some (f.ext.extractLsb' 18 3)
  | .cpyScat _ f => some (f.ext.extractLsb' 18 3)
  | _ => none

/-- The lane mask an operation reads, by number (R94, R169, R213). -/
def maskSrc : Instr → BitVec 3
  | .vadd _ _ f => f.k
  | .vsub _ _ f => f.k
  | .vmul _ _ f => f.k
  | .vmulh _ _ f => f.k
  | .vmad _ _ f => f.k
  | .vand _ _ f => f.k
  | .vor _ _ f => f.k
  | .vxor _ _ f => f.k
  | .vnot _ _ f => f.k
  | .vshl _ _ f => f.k
  | .vshr _ _ f => f.k
  | .vsar _ _ f => f.k
  | .vmin _ _ f => f.k
  | .vmax _ _ f => f.k
  | .vabsdiff _ _ f => f.k
  | .vcmp _ _ f => f.k
  | .vsel _ _ f => f.k
  | .vpopc _ _ f => f.k
  | .vfadd _ _ f => f.k
  | .vfsub _ _ f => f.k
  | .vfmul _ _ f => f.k
  | .vffma _ _ f => f.k
  | .vfmin _ _ f => f.k
  | .vfmax _ _ f => f.k
  | .vfabs _ _ f => f.k
  | .vfneg _ _ f => f.k
  | .vfcmp _ _ f => f.k
  | .vrcp _ _ f => f.k
  | .vrsqrt _ _ f => f.k
  | .vexp2 _ _ f => f.k
  | .vlog2 _ _ f => f.k
  | .vsigm _ _ f => f.k
  | .vcvt _ _ f => f.k
  | .vcbdec _ _ f => f.k
  | .vcbenc _ _ f => f.k
  | .vplane _ _ f => f.k
  | .vunplane _ _ f => f.k
  | .vpadd _ _ f => f.k
  | .vpsub _ _ f => f.k
  | .vpand _ _ f => f.k
  | .vpcnt _ _ f => f.k
  | .vrsum _ _ f => f.k
  | .vrmax _ _ f => f.k
  | .vrmin _ _ f => f.k
  | .vrsigmin _ _ f => f.k
  | .vbcast _ _ f => f.k
  | .vext _ _ f => f.k
  | .vins _ _ f => f.k
  | .vperm _ _ f => f.k
  | .vshiftl _ _ f => f.k
  | .viota _ _ f => f.k
  | .vmov _ _ f => f.k
  | .vfill _ _ f => f.k
  | .vsig _ _ f => f.k
  | .vsigset _ _ f => f.k
  | .vfmt _ _ f => f.k
  | .stsRow _ f => f.mod.extractLsb' 0 3
  | .stgRow _ f => f.mod.extractLsb' 0 3
  | .stgTag _ f => f.mod.extractLsb' 0 3
  | _ => 0

/-- Masks read as operands, with their blocks (R193). -/
def maskOperands : Instr → List (Nat × BitVec 3)
  | .kand _ _ f => [(0, f.a.extractLsb' 0 3), (1, f.b.extractLsb' 0 3)]
  | .kor _ _ f => [(0, f.a.extractLsb' 0 3), (1, f.b.extractLsb' 0 3)]
  | .knot _ _ f => [(0, f.a.extractLsb' 0 3)]
  | .kpopc _ _ f => [(0, f.a.extractLsb' 0 3)]
  | _ => []

/-- The mask destination whose old value a compare under a lane mask keeps (R174, R178). -/
def oldMask : Instr → Option (BitVec 3)
  | .vcmp _ _ f => if f.k = 0 then none else some (f.dst.extractLsb' 0 3)
  | .vfcmp _ _ f => if f.k = 0 then none else some (f.dst.extractLsb' 0 3)
  | _ => none

/-- Predicates read as operands (R146, R150, R159). -/
def predSrcs : Instr → List (BitVec 3)
  | .pand _ f => [f.pa, f.pb]
  | .por _ f => [f.pa, f.pb]
  | .pxor _ f => [f.pa, f.pb]
  | .pnot _ f => [f.pa]
  | .sel _ f => [f.pa]
  | .brp _ f => [f.pa]
  | _ => []

/-- The row destination with the SMASK bit that strides it (R30, R47). -/
def rowDst : Instr → Option (Nat × BitVec 10)
  | .vadd _ b f => if f.t then none else some (if b then 24 else 22, f.dst)
  | .vsub _ b f => if f.t then none else some (if b then 24 else 22, f.dst)
  | .vmul _ b f => if f.t then none else some (if b then 24 else 22, f.dst)
  | .vmulh _ b f => if f.t then none else some (if b then 24 else 22, f.dst)
  | .vmad _ b f => if f.t then none else some (if b then 24 else 22, f.dst)
  | .vand _ b f => if f.t then none else some (if b then 24 else 22, f.dst)
  | .vor _ b f => if f.t then none else some (if b then 24 else 22, f.dst)
  | .vxor _ b f => if f.t then none else some (if b then 24 else 22, f.dst)
  | .vnot _ b f => if f.t then none else some (if b then 24 else 22, f.dst)
  | .vshl _ b f => if f.t then none else some (if b then 24 else 22, f.dst)
  | .vshr _ b f => if f.t then none else some (if b then 24 else 22, f.dst)
  | .vsar _ b f => if f.t then none else some (if b then 24 else 22, f.dst)
  | .vmin _ b f => if f.t then none else some (if b then 24 else 22, f.dst)
  | .vmax _ b f => if f.t then none else some (if b then 24 else 22, f.dst)
  | .vabsdiff _ b f => if f.t then none else some (if b then 24 else 22, f.dst)
  | .vsel _ b f => if f.t then none else some (if b then 24 else 22, f.dst)
  | .vpopc _ b f => if f.t then none else some (if b then 24 else 22, f.dst)
  | .vfadd _ b f => if f.t then none else some (if b then 24 else 22, f.dst)
  | .vfsub _ b f => if f.t then none else some (if b then 24 else 22, f.dst)
  | .vfmul _ b f => if f.t then none else some (if b then 24 else 22, f.dst)
  | .vffma _ b f => if f.t then none else some (if b then 24 else 22, f.dst)
  | .vfmin _ b f => if f.t then none else some (if b then 24 else 22, f.dst)
  | .vfmax _ b f => if f.t then none else some (if b then 24 else 22, f.dst)
  | .vfabs _ b f => if f.t then none else some (if b then 24 else 22, f.dst)
  | .vfneg _ b f => if f.t then none else some (if b then 24 else 22, f.dst)
  | .vrcp _ b f => if f.t then none else some (if b then 24 else 22, f.dst)
  | .vrsqrt _ b f => if f.t then none else some (if b then 24 else 22, f.dst)
  | .vexp2 _ b f => if f.t then none else some (if b then 24 else 22, f.dst)
  | .vlog2 _ b f => if f.t then none else some (if b then 24 else 22, f.dst)
  | .vsigm _ b f => if f.t then none else some (if b then 24 else 22, f.dst)
  | .vcvt _ b f => if f.t then none else some (if b then 24 else 22, f.dst)
  | .vcbdec _ b f => if f.t then none else some (if b then 24 else 22, f.dst)
  | .vcbenc _ b f => if f.t then none else some (if b then 24 else 22, f.dst)
  | .vplane _ b f => if f.t then none else some (if b then 24 else 22, f.dst)
  | .vunplane _ b f => if f.t then none else some (if b then 24 else 22, f.dst)
  | .vpadd _ b f => if f.t then none else some (if b then 24 else 22, f.dst)
  | .vpsub _ b f => if f.t then none else some (if b then 24 else 22, f.dst)
  | .vpand _ b f => if f.t then none else some (if b then 24 else 22, f.dst)
  | .vpcnt _ b f => if f.t then none else some (if b then 24 else 22, f.dst)
  | .vrsum _ b f => if f.t || f.mod.getLsbD 3 then none else some (if b then 24 else 22, f.dst)
  | .vrmax _ b f => if f.t || f.mod.getLsbD 3 then none else some (if b then 24 else 22, f.dst)
  | .vrmin _ b f => if f.t || f.mod.getLsbD 3 then none else some (if b then 24 else 22, f.dst)
  | .vrsigmin _ b f => if f.t || f.mod.getLsbD 3 then none else some (if b then 24 else 22, f.dst)
  | .vbcast _ b f => if f.t then none else some (if b then 24 else 22, f.dst)
  | .vins _ b f => if f.t then none else some (if b then 24 else 22, f.dst)
  | .vperm _ b f => if f.t then none else some (if b then 24 else 22, f.dst)
  | .vshiftl _ b f => if f.t then none else some (if b then 24 else 22, f.dst)
  | .viota _ b f => if f.t then none else some (if b then 24 else 22, f.dst)
  | .vmov _ b f => if f.t then none else some (if b then 24 else 22, f.dst)
  | .vfill _ b f => if f.t then none else some (if b then 24 else 22, f.dst)
  | .vsig _ b f => if f.t then none else some (if b then 24 else 22, f.dst)
  | .vsigset _ b f => if f.t then none else some (if b then 24 else 22, f.dst)
  | .vfmt _ b f => if f.t then none else some (if b then 24 else 22, f.dst)
  | .ldsRow _ f => some (26, f.data)
  | .pipePop _ f => some (99, syPipeSel f)
  | .pipePopTry _ f => some (99, syPipeSel f)
  | .qPop _ f => some (99, syQSel f)
  | .qPopTry _ f => some (99, syQSel f)
  | .qPeek _ f => some (99, syQSel f)
  | _ => none

/-- Whether the destination row is also an implicit source: a write mask other than K0, or a partial result
(R169, R170). -/
def readsOldDst : Instr → Bool
  | .vadd _ _ f => !f.t && f.k != 0
  | .vsub _ _ f => !f.t && f.k != 0
  | .vmul _ _ f => !f.t && f.k != 0
  | .vmulh _ _ f => !f.t && f.k != 0
  | .vmad _ _ f => !f.t && f.k != 0
  | .vand _ _ f => !f.t && f.k != 0
  | .vor _ _ f => !f.t && f.k != 0
  | .vxor _ _ f => !f.t && f.k != 0
  | .vnot _ _ f => !f.t && f.k != 0
  | .vshl _ _ f => !f.t && f.k != 0
  | .vshr _ _ f => !f.t && f.k != 0
  | .vsar _ _ f => !f.t && f.k != 0
  | .vmin _ _ f => !f.t && f.k != 0
  | .vmax _ _ f => !f.t && f.k != 0
  | .vabsdiff _ _ f => !f.t && f.k != 0
  | .vpopc _ _ f => !f.t && f.k != 0
  | .vfadd _ _ f => !f.t && f.k != 0
  | .vfsub _ _ f => !f.t && f.k != 0
  | .vfmul _ _ f => !f.t && f.k != 0
  | .vffma _ _ f => !f.t && f.k != 0
  | .vfmin _ _ f => !f.t && f.k != 0
  | .vfmax _ _ f => !f.t && f.k != 0
  | .vfabs _ _ f => !f.t && f.k != 0
  | .vfneg _ _ f => !f.t && f.k != 0
  | .vrcp _ _ f => !f.t && f.k != 0
  | .vrsqrt _ _ f => !f.t && f.k != 0
  | .vexp2 _ _ f => !f.t && f.k != 0
  | .vlog2 _ _ f => !f.t && f.k != 0
  | .vsigm _ _ f => !f.t && f.k != 0
  | .vcvt _ _ f => !f.t
  | .vcbdec _ _ f => !f.t
  | .vcbenc _ _ f => !f.t
  | .vplane _ _ f => !f.t
  | .vunplane _ _ f => !f.t
  | .vpadd _ _ f => !f.t && f.k != 0
  | .vpsub _ _ f => !f.t && f.k != 0
  | .vpand _ _ f => !f.t && f.k != 0
  | .vbcast _ _ f => !f.t && f.k != 0
  | .vins _ _ f => !f.t && f.k != 0
  | .vperm _ _ f => !f.t && f.k != 0
  | .vshiftl _ _ f => !f.t && f.k != 0
  | .viota _ _ f => !f.t && f.k != 0
  | .vmov _ _ f => !f.t && f.k != 0
  | .vfill _ _ f => !f.t && f.k != 0
  | _ => false

/-- The token an EN operation produces (R39, R48). -/
def tokenOf : Instr → Option (BitVec 6)
  | .mmaBf16 _ f => some f.tkd
  | .mmaCb4 _ f => some f.tkd
  | .mmaPlane _ f => some f.tkd
  | .mgath _ f => some f.tkd
  | .mldb _ f => some f.tkd
  | .cbload _ f => some f.tkd
  | .accZero _ f => some f.tkd
  | .accRd _ f => some f.tkd
  | .accWr _ f => some f.tkd
  | .cpyTen _ f => some f.tkd
  | .cpyRow _ f => some f.tkd
  | .cpyGath _ f => some f.tkd
  | .cpyScat _ f => some f.tkd
  | .cpySpad _ f => some f.tkd
  | .cpyBind _ f => some f.tkd
  | .cpyBindOff _ f => some f.tkd
  | .cpyRed _ f => some f.tkd
  | .cpyFill _ f => some f.tkd
  | _ => none

/-- The tokens an EN operation consumes (R34). -/
def consumes : Instr → List (BitVec 6)
  | .mmaBf16 _ f => used f
  | .mmaCb4 _ f => used f
  | .mmaPlane _ f => used f
  | .mgath _ f => used f
  | .mldb _ f => used f
  | .cbload _ f => used f
  | .accZero _ f => used f
  | .accRd _ f => used f
  | .accWr _ f => used f
  | .cpyTen _ f => used f
  | .cpyRow _ f => used f
  | .cpyGath _ f => used f
  | .cpyScat _ f => used f
  | .cpySpad _ f => used f
  | .cpyBind _ f => used f
  | .cpyBindOff _ f => used f
  | .cpyRed _ f => used f
  | .cpyFill _ f => used f
  | _ => []
where
  /-- The consumed-token fields whose use bit is 1. -/
  used (f : ENF) : List (BitVec 6) :=
    (if f.use.getLsbD 2 then [f.tk1] else []) ++ (if f.use.getLsbD 1 then [f.tk2] else []) ++
      (if f.use.getLsbD 0 then [f.tk3] else [])

/-- The latency class of an operation's result (R72 to R78); none where it has no result under R40. -/
def opClass : Instr → Option Nat
  | .add _ _ => some 0
  | .sub _ _ => some 0
  | .mul _ _ => some 1
  | .mulh _ _ => some 1
  | .mulhn _ _ => some 1
  | .div _ _ => some 2
  | .divn _ _ => some 2
  | .rem _ _ => some 2
  | .remn _ _ => some 2
  | .and _ _ => some 0
  | .or _ _ => some 0
  | .xor _ _ => some 0
  | .andn _ _ => some 0
  | .shl _ _ => some 0
  | .shr _ _ => some 0
  | .sar _ _ => some 0
  | .rot _ _ => some 0
  | .clz _ _ => some 0
  | .ctz _ _ => some 0
  | .popc _ _ => some 0
  | .min _ _ => some 0
  | .max _ _ => some 0
  | .minn _ _ => some 0
  | .maxn _ _ => some 0
  | .sel _ _ => some 0
  | .lea _ _ => some 0
  | .cmp _ _ => some 14
  | .addi _ _ => some 0
  | .andi _ _ => some 0
  | .ori _ _ => some 0
  | .xori _ _ => some 0
  | .movi _ _ => some 0
  | .movhi _ _ => some 0
  | .pand _ _ => some 14
  | .por _ _ => some 14
  | .pxor _ _ => some 14
  | .pnot _ _ => some 14
  | .sfadd _ _ => some 3
  | .sfsub _ _ => some 3
  | .sfmul _ _ => some 3
  | .sffma _ _ => some 3
  | .sfdiv _ _ => some 2
  | .sfsqrt _ _ => some 2
  | .sfcmp _ _ => some 14
  | .sfcvtI32 _ _ => some 7
  | .sfcvtF32 _ _ => some 7
  | .sigget _ _ => some 0
  | .sigset _ _ => some 0
  | .loop _ _ => some 0
  | .call _ _ => some 0
  | .cread _ _ => some 15
  | .vadd _ _ _ => some 4
  | .vsub _ _ _ => some 4
  | .vmul _ _ _ => some 4
  | .vmulh _ _ _ => some 4
  | .vmad _ _ _ => some 4
  | .vand _ _ _ => some 4
  | .vor _ _ _ => some 4
  | .vxor _ _ _ => some 4
  | .vnot _ _ _ => some 4
  | .vshl _ _ _ => some 4
  | .vshr _ _ _ => some 4
  | .vsar _ _ _ => some 4
  | .vmin _ _ _ => some 4
  | .vmax _ _ _ => some 4
  | .vabsdiff _ _ _ => some 4
  | .vcmp _ _ _ => some 14
  | .vsel _ _ _ => some 4
  | .vpopc _ _ _ => some 4
  | .vfadd _ _ _ => some 5
  | .vfsub _ _ _ => some 5
  | .vfmul _ _ _ => some 5
  | .vffma _ _ _ => some 5
  | .vfmin _ _ _ => some 5
  | .vfmax _ _ _ => some 5
  | .vfabs _ _ _ => some 5
  | .vfneg _ _ _ => some 5
  | .vfcmp _ _ _ => some 14
  | .vrcp _ _ _ => some 6
  | .vrsqrt _ _ _ => some 6
  | .vexp2 _ _ _ => some 6
  | .vlog2 _ _ _ => some 6
  | .vsigm _ _ _ => some 6
  | .vcvt _ _ _ => some 7
  | .vcbdec _ _ _ => some 7
  | .vcbenc _ _ _ => some 7
  | .vplane _ _ _ => some 8
  | .vunplane _ _ _ => some 8
  | .vpadd _ _ _ => some 8
  | .vpsub _ _ _ => some 8
  | .vpand _ _ _ => some 8
  | .vpcnt _ _ _ => some 8
  | .vrsum _ _ _ => some 9
  | .vrmax _ _ _ => some 9
  | .vrmin _ _ _ => some 9
  | .vrsigmin _ _ _ => some 9
  | .vbcast _ _ _ => some 9
  | .vext _ _ _ => some 9
  | .vins _ _ _ => some 9
  | .vperm _ _ _ => some 9
  | .vshiftl _ _ _ => some 9
  | .viota _ _ _ => some 9
  | .vmov _ _ _ => some 4
  | .vfill _ _ _ => some 4
  | .vsig _ _ _ => some 4
  | .vsigset _ _ _ => some 4
  | .vfmt _ _ _ => some 4
  | .kand _ _ _ => some 14
  | .kor _ _ _ => some 14
  | .knot _ _ _ => some 14
  | .kpopc _ _ _ => some 14
  | .leaseTry _ _ => some 14
  | .accRd _ _ => some 11
  | .ldsRow _ _ => some 10
  | .ldsW32 _ _ => some 10
  | .ldsW64 _ _ => some 10
  | .satom _ _ => some 10
  | .cpyPoll _ _ => some 14
  | .cpyPollWin _ _ => some 14
  | .semTry _ _ => some 14
  | .barTest _ _ => some 14
  | .pipePop _ _ => some 13
  | .pipePopTry _ _ => some 13
  | .qPush _ _ => some 13
  | .qPop _ _ => some 13
  | .qPopTry _ _ => some 13
  | .qTry _ _ => some 14
  | .qPeek _ _ => some 13
  | .qInfo _ _ => some 15
  | .tsGet _ _ => some 15
  | _ => none

/-- The scalar an operation's result writes (R40, R107). -/
def scalarDst : Instr → Option (BitVec 5)
  | .add _ f => some f.sd
  | .sub _ f => some f.sd
  | .mul _ f => some f.sd
  | .mulh _ f => some f.sd
  | .mulhn _ f => some f.sd
  | .div _ f => some f.sd
  | .divn _ f => some f.sd
  | .rem _ f => some f.sd
  | .remn _ f => some f.sd
  | .and _ f => some f.sd
  | .or _ f => some f.sd
  | .xor _ f => some f.sd
  | .andn _ f => some f.sd
  | .shl _ f => some f.sd
  | .shr _ f => some f.sd
  | .sar _ f => some f.sd
  | .rot _ f => some f.sd
  | .clz _ f => some f.sd
  | .ctz _ f => some f.sd
  | .popc _ f => some f.sd
  | .min _ f => some f.sd
  | .max _ f => some f.sd
  | .minn _ f => some f.sd
  | .maxn _ f => some f.sd
  | .sel _ f => some f.sd
  | .lea _ f => some f.sd
  | .addi _ f => some f.sd
  | .andi _ f => some f.sd
  | .ori _ f => some f.sd
  | .xori _ f => some f.sd
  | .movi _ f => some f.sd
  | .movhi _ f => some f.sd
  | .sfadd _ f => some f.sd
  | .sfsub _ f => some f.sd
  | .sfmul _ f => some f.sd
  | .sffma _ f => some f.sd
  | .sfdiv _ f => some f.sd
  | .sfsqrt _ f => some f.sd
  | .sfcvtI32 _ f => some f.sd
  | .sfcvtF32 _ f => some f.sd
  | .sigget _ f => some f.sd
  | .sigset _ f => some f.sd
  | .loop _ f => some f.sa
  | .call _ f => some f.sa
  | .cread _ f => some f.sd
  | .vrsum _ _ f => if f.mod.getLsbD 3 then some (f.dst.setWidth 5) else none
  | .vrmax _ _ f => if f.mod.getLsbD 3 then some (f.dst.setWidth 5) else none
  | .vrmin _ _ f => if f.mod.getLsbD 3 then some (f.dst.setWidth 5) else none
  | .vrsigmin _ _ f => if f.mod.getLsbD 3 then some (f.dst.setWidth 5) else none
  | .vext _ _ f => some (f.dst.setWidth 5)
  | .kpopc _ _ f => some (f.dst.setWidth 5)
  | .ldsW32 _ f => some (f.data.setWidth 5)
  | .ldsW64 _ f => some (f.data.setWidth 5)
  | .satom _ f => some f.index
  | .qInfo _ f => some (f.ext.extractLsb' 30 5)
  | .tsGet _ f => some (f.ext.extractLsb' 30 5)
  | _ => none

/-- The predicate an operation's result writes (R40). -/
def predDst : Instr → Option (BitVec 3)
  | .cmp _ f => some f.pd
  | .pand _ f => some f.pd
  | .por _ f => some f.pd
  | .pxor _ f => some f.pd
  | .pnot _ f => some f.pd
  | .sfcmp _ f => some f.pd
  | .leaseTry _ f => some (f.ext.extractLsb' 45 3)
  | .cpyPoll _ f => some (f.ext.extractLsb' 45 3)
  | .cpyPollWin _ f => some (f.ext.extractLsb' 45 3)
  | .semTry _ f => some f.pd
  | .barTest _ f => some f.pd
  | .pipePopTry _ f => some f.pd
  | .qPush _ f => some f.pd
  | .qPop _ f => some f.pd
  | .qPopTry _ f => some f.pd
  | .qTry _ f => some f.pd
  | .qPeek _ f => some f.pd
  | _ => none

/-- The mask an operation's result writes (R168). -/
def maskDst : Instr → Option (BitVec 3)
  | .vcmp _ _ f => some (f.dst.setWidth 3)
  | .vfcmp _ _ f => some (f.dst.setWidth 3)
  | .kand _ _ f => some (f.dst.setWidth 3)
  | .kor _ _ f => some (f.dst.setWidth 3)
  | .knot _ _ f => some (f.dst.setWidth 3)
  | _ => none

/-- The blocks an ACC.RD or ACC.WR names, each with its first row (R282). -/
def accPlaces (f : ENF) : List (Nat × Nat) :=
  let t := accTile f
  if accFmt f = 1 then
    (accBlk f, 16 * t + (if accHalf f then 8 else 0)) :: (if accPair f then [(accBlk2 f, 16 * t + 8)] else [])
  else (accBlk f, 16 * t) :: (if accPair f then [(accBlk2 f, 16 * (t + 1))] else [])
/-- How many rows one block fills. -/
def accHeight (f : ENF) : Nat := if accFmt f = 1 then 8 else 16
/-- The rows of an ACC.RD or ACC.WR, block by block (R282). -/
def accRowNos (f : ENF) : List Nat := (accPlaces f).flatMap fun p => (List.range (accHeight f)).map (· + p.2)
/-- The rows an ACC.WR reads, and those an ACC.RD writes (R283). -/
def accSrcs : Instr → List Nat
  | .accWr _ f => accRowNos f
  | _ => []
def accDsts : Instr → List Nat
  | .accRd _ f => accRowNos f
  | _ => []

/-- Every row number a bundle operation encodes in a row-selector field (R49). -/
def rowFields (i : Instr) : List Nat :=
  (((selSrcs i).map fun x => x.2.toNat).filter fun n => n < 320) ++
    (match rowDst i with
     | some (_, d) => [d.toNat]
     | none => []) ++
    (match i with
     | .accRd _ f => accRows f
     | .accWr _ f => accRows f
     | _ => [])
where
  /-- The rows ACC.RD and ACC.WR name: the last of each tile they use (R282). -/
  accRows (f : ENF) : List Nat :=
    let last := 16 * accTile f + (if accFmt f = 1 && !accHalf f && !accPair f then 7 else 15)
    if accPair f && accFmt f != 1 then [last + 16] else [last]

end Sys2Proof.Machine
end

