-- ==== Sys2Proof/Machine/Operands.lean ====
section
/-!
DEFINITION. Operand forms (02 R33 to R38, R43 to R49): reading scalars, predicates, masks, rows, latches, stream
registers and the LDQ, the stride of a repeated bundle, and the captured operands of a re-injected entry (13 R339).
-/
namespace Sys2Proof.Machine

/-- Why an operation does not complete: a trap of its bundle, a hold of its bundle with what it leaves behind, a stop
of the machine, a refusal. -/
inductive Stop where
  | trap (c : Cause)
  | hold (h : Hold) (s : State)
  | fault (f : Fault)
  | refused (r : Refusal)

/-- The outcome of one operation. -/
abbrev Op (α : Type) := Except Stop α

/-- A trap of class `cls` with SUB `sub` (R336). -/
def trapOp {α : Type} (cls sub : Nat) : Op α := .error (.trap { cls := cls, sub := sub })
/-- The same with the faulting address (TFADDR). -/
def trapAt {α : Type} (cls sub addr : Nat) : Op α := .error (.trap { cls := cls, sub := sub, addr := addr })
def holdOp {α : Type} (s : State) (h : Hold) : Op α := .error (.hold h s)
/-- Trap unless the condition holds. -/
def need (ok : Bool) (cls sub : Nat) : Op Unit := if ok then .ok () else trapOp cls sub

/-! ### The register files -/

def Regs.scalar (r : Regs) (n : BitVec 5) : Scalar := r.s[n.toNat]'n.isLt
def Regs.setScalar (r : Regs) (n : BitVec 5) (x : Scalar) : Regs := { r with s := r.s.set n.toNat x n.isLt }
/-- P0 reads as true (R34). -/
def Regs.pred (r : Regs) (n : BitVec 3) : Bool := n = 0 || r.p.getLsbD n.toNat
/-- A write to P0 is discarded (R34). -/
def Regs.setPred (r : Regs) (n : BitVec 3) (b : Bool) : Regs :=
  if n = 0 then r
  else { r with p := if b then r.p ||| (1#8 <<< n.toNat) else r.p &&& ~~~(1#8 <<< n.toNat) }
/-- K0 reads as all ones (R34). -/
def Regs.mask (r : Regs) (n : BitVec 3) : Mask := if n = 0 then BitVec.allOnes 128 else r.k[n.toNat]'n.isLt
def Regs.setMask (r : Regs) (n : BitVec 3) (m : Mask) : Regs :=
  if n = 0 then r else { r with k := r.k.set n.toNat m n.isLt }
def Regs.row (r : Regs) (n : Nat) : Row := (look n r.rows).getD Row.zero
def Regs.setRow (r : Regs) (n : Nat) (x : Row) : Regs := { r with rows := put n x r.rows }
/-- Latch `i` in the order of R35: ~S1 is 0, ~A1 3, ~B1 6, ~L1 9. -/
def Regs.latch (r : Regs) (i : Nat) : Latch := r.lat.toList.getD i .invalid

/-- The latch group of a slot that has latches (R43): S, A, B, L. -/
def latchBase (slot : Nat) : Option Nat :=
  match slot with
  | 0 => some 0
  | 1 => some 3
  | 2 => some 6
  | 4 => some 9
  | _ => none

/-! ### Overdue results (R59) -/

/-- A result whose declared time has come and that is not ready. -/
def Flight.overdue (e : Flight) (c : Ctx) : Bool := e.due ≤ c.pt && c.pt < e.ready
def waitsFor (c : Ctx) (p : Write → Bool) : Bool := c.fl.any fun e => e.overdue c && e.res.any p
def isScalarW (n : BitVec 5) : Write → Bool
  | .scalar m _ => m = n
  | _ => false
def isPredW (n : BitVec 3) : Write → Bool
  | .pred m _ => m = n && n != 0
  | _ => false
def isMaskW (n : BitVec 3) : Write → Bool
  | .mask m _ => m = n && n != 0
  | _ => false
def isRowW (n : Nat) : Write → Bool
  | .row m _ => m = n
  | _ => false

/-- The order of R52: by the time of visibility, then by issue, then by slot. -/
def Flight.before (a b : Flight) : Bool :=
  a.due < b.due || (a.due = b.due && (a.seq < b.seq || (a.seq = b.seq && a.slot < b.slot)))
/-- Put a result among others in the order of R52. -/
def insertFlight (e : Flight) : List Flight → List Flight
  | [] => [e]
  | x :: r => if e.before x then e :: x :: r else x :: insertFlight e r
def sortFlights (l : List Flight) : List Flight := l.foldl (fun r e => insertFlight e r) []

/-- Latch `i` of a slot as R40 gives it for the declared latency, where some of the slot's results are overdue: none where
an overdue result would stand there (R59). -/
def latchView (c : Ctx) (slot i : Nat) : Option Latch :=
  match latchBase slot with
  | none => some .invalid
  | some b =>
    let mine : List (Option Latch) := (List.range 3).map fun j => some (c.regs.latch (b + j))
    let late := sortFlights (c.fl.filter fun e => e.overdue c && e.slot = slot && e.latch != .invalid)
    (late.foldl (fun l e => l.take e.passed ++ none :: l.drop e.passed) mine).getD i (some .invalid)

/-! ### Captured blocks (R339) -/

def Replay.block (r : Replay) (m : Nat) : Row :=
  match m with
  | 0 => r.b0
  | 1 => r.b1
  | 2 => r.b2
  | _ => r.b3
def Replay.setBlock (r : Replay) (m : Nat) (x : Row) : Replay :=
  match m with
  | 0 => { r with b0 := x }
  | 1 => { r with b1 := x }
  | 2 => { r with b2 := x }
  | _ => { r with b3 := x }

/-- The tag byte that marks a block holding a scalar (log 8). -/
def scalarTag : Byte := 0x0F
/-- The tag bytes of a block whose operand cannot be captured: an invalid latch or a mask, or a strided row beyond the
allotment. Re-injection detects the fault again (R53; log 8). -/
def illegalTag : Byte := 0x0E
def allotTag : Byte := 0x0D
def blockOfScalar (x : Scalar) : Row := ⟨x.val.setWidth 2048, x.cnt.setWidth 512, scalarTag⟩
def scalarOfBlock (b : Row) : Scalar := ⟨b.val.setWidth 64, b.trust.setWidth 5⟩

/-! ### Scalars, predicates and masks as operands -/

/-- Scalar `r` as operand `pos` of the operation being performed (R140, R340). -/
def rdS (s : State) (pos : Nat) (r : BitVec 5) : Op Scalar :=
  match s.cur.iss.cap with
  | some e => .ok (scalarOfBlock (e.block pos))
  | none => if waitsFor s.cur (isScalarW r) then holdOp s .stall else .ok (s.cur.regs.scalar r)

/-- Scalar `r` as the engine operand number `pos`, captured in block 0 (R229, R339). -/
def rdE (s : State) (pos : Nat) (r : BitVec 5) : Op Word :=
  match s.cur.iss.cap with
  | some e => .ok (e.b0.val.extractLsb' (64 * pos) 64)
  | none => if waitsFor s.cur (isScalarW r) then holdOp s .stall else .ok (s.cur.regs.scalar r).val

/-- Predicate operand number `pos` (R146, R150). -/
def rdP (s : State) (pos : Nat) (n : BitVec 3) : Op Bool :=
  match s.cur.iss.cap with
  | some e => .ok (e.b3.val.getLsbD (8 * pos))
  | none => if waitsFor s.cur (isPredW n) then holdOp s .stall else .ok (s.cur.regs.pred n)

/-- The lane mask an operation works under (R172). -/
def rdK (s : State) (n : BitVec 3) : Op Mask :=
  match s.cur.iss.cap with
  | some e => .ok e.kcap
  | none => if waitsFor s.cur (isMaskW n) then holdOp s .stall else .ok (s.cur.regs.mask n)

/-- A mask as operand `pos` (R193). -/
def rdKOperand (s : State) (pos : Nat) (n : BitVec 3) : Op Mask :=
  match s.cur.iss.cap with
  | some e => .ok ((e.block pos).val.setWidth 128)
  | none => if waitsFor s.cur (isMaskW n) then holdOp s .stall else .ok (s.cur.regs.mask n)

/-! ### The stride of a repeated bundle (R47, R49) -/

/-- The row that row field `n` names in the iteration being issued, where its SMASK bit is `bit`; it may lie outside the
allotment. -/
def strideRow (s : State) (bit n : Nat) : Int :=
  if ctlRep s.cur.ctl && bit < 32 && ctlMask s.cur.ctl bit then (n : Int) + s.cur.crs.repi.toNat * ctlStride s.cur.ctl else n
/-- That row, within the allotment where it is strided (R49). -/
def effRow (s : State) (bit n : Nat) : Op Nat :=
  if ctlRep s.cur.ctl && bit < 32 && ctlMask s.cur.ctl bit then
    let k := strideRow s bit n
    if k < 0 || (s.cur.bind.rows : Int) ≤ k then trapOp 0x05 0 else .ok k.toNat
  else .ok n

/-- The effective destination row (R339 keeps it in a replay entry), checked again at re-injection. -/
def dstRow (s : State) (bit : Nat) (d : BitVec 10) : Op Nat :=
  match s.cur.iss.cap with
  | some e => if e.edst.toNat < s.cur.bind.rows then .ok e.edst.toNat else trapOp 0x05 0
  | none => effRow s bit d.toNat

/-- SMASK bits of the slots' destinations and sources (R30). -/
def dstBit (inB : Bool) : Nat := if inB then 24 else 22
def inBit (inB : Bool) : Nat := if inB then 25 else 23

/-! ### The scratchpad of the issuing group (R196, R197) -/

/-- Where allocation byte `a` lies within the tile's scratchpad. -/
def Ctx.spadOff (c : Ctx) (a : Nat) : Nat := physOff c.bind.bank c.bind.banks a
/-- The allocation bank that holds offset `a` (R198). -/
def Ctx.bankOf (c : Ctx) (a : Nat) : Nat := c.bind.bank + (a % (c.bind.banks * 2 ^ 18) / 128) % c.bind.banks
/-- Whether the context's group has released a bank of its run (R377). -/
def groupReleased (s : State) (c : Ctx) (b : Nat) : Bool := s.groups.any fun g => g.id = c.bind.group && g.releasing.contains b
/-- Whether the group had released a bank when it issued operation `id`. DEDUCED: what was issued before the BANK.REL, for which the
bank's ownership bit waits, reads what stands there; what is issued after it reads zeros as a load does (R377; log 91). -/
def releasedTo (s : State) (c : Ctx) (b id : Nat) : Bool :=
  s.groups.any fun g => g.id = c.bind.group && g.releasing.contains b && (look b g.relAt).all fun u => decide (u ≤ id)
/-- Whether the group has released the bank that holds offset `a`, or has no bank at all (R196). DEDUCED: an array operation of a group
without scratchpad, which R197 gives no modulus, reads zeros (log 91). -/
def bankReleased (s : State) (c : Ctx) (a : Nat) : Bool := c.bind.banks = 0 || groupReleased s c (c.bankOf a)

/-- Byte `a` of the allocation, wrapping at its end; a released bank reads as zero (R197, R377). -/
def localByte (s : State) (c : Ctx) (a : Nat) : Byte :=
  if bankReleased s c a then 0 else memByte s.spad (spadKey (tileOf c.cid) (c.spadOff a))
def localRead (s : State) (c : Ctx) (a n : Nat) : List Byte := (List.range n).map fun i => localByte s c (a + i)
/-- Bytes of the allocation as array operation `id` reads them (R377). -/
def opRead (s : State) (c : Ctx) (id a n : Nat) : List Byte :=
  (List.range n).map fun i =>
    if c.bind.banks = 0 || releasedTo s c (c.bankOf (a + i)) id then 0
    else memByte s.spad (spadKey (tileOf c.cid) (c.spadOff (a + i)))
/-- Write bytes into the allocation; what falls into a released bank is discarded (R377). -/
def localWrite (s : State) (c : Ctx) (a : Nat) : List Byte → List Bool → State
  | b :: bs, k :: ks =>
    let s1 := if k && !bankReleased s c a then
        { settleSpad s [spadKey (tileOf c.cid) (c.spadOff a)] with
          spad := memWrite s.spad (spadKey (tileOf c.cid) (c.spadOff a)) [b] } else s
    localWrite s1 c (a + 1) bs ks
  | _, _ => s

/-! ### Queues at the operand (R37, R200 to R202, R251) -/

/-- A delivered row as it is popped: its tag, its plane, the slots without elements of a PL row zero (R93, R252). -/
def ringRow (tag : Byte) (bytes : List Byte) (plane : TrustBits) : Row :=
  let v := BitVec.ofNat 2048 (leNat bytes)
  if tagFmt tag = 8 then bitRow tag v else ⟨v, plane, tag⟩

/-- The row at the head of stream register `q`. -/
def streamHead (s : State) (q : Nat) : Op Row :=
  let b := s.cur.win.q.toList.getD q QBind.none
  if !b.valid then trapOp 0x02 7
  else if !b.arr.getLsbD (b.rd % 8) then holdOp s (.wait (.stream q))
  else
    let bytes := localRead s s.cur (b.ring * 256 + 256 * (b.rd % 8)) 256
    match look (b.rd % 8) b.rowsIn with
    | some r =>
      if r.poison then .ok (ringRow r.tag ((List.range 256).map (Config.freeByte s.fresh)) 0)
      else .ok (ringRow r.tag bytes r.plane)
    | none => .ok ⟨BitVec.ofNat 2048 (leNat bytes), 0, 0⟩

/-- The entry at the head of the LDQ. -/
def ldqHead (s : State) : Op LdVal :=
  match s.cur.ldq with
  | [] => trapOp 0x02 3
  | e :: _ =>
    match e.val with
    | some v => if e.returned then .ok v else holdOp s (.wait .ldq)
    | none => holdOp s (.wait .ldq)

/-! ### Source selectors (R35, R44) -/

/-- What a source selector supplies. -/
inductive Opd where
  | row (r : Row)
  | scalar (x : Scalar)
  | mask (m : Mask)
  deriving DecidableEq, Repr

/-- Operand `pos` through a 10-bit selector; `bit` is the SMASK bit that strides it. -/
def rdSel (s : State) (bit pos : Nat) (sel : BitVec 10) : Op Opd :=
  let n := sel.toNat
  match s.cur.iss.cap with
  | some e =>
    if e.srck.getLsbD pos then
      if n = 328 then (match ldqHead s with
        | .ok (.row r) => .ok (.row r)
        | .ok (.scalar x) => .ok (.scalar x)
        | .error x => .error x)
      else (match streamHead s (n - 320) with
        | .ok r => .ok (.row r)
        | .error x => .error x)
    else if (e.block pos).tag = illegalTag then trapOp 0x02 1
    else if (e.block pos).tag = allotTag then trapOp 0x05 0
    else if (e.block pos).tag = scalarTag then .ok (.scalar (scalarOfBlock (e.block pos)))
    else .ok (.row (e.block pos))
  | none =>
    if n < 320 then do
      let k ← effRow s bit n
      if waitsFor s.cur (isRowW k) then holdOp s .stall else .ok (.row (s.cur.regs.row k))
    else if n < 328 then do
      let r ← streamHead s (n - 320)
      .ok (.row r)
    else if n = 328 then do
      let v ← ldqHead s
      match v with
      | .row r => .ok (.row r)
      | .scalar x => .ok (.scalar x)
    else if n ≤ 340 then
      match latchView s.cur ((n - 329) / 3 |> fun g => if g = 3 then 4 else g) ((n - 329) % 3) with
      | none => holdOp s .stall
      | some .invalid => trapOp 0x02 1
      | some (.row r) => .ok (.row r)
      | some (.scalar x) => .ok (.scalar x)
      | some (.mask m) => .ok (.mask m)
    else if 352 ≤ n ∧ n ≤ 383 then do
      let r : BitVec 5 := sel.setWidth 5   -- 352 is a multiple of 32
      if waitsFor s.cur (isScalarW r) then holdOp s .stall else .ok (.scalar (s.cur.regs.scalar r))
    else trapOp 0x01 0

/-- A V-format source: an LDQ entry must be a row (R37), a mask is an illegal operand (R168). -/
def rdV (s : State) (inB : Bool) (pos : Nat) (sel : BitVec 10) : Op Opd := do
  let v ← rdSel s (inBit inB) pos sel
  match v with
  | .mask _ => trapOp 0x02 1
  | .scalar x => if sel = 328 then trapOp 0x02 2 else .ok (.scalar x)
  | .row r => .ok (.row r)

/-- A position that takes only a row (R516). -/
def rdVRow (s : State) (inB : Bool) (pos : Nat) (sel : BitVec 10) : Op Row := do
  let v ← rdV s inB pos sel
  match v with
  | .row r => .ok r
  | _ => trapOp 0x02 1

/-- A position that takes only a scalar (R191). -/
def rdVScalar (s : State) (inB : Bool) (pos : Nat) (sel : BitVec 10) : Op Scalar := do
  let v ← rdV s inB pos sel
  match v with
  | .scalar x => .ok x
  | _ => trapOp 0x02 1

/-- A row source of slots W and Y (R212, R356). -/
def rdRowSrc (s : State) (bit pos : Nat) (sel : BitVec 10) : Op Row := do
  let v ← rdSel s bit pos sel
  match v with
  | .row r => .ok r
  | .scalar _ => trapOp 0x02 (if sel = 328 then 2 else 1)
  | .mask _ => trapOp 0x02 1

/-- A scalar source of slot W (R212). -/
def rdScalarSrc (s : State) (pos : Nat) (sel : BitVec 10) : Op Scalar := do
  let v ← rdSel s 99 pos sel
  match v with
  | .scalar x => .ok x
  | .row _ => trapOp 0x02 (if sel = 328 then 2 else 1)
  | .mask _ => trapOp 0x02 1

/-- Source 1, 2 or 3 of an SR operation, with QSEL (R139): an LDQ entry must be a scalar (R37). -/
def srcS (s : State) (f : SRF) (n : Nat) : Op Scalar :=
  if qselOf f = n then
    match s.cur.iss.cap with
    | some e =>
      if e.srck.getLsbD (n - 1) then (match ldqHead s with
        | .ok (.scalar x) => .ok x
        | .ok (.row _) => trapOp 0x02 2
        | .error x => .error x)
      else .ok (scalarOfBlock (e.block (n - 1)))
    | none => (match ldqHead s with
      | .ok (.scalar x) => .ok x
      | .ok (.row _) => trapOp 0x02 2
      | .error x => .error x)
  else rdS s (n - 1) (if n = 1 then f.sa else if n = 2 then f.sb else f.sc)

/-! ### Captures and pops -/

/-- Whether an operation pops the LDQ (R37). -/
def popsLdq (i : Instr) : Bool := (qselPop i).isSome || (selSrcs i).any fun x => x.2 = 328
/-- The stream registers an operation pops. -/
def popsStream (i : Instr) : List Nat :=
  ((selSrcs i).filter fun x => 320 ≤ x.2.toNat && x.2.toNat < 328).map fun x => x.2.toNat - 320

/-- The tensor map in the slot an operation names (R242). -/
def Ctx.mapOf (c : Ctx) (i : Instr) : Option (BitVec 768) :=
  match mapSlot i with
  | some m => c.maps[m.toNat]'m.isLt
  | none => none
/-- NDIM of a tensor map (R241). -/
def mapNdim (m : BitVec 768) : Nat := bitsOf 56 3 m.toNat
/-- How many scalars hold the coordinates of a tensor copy (R233, R244). -/
def coordScalars (c : Ctx) (i : Instr) : Nat :=
  match c.mapOf i with
  | some m => (mapNdim m - 1) / 2 + 1
  | none => 1

/-- The value behind a selector as it stands, for a replay entry; an operand that faults, or a mask, which no selector
position takes, is marked so that re-injection detects the fault again (R53). -/
def captureSel (s : State) (bit pos : Nat) (sel : BitVec 10) : Row :=
  match rdSel s bit pos sel with
  | .ok (.row r) => r
  | .ok (.scalar x) => blockOfScalar x
  | .ok (.mask _) => ⟨0, 0, illegalTag⟩
  | .error (.trap k) => ⟨0, 0, if k.cls = 0x05 then allotTag else illegalTag⟩
  | .error _ => Row.zero

/-- What an operation issued now is issued under (R54, R335). -/
def underCtl (c : Ctx) : UnderCtl := ⟨if c.crs.intrap then c.crs.sigfloor &&& 0xFFFF else c.crs.sigfloor, c.crs.planew, c.cb⟩

/-- The SMASK bit of an operation's sources. -/
def srcBitOf (i : Instr) : Nat :=
  match slotOf i with
  | some 1 => 23
  | some 2 => 25
  | some 5 => 27
  | _ => 99

/-- The replay entry of an operation with its operands as they stand before the bundle (R53, R54, R339). With `popped`
false the operands it would pop are marked to be popped again (SRCK). -/
def capture (s : State) (i : Instr) (popped : Bool) : Replay :=
  let e0 : Replay := { Replay.none with
    slotw := encodeSlot i
    slot := (slotOf i).getD 0
    iter := s.cur.crs.repi
    edst := (match rowDst i with
      | some (bit, d) => BitVec.ofInt 16 (strideRow s bit d.toNat)
      | none => 0)
    kcap := s.cur.regs.mask (maskSrc i)
    side := { Beside.none with
      slotw := encodeSlot i, slot := (slotOf i).getD 0, pc := s.cur.pc, under := some (underCtl s.cur)
      rows := (accSrcs i).map s.cur.regs.row } }
  let again (x : Nat × BitVec 10) : Bool := !popped && 320 ≤ x.2.toNat && x.2.toNat ≤ 328
  let e1 := (selSrcs i).foldl (fun e x =>
    if again x then { e with srck := e.srck ||| (1 <<< x.1) } else e.setBlock x.1 (captureSel s (srcBitOf i) x.1 x.2)) e0
  let e2a := (blockScalars i).foldl (fun e x => e.setBlock x.1 (blockOfScalar (s.cur.regs.scalar x.2))) e1
  let e2 := (match i with
    | .call _ _ => e2a.setBlock 0 (blockOfScalar ⟨s.cur.pc + 64, 24⟩)
    | _ => e2a)
  let e3 := (match qselPop i with
    | some p =>
      if popped then (match ldqHead s with
        | .ok (.scalar x) => e2.setBlock p (blockOfScalar x)
        | _ => e2)
      else { e2 with srck := e2.srck ||| (1 <<< p) }
    | none => e2)
  let e4 := (maskOperands i).foldl (fun e x => e.setBlock x.1 ⟨(s.cur.regs.mask x.2).setWidth 2048, 0, 0⟩) e3
  let eng := engineScalars (coordScalars s.cur i) i
  let e5 := if eng.isEmpty then e4 else
    { e4 with
      b0 := ⟨BitVec.ofNat 2048 (packN 64 (eng.map fun r => (s.cur.regs.scalar r).val.toNat)), 0, 0⟩
      b1 := (match s.cur.mapOf i with
        | some m => ⟨m.setWidth 2048, 0, 0⟩
        | none => if (mapSlot i).isSome then ⟨0, 0, illegalTag⟩ else e4.b1) }
  let e6 := if readsOldDst i then (match rowDst i with
      | some (bit, d) => (match effRow s bit d.toNat with
        | .ok k => e5.setBlock 3 (s.cur.regs.row k)
        | .error _ => e5)
      | none => e5)
    else e5
  let e7 := (match oldMask i with
    | some d => e6.setBlock 3 ⟨(s.cur.regs.mask d).setWidth 2048, 0, 0⟩
    | none => e6)
  if (predSrcs i).isEmpty then e7 else
    e7.setBlock 3 ⟨BitVec.ofNat 2048 (packN 8 ((predSrcs i).map fun p => if s.cur.regs.pred p then 1 else 0)), 0, 0⟩

/-! ### What keeps a bundle from issuing before its faults are known (R37, R59) -/

/-- Whether the value behind a selector is overdue. -/
def selLate (s : State) (bit : Nat) (sel : BitVec 10) : Bool :=
  let n := sel.toNat
  if n < 320 then (match effRow s bit n with
    | .ok k => waitsFor s.cur (isRowW k)
    | .error _ => false)
  else if 329 ≤ n && n ≤ 340 then (latchView s.cur ((n - 329) / 3 |> fun g => if g = 3 then 4 else g) ((n - 329) % 3)).isNone
  else if 352 ≤ n && n ≤ 383 then waitsFor s.cur (isScalarW (sel.setWidth 5))
  else false

/-- Whether any operand of an operation is overdue (R59). -/
def operandLate (s : State) (i : Instr) : Bool :=
  let c := s.cur
  (selSrcs i).any (fun x => selLate s (srcBitOf i) x.2)
    || ((blockScalars i).map Prod.snd ++ engineScalars (coordScalars c i) i).any (fun r => waitsFor c (isScalarW r))
    || (maskSrc i :: (maskOperands i).map Prod.snd ++ (oldMask i).toList).any (fun m => waitsFor c (isMaskW m))
    || (predSrcs i).any (fun p => waitsFor c (isPredW p))
    || (accSrcs i).any (fun n => waitsFor c (isRowW n))
    || (readsOldDst i && match rowDst i with
        | some (bit, d) => selLate s bit d
        | none => false)

/-- Why the bundle blocks before it issues: a queue its operation pops is empty (R37). -/
def popHold (s : State) (i : Instr) : Option Hold :=
  let why {α : Type} (r : Op α) : Option Hold := match r with
    | .error (.hold h _) => some h
    | _ => none
  (if popsLdq i then why (ldqHead s) else none).or ((popsStream i).findSome? fun q => why (streamHead s q))

end Sys2Proof.Machine
end

