-- ==== Sys2Proof/Machine/Flags.lean ====
section
/-!
DEFINITION. Flags, sticky records and significance records (04 R86, 13 R333, R334, 05 R133 to R135), and the moment a
result becomes visible: register files, latches, supersession (02 R40, R43, R52, R59).
-/
namespace Sys2Proof.Machine

/-! ### Sticky records -/

/-- Offset of a bundle from CODEBASE in bundles, 24 bits (R333). -/
def bundleOff (c : Ctx) (pc : Word) : Nat := ((pc - c.crs.codebase).toNat / 64) % 2 ^ 24

/-- A STICKY register with flags recorded: FOFF and FV name the first raising bundle (R333). -/
def stickyWith (st : Word) (fl : Flags) (off : Nat) : Word :=
  if fl = 0 then st
  else
    let st1 := st ||| fl.setWidth 64
    if st.getLsbD 39 then st1 else st1 ||| BitVec.ofNat 64 (2 ^ 39 + off * 2 ^ 40)

/-- Record flags raised by slot `n` (R333). -/
def recordFlags (c : Ctx) (n : Nat) (fl : Flags) (pc : Word) : Ctx :=
  match c.crs.sticky.toList[n]? with
  | some st => { c with crs := { c.crs with sticky := c.crs.sticky.setIfInBounds n (stickyWith st fl (bundleOff c pc)) } }
  | none => c

/-- Add to the event count of slot `n`, saturating at 65,535 (R333). -/
def bumpCount (c : Ctx) (n k : Nat) : Ctx :=
  match c.crs.sticky.toList[n]? with
  | some st =>
    let v := min 65535 (bitsOf 16 16 st.toNat + k)
    let st1 := (st &&& ~~~(0xFFFF0000#64)) ||| BitVec.ofNat 64 (v * 2 ^ 16)
    { c with crs := { c.crs with sticky := c.crs.sticky.setIfInBounds n st1 } }
  | none => c

/-- Record a result below the floor in SIGRECn unless one stands there (R135, R334). -/
def recordSig (c : Ctx) (n : Nat) (pc : Word) (repi : BitVec 16) (lane : Nat) : Ctx :=
  match c.crs.sigrec.toList[n]? with
  | some r =>
    if r.getLsbD 63 then c
    else
      let v := BitVec.ofNat 64 (2 ^ 63 + (lane % 128) * 2 ^ 56 + repi.toNat * 2 ^ 40 + bundleOff c pc * 2 ^ 16)
      { c with crs := { c.crs with sigrec := c.crs.sigrec.setIfInBounds n v } }
  | none => c

/-- The mode a result is checked under: 0 inside a handler (R335). -/
def sigMode (c : Ctx) : Nat := if c.crs.intrap then 0 else sfMode c.crs.sigfloor

/-- The lowest lane below the floor of precision `p`, among lanes with their counts (R134); none when off, and none for integer
lanes, which have no count and are not checked. -/
def belowFloor (c : Ctx) (p : Nat) (lanes : List (Nat × Nat)) : Option Nat :=
  if sigMode c = 0 || p = 0 then none
  else (lanes.find? fun x => x.2 < sfFor p c.crs.sigfloor).map fun x => x.1

/-! ### Results becoming visible -/

def Regs.apply (r : Regs) : Write → Regs
  | .row n x => r.setRow n x
  | .scalar n x => r.setScalar n x
  | .pred n b => r.setPred n b
  | .mask n m => r.setMask n m

/-- Put a value at place `at_` of the three latches of a slot: those from there on move down, the last is lost. -/
def insertLatch (l : List Latch) (base at_ : Nat) (v : Latch) : List Latch :=
  if 3 ≤ at_ then l
  else
    let mine := (l.drop base).take 3
    l.take base ++ ((mine.take at_ ++ v :: mine.drop at_).take 3) ++ l.drop (base + 3)

def Regs.setLatches (r : Regs) (l : List Latch) : Regs :=
  { r with lat := Vector.ofFn fun i => l.getD i.val .invalid }

/-- Enter a result into its slot's latches, `passed` places down (R43, R59). -/
def Regs.enter (r : Regs) (slot passed : Nat) (v : Latch) : Regs :=
  if v = .invalid then r
  else match latchBase slot with
    | some b => r.setLatches (insertLatch r.lat.toList b passed v)
    | none => r

def Regs.clearLatches (r : Regs) : Regs := { r with lat := Vector.replicate 12 .invalid }

/-- Whether two writes name the same register; what is written to P0 or K0 is discarded (R34). -/
def sameReg : Write → Write → Bool
  | .row a _, .row b _ => a = b
  | .scalar a _, .scalar b _ => a = b
  | .pred a _, .pred b _ => a = b && a != 0
  | .mask a _, .mask b _ => a = b && a != 0
  | _, _ => false

/-- What an overdue result that `e` follows in the order of R52 still writes and where it enters its latches. -/
def Flight.passedBy (x e : Flight) : Flight :=
  if x.before e then
    { x with
      res := x.res.filter fun w => !(e.res.any fun v => sameReg v w)
      passed := if x.slot = e.slot && e.latch != .invalid then x.passed + 1 else x.passed }
  else x

/-- Whether a result becomes visible by now: its declared time has come and it is ready (R40, R59). -/
def Flight.shows (e : Flight) (c : Ctx) : Bool := e.due ≤ c.pt && e.ready ≤ c.pt
/-- The pipe time at which a result becomes visible. -/
def Flight.seen (e : Flight) : Nat := max e.due e.ready
/-- Results of a context that become visible by now, in the order of R52. -/
def dueFlights (c : Ctx) : List Flight := sortFlights (c.fl.filter fun e => e.shows c)

/-- One result becomes visible: registers, latches, flags, record of R135. -/
def showFlight (c : Ctx) (e : Flight) : Ctx :=
  let c1 := { c with
    regs := (e.res.foldl Regs.apply c.regs).enter e.slot e.passed e.latch
    fl := c.fl.map fun x => x.passedBy e }
  let c2 := recordFlags c1 e.slot e.flags e.pc
  match e.below with
  | some lane => if e.mode = 0 then c2 else recordSig c2 e.slot e.pc e.repi lane
  | none => c2

/-! ### The passing of cycles in a context's pipelines -/

/-- Pipe time moves on by `n` cycles. -/
def Ctx.advance (c : Ctx) (n : Nat) : Ctx := { c with pt := c.pt + n }

/-- A stall cycle: the pipelines are frozen, but overdue operations go on until they are ready (R40, R59). -/
def Ctx.stallCycle (c : Ctx) : Ctx :=
  { c with fl := c.fl.map fun e => if e.overdue c then { e with ready := e.ready - 1 } else e }

/-- Every operation in flight comes due (R41: before the context next issues). -/
def Ctx.comeDue (c : Ctx) : Ctx :=
  { c with
    pt := c.fl.foldl (fun m e => max m e.due) c.pt
    fl := c.fl.map fun e => { e with ready := min e.ready e.due } }

end Sys2Proof.Machine
end

