-- ==== Sys2Proof/Machine/VMem.lean ====
section
/-!
DEFINITION. Whole accesses by virtual address that an agent performs at once: the trap frame, the save area, records the
device writes, and the sector accesses of engines. Each is cut into pieces at 16-byte boundaries (08 R207), translated
page by page (18 R430), and zeroes the shadow it touches without carrying counts (05 R125).
-/
namespace Sys2Proof.Machine

/-- Why an access by virtual address did not happen: a translation fault with SUB and address, or a page to walk. -/
inductive VErr where
  | fault (sub addr : Nat)
  | miss (page : Nat)
  deriving DecidableEq, Repr

/-- Cut `n` bytes from `va` at 4 KiB boundaries. -/
def pagesFrom : Nat → Nat → Nat → List (Nat × Nat)
  | 0, _, _ => []
  | f + 1, va, n =>
    if n = 0 then [] else
      let k := min n (4096 - va % 4096)
      (va, k) :: pagesFrom f (va + k) (n - k)
def pagesOf (va n : Nat) : List (Nat × Nat) := pagesFrom (n / 4096 + 2) va n

/-- Translations of every page of a run, in order: virtual address, length, translation. -/
def trRun (s : State) (agent vf : Nat) (need : Need) (va n : Nat) : Except VErr (List (Nat × Nat × Tr)) :=
  (pagesOf va n).foldr (fun (x : Nat × Nat) (acc : Except VErr (List (Nat × Nat × Tr))) =>
    match translate s agent vf need (BitVec.ofNat 64 x.1) with
    | .ok t => (match acc with
      | .ok l => .ok ((x.1, x.2, t) :: l)
      | .error e => .error e)
    | .fault k => .error (.fault k x.1)
    | .miss p => .error (.miss p)) (.ok [])

/-- The shadow bytes of the TWID-sized elements that `n` bytes at `va` touch, even in part (R122, R125). -/
def shadowVas (t : Tr) (va n : Nat) : List Nat :=
  let sz := if twWid t.tagw = 0 then 2 else 4
  if n = 0 then [] else
    (List.range ((va + n - 1 - t.base) / sz - (va - t.base) / sz + 1)).map fun i => twBase t.tagw + (va - t.base) / sz + i

/-- Translate the shadow bytes of a run, with the agent's own permissions and without their entry's tag word (R122). -/
def shadowTrs (s : State) (agent vf : Nat) (need : Need) (vas : List Nat) : Except VErr (List Tr) :=
  vas.foldr (fun a (acc : Except VErr (List Tr)) =>
    match translate s agent vf need (BitVec.ofNat 64 a) with
    | .ok t => (match acc with
      | .ok l => .ok (t :: l)
      | .error e => .error e)
    | .fault k => .error (.fault k a)
    | .miss p => .error (.miss p)) (.ok [])

/-- The pieces of a write performed one after the other (R207). -/
def writePieces (s : State) (id agent vf : Nat) (key : Option Nat) (poisons : Bool) (bytes : List Byte) (mask : List Bool) (pa0 : Nat) : List (Nat × Nat) → State
  | [] => s
  | (pa, k) :: r =>
    let b := (bytes.drop (pa - pa0)).take k
    let m := (mask.drop (pa - pa0)).take k
    writePieces (if m.any id_ then pieceWrite s id agent vf pa b m key poisons else s) id agent vf key poisons bytes mask pa0 r
where
  /-- the mask bit itself -/
  id_ (b : Bool) : Bool := b

/-- A whole masked write at `va` by an agent; with `keeps` the shadow is zeroed where the region keeps one (R125), as it is
by every agent but the host (R129). Answers the write as releases carry it. -/
def writeBy (keeps : Bool) (s : State) (agent vf va : Nat) (bytes : List Byte) (mask : List Bool) (poisons : Bool) : Except VErr (State × WRef) :=
  match trRun s agent vf .w va bytes.length with
  | .error e => .error e
  | .ok runs =>
    let shadows := runs.flatMap fun (x : Nat × Nat × Tr) =>
      if keeps && twMode x.2.2.tagw = 2 then
        let touched := (List.range x.2.1).filter fun i => mask.getD (x.1 - va + i) false
        (touched.flatMap fun i => shadowVas x.2.2 (x.1 + i) 1)
      else []
    match shadowTrs s agent vf .w shadows with
    | .error e => .error e
    | .ok sh =>
      let id := s.uid
      let s0 := { s with uid := s.uid + 1 }
      let s1 := runs.foldl (fun st (x : Nat × Nat × Tr) =>
        writePieces st id agent vf x.2.2.key poisons ((bytes.drop (x.1 - va)).take x.2.1)
          ((mask.drop (x.1 - va)).take x.2.1) x.2.2.pa (piecesOf x.2.2.pa x.2.1)) s0
      let s2 := sh.foldl (fun st t => pieceWrite st id agent vf t.pa [0] [true] t.key false) s1
      .ok (s2, ⟨id, vf, va, bytes.length⟩)
/-- A write by an agent of the device. -/
def writeVA (s : State) (agent vf va : Nat) (bytes : List Byte) (mask : List Bool) (poisons : Bool) : Except VErr (State × WRef) :=
  writeBy true s agent vf va bytes mask poisons

def allOnes (n : Nat) : List Bool := List.replicate n true

/-- A whole read at `va` by an agent: the bytes as memory holds them and whether any sector is poisoned. -/
def readVA (s : State) (agent vf va n : Nat) : Except VErr (List Byte × Bool) :=
  match trRun s agent vf .r va n with
  | .error e => .error e
  | .ok runs =>
    .ok (runs.flatMap fun (x : Nat × Nat × Tr) => physRead s x.2.2.pa x.2.1 x.2.2.key,
      runs.any fun (x : Nat × Nat × Tr) => physPoison s x.2.2.pa x.2.1)

/-- Remember a write as the context's own (R317). -/
def ownWrite (s : State) (cid : Nat) (w : WRef) : State :=
  s.updCtx cid fun c => { c with view := { c.view with own := w :: c.view.own } }

/-- A write by a context at `va`, all bytes. -/
def ctxWrite (s : State) (cid vf va : Nat) (bytes : List Byte) : Except VErr State :=
  match writeVA s cid vf va bytes (allOnes bytes.length) false with
  | .ok (s1, w) => .ok (ownWrite s1 cid w)
  | .error e => .error e

/-! ### Accesses the device makes as one act, their walks included -/

/-- The walk of a page an access needs, done at once. -/
def warmPage (s : State) (agent vf page : Nat) : State :=
  match translate s agent vf .r (BitVec.ofNat 64 (page * 4096)) with
  | .miss _ =>
    (match walkPage s vf page with
     | .ok (level, e) =>
       let t : TlbEntry := ⟨vf, page / 2 ^ (9 * level), level, e⟩
       { s with tlb := if s.tlb.contains t then s.tlb else t :: s.tlb }
     | .error sub => { s with walkFaults := ⟨agent, vf, page, sub⟩ :: s.walkFaults })
  | _ => s
def warm (s : State) (agent vf va n : Nat) : State := (pagesOf va n).foldl (fun st x => warmPage st agent vf (x.1 / 4096)) s

/-- What a write needs besides: the walks of the shadow bytes it zeroes or writes (R122, R125, R430). -/
def warmW (s : State) (agent vf va n : Nat) : State :=
  let s1 := warm s agent vf va n
  match trRun s1 agent vf .w va n with
  | .error _ => s1
  | .ok runs => runs.foldl (fun st x =>
      if twMode x.2.2.tagw = 2 then
        let l := shadowVas x.2.2 x.1 x.2.1
        warm st agent vf (l.headD 0) l.length
      else st) s1

/-- The number under which an engine waits for walks, apart from its context. -/
def engineOf (cid : Nat) : Nat := 2 ^ 66 + cid

/-- SUB of a failed access (R439). -/
def VErr.sub : VErr → Nat
  | .fault k _ => k
  | .miss _ => 2

/-- A write of all bytes by an agent of a function, or SUB of its fault, nothing written. -/
def devWrite (s : State) (agent vf va : Nat) (bytes : List Byte) : Except Nat (State × WRef) :=
  match writeVA (warmW s agent vf va bytes.length) agent vf va bytes (allOnes bytes.length) false with
  | .ok (t, w) => .ok (dropWalkFaults t agent, w)
  | .error e => .error e.sub

/-- A write by the host, which maintains no shadow (R129). -/
def hostWrite (s : State) (agent vf va : Nat) (bytes : List Byte) : Except Nat (State × WRef) :=
  match writeBy false (warm s agent vf va bytes.length) agent vf va bytes (allOnes bytes.length) false with
  | .ok (t, w) => .ok (dropWalkFaults t agent, w)
  | .error e => .error e.sub

/-- A read by an agent of a function: the bytes and whether any was poisoned, or SUB of its fault. -/
def devRead (s : State) (agent vf va n : Nat) : Except Nat (List Byte × Bool) :=
  match readVA (warm s agent vf va n) agent vf va n with
  | .ok r => .ok r
  | .error e => .error e.sub

/-- The 16-byte word at `va` as an agent of the device reaches it, its walks included: its translation, and the shadow bytes it has
in a SHADOW region, with their keys. None where it or a shadow byte does not translate (R122). -/
def devWord (s : State) (agent vf va : Nat) : Option (Tr × List (Nat × Option Nat)) :=
  let s1 := warmW s agent vf va 16
  match trRun s1 agent vf .rw va 16 with
  | .ok ((_, _, t) :: _) =>
    if twMode t.tagw = 2 then
      match shadowTrs s1 agent vf .w (shadowVas t va 16) with
      | .ok l => some (t, l.map fun x => (x.pa, x.key))
      | .error _ => none
    else some (t, [])
  | _ => none

/-- Whether a pending access writes memory. -/
def GOp.writes (g : GOp) : Bool :=
  match g.kind with
  | .store _ _ => true
  | .atomic .. => true
  | _ => false

/-- Whether a part touches a run of physical bytes. -/
def Part.touches (p : Part) (pa n : Nat) : Bool := p.pa < pa + n && pa < p.pa + p.len

/-- Whether the agent still has stores on their way to bytes of the run (R208). -/
def ownStorePending (s : State) (agent pa n : Nat) : Bool :=
  s.gops.any fun g => g.agent = agent && g.writes && g.parts.any fun p => p.touches pa n

/-- Whether the agent has any store or atomic on its way. -/
def anyStorePending (s : State) (agent : Nat) : Bool := s.gops.any fun g => g.agent = agent && g.writes

end Sys2Proof.Machine
end

