-- ==== Sys2Proof/Machine/Frame.lean ====
section
/-!
DEFINITION. The trap frame in memory (13 R339, R340): latches, replay entries, header, as bytes and back.
-/
namespace Sys2Proof.Machine

def zeros (n : Nat) : List Byte := List.replicate n 0

/-- A latch in 384 bytes (R339): value, trust plane, tag, kind. -/
def latchBytes : Latch → List Byte
  | .invalid => zeros 384
  | .row r => leBytes 256 r.val.toNat ++ leBytes 64 r.trust.toNat ++ [r.tag, 1] ++ zeros 62
  | .scalar x => leBytes 256 x.val.toNat ++ leBytes 64 x.cnt.toNat ++ [0, 2] ++ zeros 62
  | .mask m => leBytes 256 m.toNat ++ leBytes 64 0 ++ [0, 3] ++ zeros 62

/-- The byte at a place of a string, zero past its end. -/
def byteAt (l : List Byte) (i : Nat) : Byte := l.getD i 0
/-- The number in `n` bytes at a place. -/
def numAt (l : List Byte) (i n : Nat) : Nat := leNat ((l.drop i).take n)
def wordAt (l : List Byte) (i : Nat) : Word := BitVec.ofNat 64 (numAt l i 8)
def zeroAt (l : List Byte) (i n : Nat) : Bool := ((l.drop i).take n).all (· = 0)

/-- Value and trust plane at a place. -/
def rawRowAt (l : List Byte) (i : Nat) (tag : Byte) : Row :=
  ⟨BitVec.ofNat 2048 (numAt l i 256), BitVec.ofNat 512 (numAt l (i + 256) 64), tag⟩
/-- A row read from memory (R105). -/
def rowAt (l : List Byte) (i : Nat) (tag : Byte) : Row := normRow (rawRowAt l i tag)
/-- A scalar's count from its byte, clamped (R105). -/
def countOf (b : Byte) : BitVec 5 := BitVec.ofNat 5 (min b.toNat 24)
/-- A block of a replay entry: a row, or a scalar or an operand that could not be captured under a tag of log 8. -/
def blockAt (l : List Byte) (i : Nat) (tag : Byte) : Row :=
  let r := rawRowAt l i tag
  if tag = scalarTag then { r with trust := (countOf (byteAt l (i + 256))).setWidth 512 } else if tagOk tag then normRow r else r

/-- A latch read back from 384 bytes; none when a reserved byte is not zero, or the kind or the tag is none that is written. -/
def latchOf (l : List Byte) : Option Latch :=
  if !zeroAt l 322 62 then none
  else match (byteAt l 321).toNat with
    | 0 => some .invalid
    | 1 => if tagOk (byteAt l 320) then some (.row (rowAt l 0 (byteAt l 320))) else none
    | 2 => some (.scalar ⟨wordAt l 0, countOf (byteAt l 256)⟩)
    | 3 => some (.mask (BitVec.ofNat 128 (numAt l 0 16)))
    | _ => none

def blockBytes (b : Row) : List Byte := leBytes 256 b.val.toNat ++ leBytes 64 b.trust.toNat

/-- A replay entry in 1,344 bytes (R339). DESIGN CHOICE: DUE has one byte, and a distance above 255 is written modulo 256 (R54;
log 95). -/
def replayBytes (e : Replay) : List Byte :=
  leBytes 8 (e.slotw.toNat + e.slot * 2 ^ 60 + (if e.skip then 2 ^ 63 else 0)) ++ leBytes 2 e.iter.toNat
    ++ leBytes 2 e.edst.toNat ++ [BitVec.ofNat 8 e.due, e.srck, if e.hasRes then 1 else 0, 0]
    ++ leBytes 16 e.kcap.toNat ++ [e.b0.tag, e.b1.tag, e.b2.tag, e.b3.tag] ++ zeros 28
    ++ blockBytes e.b0 ++ blockBytes e.b1 ++ blockBytes e.b2 ++ blockBytes e.b3

/-- The tag bytes a block of an entry may carry: those of rows, and those of log 8. -/
def blockTagOk (t : Byte) : Bool := tagOk t || t = scalarTag || t = illegalTag || t = allotTag

/-- A replay entry read back; none when a reserved byte is not zero, or a block's tag is none that is written (R95; log 14). -/
def replayOf (l : List Byte) : Option Replay :=
  if byteAt l 15 != 0 || !zeroAt l 36 28 || !((List.range 4).all fun i => blockTagOk (byteAt l (32 + i))) then none
  else
    let w := numAt l 0 8
    some { Replay.none with
      slotw := BitVec.ofNat 60 w, slot := bitsOf 60 3 w, skip := bitsOf 63 1 w = 1,
      iter := BitVec.ofNat 16 (numAt l 8 2), edst := BitVec.ofNat 16 (numAt l 10 2), due := (byteAt l 12).toNat,
      srck := byteAt l 13, hasRes := byteAt l 14 != 0, kcap := BitVec.ofNat 128 (numAt l 16 16),
      b0 := blockAt l 64 (byteAt l 32), b1 := blockAt l 384 (byteAt l 33), b2 := blockAt l 704 (byteAt l 34),
      b3 := blockAt l 1024 (byteAt l 35) }

/-- A frame's contents (R338, R339). -/
structure Frame where
  repi : BitVec 16
  nexti : Nat
  ncnt : Nat
  tfpc : Word
  latches : List Latch
  entries : List Replay
  deriving DecidableEq, Repr

def frameBytes (f : Frame) : List Byte :=
  leBytes 2 f.repi.toNat ++ [BitVec.ofNat 8 f.entries.length, 0] ++ leBytes 2 f.nexti ++ leBytes 2 f.ncnt
    ++ leBytes 8 f.tfpc.toNat ++ zeros 48 ++ f.latches.flatMap latchBytes ++ f.entries.flatMap replayBytes

/-- All of a list of options, or none. -/
def allSome {α : Type} : List (Option α) → Option (List α)
  | [] => some []
  | none :: _ => none
  | some a :: r => (allSome r).map (a :: ·)

/-- A frame read back for RETT (R343): none when NENT is above 24 or a reserved field is not zero. -/
def frameOf (l : List Byte) : Option Frame :=
  let n := (byteAt l 2).toNat
  if 24 < n || byteAt l 3 != 0 || !zeroAt l 16 48 then none
  else
    match allSome ((List.range 12).map fun i => latchOf ((l.drop (64 + 384 * i)).take 384)),
          allSome ((List.range n).map fun i => replayOf ((l.drop (4672 + 1344 * i)).take 1344)) with
    | some ls, some es =>
      some ⟨BitVec.ofNat 16 (numAt l 0 2), numAt l 4 2, numAt l 6 2, wordAt l 8, ls, es⟩
    | _, _ => none

/-- Base of the frame (R337). -/
def tfBase (c : Ctx) : Word := c.crs.sabase + 0x2E40
def frameSize : Nat := 36928

/-- A result as a block of a replay entry (R339). -/
def blockOfWrite : Write → Row
  | .row _ x => x
  | .scalar _ x => blockOfScalar x
  | .pred _ b => ⟨if b then 1 else 0, 0, 0⟩
  | .mask _ m => ⟨m.setWidth 2048, 0, 0⟩
def blockOfLatch : Latch → Option Row
  | .invalid => none
  | .row x => some x
  | .scalar x => some (blockOfScalar x)
  | .mask m => some ⟨m.setWidth 2048, 0, 0⟩
/-- Block 3 of an entry that holds its result: the first register it writes, or the latch a transient one enters (R44, R136). -/
def heldBlock (e : Flight) : Row :=
  match e.res with
  | w :: _ => blockOfWrite w
  | [] => (blockOfLatch e.latch).getD e.rep.b3

/-- An operation whose result is kept at a trap: one of the slots M, L, W, C and Y, which acts beyond its result or reads what may
change, so that to compute it again would not give the result of its issue. DEDUCED from R54 and R292 (log 13). -/
def Flight.keeps (e : Flight) : Bool := 3 ≤ e.slot

/-- What a result in flight looks like as a replay entry (R340): computed again from its captured operands, or kept. The
rows of an ACC.RD, which are still to be checked against the floor, are kept beside the frame with HASRES 0 (log 13). -/
def flightEntry (n1 : Nat) (e : Flight) : Replay :=
  let d := { e.rep.side with passed := e.passed, lost := e.res.isEmpty }
  let r := { e.rep with due := e.seen - n1 }
  if e.keeps then
    { r with
      hasRes := e.tkop.isNone, b3 := if e.tkop.isNone then heldBlock e else r.b3
      side := { d with kept := true, res := e.res, latch := e.latch, below := e.below, tkop := e.tkop, flags := e.flags } }
  else { r with side := d }

/-- The entry of a withheld result: HASRES 1, the first of what it writes in block 3 (R136, R339), whatever else it writes, the
further rows of an ACC.RD, and its flags beside the frame (log 13). -/
def withheld (n1 : Nat) (e : Flight) : Replay :=
  let r := flightEntry n1 e
  { r with hasRes := true, b3 := heldBlock e, side := { r.side with flags := e.flags } }

end Sys2Proof.Machine
end

