-- ==== Sys2Proof/Machine/Lease.lean ====
section
/-!
DEFINITION. The lease of a tile's matrix array (10 R261 to R266): requests, arbitration, grants, release.
-/
namespace Sys2Proof.Machine

/-- Level of a pending request's context. -/
def State.level (s : State) (cid : Nat) : Nat := (s.ctx cid).bind.level

/-- The highest level among requests. -/
def topLevel : List (Nat × Nat) → Nat
  | [] => 0
  | x :: r => max x.2 (topLevel r)

/-- The request served next within a level: round-robin over the tile's contexts after the one last granted. -/
def roundRobin (last : Nat) (l : List Nat) : Option Nat :=
  let key (c : Nat) : Nat := (c % 16 + 15 - last) % 16
  l.foldl (fun b c => match b with
    | none => some c
    | some d => if key c < key d then some c else some d) none

/-- The winner of an arbitration (R263). -/
def Lease.winner (l : Lease) : Option Nat :=
  let top := topLevel l.reqs
  roundRobin ((look top l.last).getD 15) ((l.reqs.filter fun x => x.2 = top).map Prod.fst)

/-- Arbitration: the winner takes over within 4 cycles; a holder that loses gets a request of its own (R264). -/
def Lease.arbitrate (l : Lease) (lvl : Nat → Nat) : Lease :=
  match l.winner with
  | none => l
  | some w => { l with
      next := some w
      holder := none
      reqs := match l.holder with
        | some h => l.reqs ++ [(h, lvl h)]
        | none => l.reqs }

/-- LEASE_GRANT's effect: a fresh run of 32. -/
def Lease.grant (l : Lease) : Lease :=
  match l.next with
  | none => l
  | some w => { l with
      holder := some w, next := none, run := 32
      last := put ((l.reqs.find? fun x => x.1 = w).map Prod.snd |>.getD 0) (w % 16) l.last
      reqs := l.reqs.filter fun x => x.1 != w }

/-- Whether the holder's chain is open or ending. -/
def Tile.holderChained (t : Tile) : Bool :=
  match t.chain, t.lease.holder with
  | some c, some h => c.owner = h
  | _, _ => false

/-- A context has the lease or has asked for it. -/
def Lease.asked (l : Lease) (cid : Nat) : Bool := l.holder = some cid || l.reqs.any fun x => x.1 = cid

/-- A request arrives (R263). -/
def Tile.request (t : Tile) (cid : Nat) (lvl : Nat → Nat) : Tile :=
  let l := { t.lease with reqs := t.lease.reqs ++ [(cid, lvl cid)] }
  let go := match l.holder, l.next with
    | some h, _ => !t.holderChained && (l.run = 0 || lvl h < lvl cid)
    | none, some n => decide (lvl n < lvl cid)
    | none, none => true
  { t with lease := if go then l.arbitrate lvl else l }

/-- The lease leaves a context for good: as holder, as winner, as requester (R263, R265). -/
def Lease.without (l : Lease) (cid : Nat) (lvl : Nat → Nat) : Lease :=
  let l1 := { l with reqs := l.reqs.filter fun x => x.1 != cid }
  if l.holder = some cid then { l1 with holder := none }.arbitrate lvl
  else if l.next = some cid then { l1 with next := none }.arbitrate lvl
  else l1

/-- The lease of a tile ends for a context (R265, R341, R343, R345). -/
def endLease (s : State) (cid : Nat) : State :=
  let t := s.tile (tileOf cid)
  s.setTile { t with lease := t.lease.without cid s.level }

/-- What happens to the lease at the completion of the holder's chain (R263). -/
def Lease.afterChain (l : Lease) (lvl : Nat → Nat) : Lease :=
  match l.holder with
  | none => l
  | some h =>
    if (l.run = 0 && !l.reqs.isEmpty) || l.reqs.any fun x => lvl h < x.2 then l.arbitrate lvl
    else if l.run = 0 then { l with run := 32 } else l

end Sys2Proof.Machine
end

