-- ==== Sys2Proof/Machine/Views.lean ====
section
/-!
DEFINITION. Location words (09 R222), anchors (12 R321, R322), the writes a context sees (12 R317 to R319), and
what a read may return (R320).
-/
namespace Sys2Proof.Machine

/-! ### Location words -/

/-- A location word read by its kind (R222). -/
inductive Loc where
  | glob (va : Nat)
  | here (off : Nat)
  | remote (tile off : Nat)
  | stream (q : Nat) (tag : Byte)
  | bad
  deriving DecidableEq, Repr

def parseLoc (w : Word) : Loc :=
  let n := w.toNat
  match bitsOf 62 2 n with
  | 0 => if bitsOf 56 6 n != 0 then .bad else .glob (bitsOf 0 56 n)
  | 1 => if bitsOf 24 38 n != 0 then .bad else .here (bitsOf 0 24 n)
  | 2 => if bitsOf 39 23 n != 0 || bitsOf 23 9 n != 0 then .bad else .remote (bitsOf 32 7 n) (bitsOf 0 23 n)
  | _ => if bitsOf 12 50 n != 0 || w.getLsbD 3 then .bad else .stream (bitsOf 0 3 n) (BitVec.ofNat 8 (bitsOf 4 8 n))

/-- The place of a scratchpad byte among the places of sync words: physical addresses lie below 2^60. -/
def spadPlace (k : Nat) : Nat := 2 ^ 60 + k

/-- A location word with bits 3:0 cleared. -/
def clearLow4 (w : Word) : Word := w &&& ~~~(15#64)

/-- The anchor a location word names to a context, so that two words for one place compare equal (R322). -/
def anchorOf (c : Ctx) (w : Word) : Nat :=
  match parseLoc (clearLow4 w) with
  | .glob va => c.bind.vf * 2 ^ 56 + va
  | .here off => 2 ^ 70 + spadKey (tileOf c.cid) (c.bind.bank * 2 ^ 18 + off % (c.bind.banks * 2 ^ 18))
  | .remote t off => 2 ^ 70 + spadKey t off
  | _ => 2 ^ 80

/-- The moorings of the context (R318): anchor, base, length. -/
def Ctx.moorings (c : Ctx) : List (Nat × Nat × Nat) :=
  c.moor.toList.filterMap fun m => m.map fun x => (anchorOf c x.anchor, x.base.toNat, x.len)

/-! ### What a context sees -/

/-- The part of a write that lies in a region of a function; of one without a length, whatever of it lies there. -/
def WRef.clip (w : WRef) (vf base len : Nat) : Option WRef :=
  if w.len = 0 then some { w with vf := vf, va := base, len := len }
  else
  let lo := max w.va base
  let hi := min (w.va + w.len) (base + len)
  if w.vf = vf && lo < hi then some { w with va := lo, len := hi - lo } else none

/-- The writes that an acquire made visible in a region moored to its anchor (R318). -/
def Acq.within (a : Acq) (vf base len : Nat) : List WRef := a.ws.filterMap fun w => w.clip vf base len

/-- Writes of a context or visible to it (R317, R318, R319). -/
def visibleWrites (c : Ctx) : List WRef :=
  c.view.own ++ c.view.known ++ c.view.acqs.flatMap fun a =>
    a.known ++ (if a.fenced then a.ws
    else (c.moorings.filter fun m => m.1 = a.anchor).flatMap fun m => a.within c.bind.vf m.2.1 m.2.2)
/-- The writes a release may carry: those visible to the context, or that had become so (R317). -/
def carriedWrites (c : Ctx) : List WRef := visibleWrites c ++ c.view.past
/-- A mooring goes: what it had made visible has been visible (R317, R324). -/
def Ctx.unmoored (c : Ctx) (m : Option Mooring) : Ctx :=
  match m with
  | none => c
  | some x => { c with view := { c.view with past :=
      ((c.view.acqs.filter fun a => a.anchor = anchorOf c x.anchor).flatMap fun a => a.within c.bind.vf x.base.toNat x.len) ++ c.view.past } }

/-! ### What a read may return (R320) -/

/-- Whether the bytes of a reference that a function reads at `va` belong to write `id`; a reference without a length is
the whole write. -/
def WRef.meets (w : WRef) (vf va n id : Nat) : Bool :=
  w.id = id && (w.len = 0 || (w.vf = vf && w.va < va + n && va < w.va + w.len))

/-- Whether a write is visible to a read without condition or through an acquire (R318, R319). -/
def visibleTo (v : View) (nAcq nKnown : Nat) (moors : List (Nat × Nat × Nat)) (vf va n id : Nat) : Bool :=
  (v.known.drop (v.known.length - nKnown)).any (fun w => w.meets vf va n id)
    || (v.acqs.drop (v.acqs.length - nAcq)).any fun a =>
        a.known.any (fun w => w.meets vf va n id) || a.ws.any (fun w => w.meets vf va n id)
          && (a.fenced || moors.any fun m => m.1 = a.anchor && m.2.1 ≤ va && va + n ≤ m.2.1 + m.2.2)

/-- Whether a reader of function `vf` under `key` may be given what stood in bytes `lo` to `lo + n - 1` of a piece before write
`w`: bytes written under its own key, each last by an agent of its function, or never written (R4, R442). `r` is what was
written before `w`. -/
def mayShow (vf : Nat) (key : Option Nat) (lo n : Nat) (w : WRec) (r : List WRec) : Bool :=
  w.key = key && (List.range n).all fun i =>
    (r.find? fun x => x.piece = w.piece && x.mask.getLsbD (lo + i)).all fun x => x.vf = vf

/-- The write a read of `n` bytes from `lo` of a piece returns, going back at most `pick` writes: past none that is the agent's
own, visible, or the one its previous read returned, and to no bytes of another function or key. Answers the 16 bytes and the
write's identity. -/
def goBack (piece vf : Nat) (key : Option Nat) (lo n : Nat) (stop : WRec → Bool) (now : List Byte) :
    Nat → List WRec → List Byte × Option Nat
  | _, [] => (now, none)
  | pick, w :: r =>
    if w.piece = piece then
      match pick, w.before with
      | p + 1, some b => if stop w || !mayShow vf key lo n w r then (now, some w.id) else goBack piece vf key lo n stop b p r
      | _, _ => (now, some w.id)
    else goBack piece vf key lo n stop now pick r

/-- A place of the scratchpad as an address that no global byte has: so the writes of copies to it are referred to. -/
def spadVa (k : Nat) : Nat := 2 ^ 64 + k

end Sys2Proof.Machine
end

