-- ==== Sys2Proof/Machine/Retire.lean ====
section
/-!
DEFINITION. The end of a context (13 R330, R341, R343, R354): what its retirement ends on the tile and at the homes.
-/
namespace Sys2Proof.Machine

/-! ### Groups and launches by number -/

def State.group (s : State) (g : Nat) : Option Group := s.groups.find? fun x => x.id = g
def State.updGroup (s : State) (g : Nat) (f : Group → Group) : State :=
  { s with groups := s.groups.map fun x => if x.id = g then f x else x }
def State.launch (s : State) (l : Nat) : Option Launch := s.launches.find? fun x => x.id = l
def State.updLaunch (s : State) (l : Nat) (f : Launch → Launch) : State :=
  { s with launches := s.launches.map fun x => if x.id = l then f x else x }

/-- TFCAUSE of a trap (R337). -/
def causeWord (k : Cause) (repi : BitVec 16) : Word :=
  BitVec.ofNat 64 (k.cls % 256 + (k.sub % 256) * 2 ^ 8 + (k.code % 65536) * 2 ^ 16 + (k.slot % 8) * 2 ^ 32
    + (match k.lane with
       | some l => (l % 128) * 2 ^ 40 + 2 ^ 47
       | none => 0) + repi.toNat * 2 ^ 48)

/-! ### Cycles in which a context waits (14 R365) -/

/-- The counters of R365 for the context's phase: 0 ISSUE, 1 STALL, 2 WAIT, 3 CIDLE. -/
def bumpPhase (c : Ctx) (which n : Nat) : Ctx :=
  let k := 4 * c.phase + which
  { c with counts := put k (min ((look k c.counts).getD 0 + n) (2 ^ 32 - 1)) c.counts }

/-- Whether a context is resident on its core and not the one that issues: it waits (R365). -/
def Ctx.waits (c : Ctx) : Bool :=
  match c.status with
  | .ready => true
  | .blocked _ => true
  | _ => false

/-- Whether a context is resident and can neither issue nor wait: its banks are not free yet, or it is being saved or restored. -/
def Ctx.sits (c : Ctx) : Bool := c.status = .loaded || c.status = .saving || c.status = .restoring

/-- `n` cycles of its core, in `idle` of which that issued nothing, for a resident context that does not hold the core (R365): it waits
in them when it is ready or blocked. -/
def Ctx.passes (c : Ctx) (n idle : Nat) : Ctx :=
  if c.waits then bumpPhase (bumpPhase c 2 n) 3 idle else if c.sits then bumpPhase c 3 idle else c

/-- `n` cycles of core `k` in which it issued nothing, for a context that is resident there. -/
def idleCtx (k n : Nat) (c : Ctx) : Ctx := if hwOf c.cid / 4 = k then c.passes n n else c

/-- The cycles since core `k` last issued count for the contexts resident on it, up to the tile's cycle. A core's idle cycles are
counted so when one of its contexts comes, goes, or begins or ceases to wait. -/
def flushCore (s : State) (k : Nat) : State :=
  let t := s.tile (k / 4)
  let n := t.cyc - t.nextAt.toList.getD (k % 4) 0
  if n = 0 then s
  else
    let s1 := s.setTile { t with nextAt := t.nextAt.setIfInBounds (k % 4) t.cyc }
    { s1 with cur := idleCtx k n s1.cur, others := s1.others.map (idleCtx k n) }

/-- CPY.CANCEL.ALL's effect on a window (R256, R341): waiting, running and stopped commands become cancelled. -/
def cancelCmd (c : CopyCmd) : CopyCmd := if 1 ≤ c.state && c.state ≤ 3 then { c with state := 5 } else c
def Window.cancelAll (w : Window) : Window := { w with cmds := w.cmds.map fun x => (x.1, cancelCmd x.2) }

/-- Registrations and answered operations of a context are withdrawn at their homes (R299, R325, R357, R389). -/
def withdraw (s : State) (cid : Nat) : State :=
  { s with
    syncRegs := s.syncRegs.filter fun r => r.cid != cid
    sops := s.sops.filter fun o => o.cid != cid || !o.answered
    answers := s.answers.filter fun a => a.cid != cid
    pipes := s.pipes.map fun p => { p with
      pushQ := p.pushQ.filter (fun x => x.2 != cid), popQ := p.popQ.filter fun x => x != cid } }

/-- Every mooring goes; what they had made visible falls to the default mooring (R319, R322). -/
def Ctx.unmooredAll (c : Ctx) : Ctx := { c.moor.toList.foldl Ctx.unmoored c with moor := Vector.replicate 16 none }

/-- The context's own part of retiring (R322, R343): entries discarded, moorings invalid, nothing in flight. -/
def Ctx.ended (c0 : Ctx) (cause : Option Cause) : Ctx :=
  let c := c0.unmooredAll
  { c with
    status := .retired, ldq := [], fl := [], wait := none, reads := [], sleepTill := none, pends := [], iss := Iss.none,
    win := if cause.isSome then c.win.cancelAll else c.win,
    crs := match cause with
      | some k => { c.crs with tfcause := causeWord k c.crs.repi }
      | none => c.crs }

/-! ### What a retirement means for the group and the launch (14 R359, R362, R365, 15 R377, R381, R382) -/

/-- CTXID (R164). -/
def ctxId (c : Ctx) : Word :=
  BitVec.ofNat 64 (c.bind.vf * 2 ^ 24 + tileOf c.cid * 2 ^ 11 + coreOf c.cid * 4 + ctxNo c.cid)


/-- The class of a cancelled launch's contexts (R336). -/
def cancelCls : Nat := 0x30

/-- Whether a cause taints: every one but a cancellation (R381). -/
def taints (cause : Option Cause) : Bool :=
  match cause with
  | some k => k.cls != cancelCls
  | none => false
def cancels (cause : Option Cause) : Bool :=
  match cause with
  | some k => k.cls = cancelCls
  | none => false

/-- The launch learns of a context's retirement: its record carries the writes of the context and of its engines, and those
visible to it (R319). -/
def Launch.noteRetire (l : Launch) (c : Ctx) (cause : Option Cause) (now : Nat) : Launch :=
  { l with
    tend := now
    cancelled := l.cancelled || cancels cause
    taint := l.taint || taints cause || c.crs.poisonC
    first := match l.first, cause with
      | none, some k => some (k.cls, k.sub, (ctxId c).toNat)
      | f, _ => f
    ws := carriedWrites c ++ c.view.eng ++ l.ws }

/-- A member's placement record (R365): 320 bytes. -/
def placeRecord (c : Ctx) : List Byte :=
  leBytes 4 (ctxId c).toNat ++ leBytes 2 c.bind.member ++ zeros 58 ++
    (List.range 64).flatMap fun k => leBytes 4 ((look k c.counts).getD 0)

/-- The agent number under which a function's records are written. -/
def devAgent (vf : Nat) : Nat := 2 ^ 65 + vf

/-- Placement records of a group's members, for a launch that gives a table; one whose write faults is dropped. -/
def writePlaces (s : State) (g : Group) (l : Launch) : State :=
  if l.place = 0 then s
  else g.members.foldl (fun st m =>
    let c := st.ctx m
    match devWrite st (devAgent l.fn) l.fn (l.place + 320 * (g.num * g.members.length + c.bind.member)) (placeRecord c) with
    | .ok (t, w) => t.updLaunch l.id fun x => { x with ws := w :: x.ws }
    | .error _ => st) s

/-- Whether every context of a group has retired. -/
def Group.over (g : Group) (s : State) : Bool := g.members.all fun m => (s.ctx m).status = .retired

/-- A group whose contexts have retired, with those of its whole gang: its hardware contexts and blocks are free, and its banks
go as their accesses end (R362; log 26). -/
def Group.gone (g : Group) : Bool := g.st = .completing || g.st = .retired
/-- The groups of a gang; a kernel launch's group alone. -/
def gangGroups (s : State) (g : Group) : List Group := s.groups.filter fun x => x.ticket = g.ticket && x.launch = g.launch

/-- Groups that have retired and own no bank are forgotten, with their contexts. -/
def forgetGroups (s : State) : State :=
  let held (g : Nat) : Bool := s.tiles.any fun t => t.banks.toList.any fun b => b.owner = some g
  let gone := s.groups.filter fun g => g.st = .retired && !(held g.id)
  let dead (c : Nat) : Bool := gone.any fun g => g.members.contains c
  { s with groups := s.groups.filter (fun g => !(gone.any fun h => h.id = g.id)), others := s.others.filter fun c => !(dead c.cid) }

/-- A group is completing: placement records, counts, banks released, hardware contexts free (R362, R365, R377, R382). -/
def endGroup (s : State) (g : Group) : State :=
  match s.launch g.launch with
  | none => s
  | some l =>
    let s1 := writePlaces s g l
    let s2 := s1.updGroup g.id fun x => { x with st := .completing, releasing := (List.range g.banks).map (· + g.bank), relAt := [] }
    let s3 := s2.updLaunch l.id fun x => { x with ngrp := x.ngrp + 1, ntaint := if g.taint then x.ntaint + 1 else x.ntaint }
    { s3 with audits := s3.audits.map fun a => if a.group = g.id then { a with ready := true } else a }
/-- The last context of a group or gang has retired: every group of it is completing, and its pipes go back to the die's buffer
(R355, R359). -/
def endGang (s : State) (g : Group) : State :=
  let gang := gangGroups s g
  let s1 := gang.foldl endGroup s
  { s1 with pipes := s1.pipes.filter fun p => !(gang.any fun g => g.id = p.pushG || g.id = p.popG) }

/-- Groups placed and pre-empted with a group: those of its gang (R355). -/
def gangOf (s : State) (g : Group) : List Nat := (s.groups.filter fun x => x.ticket = g.ticket).map Group.id
/-- A group that makes way for a ticket, with those of its gang, is saved once every context that has not retired is (R355, R362): its
hardware contexts and blocks are free. -/
def groupSaved (s : State) (g : Group) : State :=
  let gs := gangOf s g
  let all := (s.group g.id).any (fun x => x.victim.isSome) && s.groups.all fun x => !gs.contains x.id || x.members.all fun m => (s.ctx m).status = .saved || (s.ctx m).status = .retired
  if all then { s with groups := s.groups.map fun x => if gs.contains x.id && x.st = .running then { x with st := .saved } else x }
  else s

/-- The group learns of a context's retirement; that of a replay changes nothing of the launch (19 R469). -/
def noteRetire (s : State) (cid : Nat) (cause : Option Cause) : State :=
  let c := s.ctx cid
  match s.group c.bind.group with
  | none => s
  | some g =>
    let s1 := s.updGroup g.id fun x => { x with
      arrived := x.arrived.filter fun m => m != cid
      taint := x.taint || taints cause || c.crs.poisonC }
    if isReplay s cid then s1 else
    let s2 := s1.updLaunch g.launch fun l => l.noteRetire c cause s.htime
    if (gangGroups s2 g).all (fun h => h.over s2 && !h.gone) then endGang s2 g else groupSaved s2 g

/-- What a context that retires had in the tile's array goes with it: its chain, its queued operations, the latch fills; so do
its berths. -/
def endArray (s : State) (cid : Nat) : State :=
  let t := s.tile (tileOf cid)
  let mine : Bool := match t.chain with
    | some ch => ch.owner = cid
    | none => false
  let t1 := { t with arr := t.arr.filter (fun o => o.cid != cid), berths := drp cid t.berths }
  s.setTile (if mine then { t1 with chain := none, gatherLat := [], bLat := [] } else t1)

/-- A context retires, with a cause or through END (R341, R343, R354). -/
def retireCtx (s : State) (cid : Nat) (cause : Option Cause) : State :=
  let s1 := withdraw (endLease (endArray (flushCore s (hwOf cid / 4)) cid) cid) cid
  noteRetire (s1.updCtx cid fun c => c.ended cause) cid cause

/-! ### The end of an audit (19 R471) -/

/-- The group that replays an audited one ends: its contexts retire with nothing on its way, and it gives back what it holds. -/
def endReplay (s : State) (a : Audit) : State :=
  match a.replay.bind s.group with
  | none => s
  | some g =>
    let s1 : State := g.members.foldl (fun st m =>
      if (st.ctx m).status = .retired || (st.ctx m).status = .free then st else retireCtx st m (some { cls := cancelCls })) s
    let s2 : State := { s1 with
      gops := s1.gops.filter fun o => !g.members.contains o.agent
      sops := s1.sops.filter fun o => !g.members.contains o.cid
      tiles := s1.tiles.map fun t => { t with banks := t.banks.map fun b => if b.claim = some g.id then { b with claim := none } else b } }
    forgetGroups (s2.updGroup g.id fun x => { x with st := .retired, releasing := (List.range x.banks).map (· + x.bank) })

/-- An audit ends, with its replay. -/
def endAudit (s : State) (a : Audit) : State := dropAudit (endReplay s a) a

/-- Whether an audited group has retired and everything it had on its way has been performed. -/
def settledAudit (s : State) (a : Audit) : Bool := a.ready && !(s.gops.any fun g => a.members.contains g.agent)

end Sys2Proof.Machine
end

