-- ==== Sys2Proof/Machine/CtlRegs.lean ====
section
/-!
DEFINITION. What the control registers read as (06 R163, R164, 13 R333, R334, R337).
-/
namespace Sys2Proof.Machine

/-- Harbour time as tile `t` reads it: with the offset its start-up calibration left, at most 2 ticks (01 R25, R26). The
offset is a free value (log 67). -/
def tileTime (s : State) (t : Nat) : Nat := s.htime + Config.timeSkew t % 3

/-- The tile's cycle at which the context issues now (R163). -/
def cycNow (s : State) (c : Ctx) : Nat :=
  let t := s.tile (tileOf c.cid)
  max t.cyc (t.nextAt.toList.getD (coreOf c.cid) 0)

/-- CFRONT: the frontier's timestamp as the tile last learned it; all ones outside a domain (R408). -/
def cfrontOf (c : Ctx) : Word :=
  match c.task with
  | some t => t.cfront
  | none => BitVec.allOnes 64

/-- CSTAT (R425): zero outside a task context. -/
def cstatOf (c : Ctx) : Word :=
  match c.task with
  | some t => BitVec.ofNat 64 (1 + (if t.spec then 2 else 0) + (if t.front then 4 else 0) + (if t.reex then 8 else 0)
      + (min t.nlive (2 ^ 32 - 1)) * 2 ^ 8 + (t.dom % 256) * 2 ^ 40 + (t.aborts % 65536) * 2 ^ 48)
  | none => 0

/-- The value of a control register (R163, R337). HTIME differs between tiles by their calibration offsets, at most 2 ticks and otherwise
free (R25, R26; log 67). -/
def crNow (s : State) (n : Nat) : Word :=
  let c := s.cur
  let r := c.crs
  if n = 0 then BitVec.ofNat 64 (cycNow s c)
  else if n = 1 then BitVec.ofNat 64 (tileTime s (tileOf c.cid))
  else if n = 2 then r.repi.setWidth 64
  else if n = 3 then ctxId c
  else if n = 8 then r.sigfloor.setWidth 64
  else if n = 9 then r.planew.setWidth 64
  else if 0x10 ≤ n && n ≤ 0x13 then (r.lpad.toList.getD (n - 0x10) 0).setWidth 64
  else if n = 0x14 then r.lilk.setWidth 64
  else if 0x20 ≤ n && n ≤ 0x27 then r.sticky.toList.getD (n - 0x20) 0
  else if n = 0x30 then cfrontOf c
  else if n = 0x31 then cstatOf c
  else if n = 0x40 then r.tfcause
  else if n = 0x41 then r.tfpc
  else if n = 0x42 then r.tfaddr
  else if n = 0x43 then r.tfinfo
  else if n = 0x44 then tfBase c
  else if n = 0x45 then r.tvec
  else if n = 0x46 then r.codebase
  else if n = 0x47 then r.sabase
  else if n = 0x48 then BitVec.ofNat 64 ((if r.intrap then 1 else 0) + (if r.poisonC then 2 else 0))
  else r.sigrec.toList.getD (n - 0x50) 0

/-- The registers whose values an audit logs: CYC, HTIME, CSTAT and CFRONT (19 R468). -/
def crLogged (n : Nat) : Bool := n = 0 || n = 1 || n = 0x30 || n = 0x31
/-- The place of a CREAD among those of its context: its bundle, counted and by address, and the register. -/
def readKey (c : Ctx) (n : Nat) : Nat := (c.seq * 2 ^ 64 + c.pc.toNat) * 2 ^ 16 + n

/-- The value CREAD reads: in the replay of an audited group the original's (19 R469). -/
def crValue (s : State) (n : Nat) : Word :=
  match replayFor s s.cur.cid with
  | none => crNow s n
  | some a =>
    if n = 3 then ctxId { s.cur with cid := a.original s.cur.cid }
    else if crLogged n then (match a.at_ s.cur.cid .read (readKey s.cur n) with
      | some (.read v) => v
      | _ => crNow s n)
    else crNow s n

def crNumber (f : SRF) : Nat := f.ext.toNat % 4096

/-- The CREADs of a bundle enter the log of the context's group, with the values they read (19 R468). -/
def noteCreads (s t : State) (ops : List Instr) : State :=
  ops.foldl (fun st i => match i with
    | .cread _ f => if crLogged (crNumber f) then logDatum st s.cur.cid .read (readKey s.cur (crNumber f)) (.read (crNow s (crNumber f))) else st
    | _ => st) t

end Sys2Proof.Machine
end

