-- ==== Sys2Proof/Machine/Declared.lean ====
section
/-!
DEFINITION. A bundle's static fields against what the context's kernel declares (15 R515, 02 R49).
-/
namespace Sys2Proof.Machine

/-- The accumulator blocks an operation's fields name (R259). -/
def blockFields : Instr → List Nat
  | .chainBegin _ f => (List.range 16).filter fun b => f.ext.getLsbD (32 + b)
  | .accZero _ f => (List.range 16).filter fun b => f.ext.getLsbD (5 + b)
  | .accRd _ f => accBlk f :: (if accPair f then [accBlk2 f] else [])
  | .accWr _ f => accBlk f :: (if accPair f then [accBlk2 f] else [])
  | _ => []

/-- The tokens an operation's fields name (R309). -/
def tokenFields (i : Instr) : List Nat :=
  (tokenOf i).toList.map BitVec.toNat ++ (consumes i).map BitVec.toNat ++
    match i with
    | .cpyPoll _ f => [bitsOf 39 6 f.ext.toNat]
    | .cpyCancel _ f => [bitsOf 42 6 f.ext.toNat]
    | .tkwait _ f => maskTokens f
    | .tkclr _ f => maskTokens f
    | _ => []
where
  /-- The bits of a TKWAIT or TKCLR mask (R311). -/
  maskTokens (f : XCF) : List Nat :=
    (List.range 32).filterMap fun n => if f.ext.getLsbD (16 + n) then some (n + if f.ext.getLsbD 15 then 32 else 0) else none

/-- The pipe end an operation names: local number, and whether it pushes (R356). -/
def pipeField : Instr → Option (Nat × Bool)
  | .pipePush _ f => some (syPipe f, true)
  | .pipePop _ f => some (syPipe f, false)
  | .pipePopTry _ f => some (syPipe f, false)
  | _ => none

/-- Whether the context's group has that end of a pipe. -/
def pipeDeclared (s : State) (n : Nat) (push : Bool) : Bool :=
  match look n s.cur.bind.pipes with
  | some k => s.pipes.any fun p => p.id = k && (if push then p.pushG else p.popG) = s.cur.bind.group
  | none => false

/-- Whether an operation accesses the group's scratchpad from slot L or W (R196). -/
def localAccess : Instr → Bool
  | .ldsRow _ _ | .ldsW32 _ _ | .ldsW64 _ _ | .stsRow _ _ | .stsW32 _ _ | .stsW64 _ _ | .satom _ _ => true
  | _ => false

/-- The banks BANK.REL names (R377). -/
def bankFields : Instr → List Nat
  | .bankRel _ f => (List.range 32).filter fun i => f.ext.getLsbD i
  | _ => []

/-- An operation keeps to what its kernel declares (R515). -/
def declared (s : State) (i : Instr) : Bool :=
  let b := s.cur.bind
  (rowFields i).all (fun n => decide (n < b.rows)) && (blockFields i).all (fun n => decide (n < b.acc))
    && (tokenFields i).all (fun n => decide (n < b.tokens))
    && (match pipeField i with
        | some (n, push) => pipeDeclared s n push
        | none => true)
    && (!localAccess i || b.banks != 0) && (bankFields i).all fun n => decide (n < b.banks)

end Sys2Proof.Machine
end

