-- ==== Sys2Proof/Machine/TaskCore.lean ====
section
/-!
DEFINITION. Commit domains as the accesses and traps of a task see them (17 R406 to R422): the order of tasks, the
frontier, buffers and read sets, aborts, draining, parking, and the stop of a domain.
-/
namespace Sys2Proof.Machine

/-- The order of R406. -/
def Task.before (a b : Task) : Bool := a.ts.ult b.ts || (a.ts = b.ts && decide (a.seq < b.seq))

def State.dom (s : State) (d : Nat) : Option Dom := s.doms.find? fun x => x.id = d
def State.updDom (s : State) (d : Nat) (f : Dom → Dom) : State :=
  { s with doms := s.doms.map fun x => if x.id = d then f x else x }
def Dom.task (x : Dom) (q : Nat) : Option Task := x.tasks.find? fun t => t.seq = q
def Dom.updTask (x : Dom) (q : Nat) (f : Task → Task) : Dom :=
  { x with tasks := x.tasks.map fun t => if t.seq = q then f t else t }
def State.updTask (s : State) (d q : Nat) (f : Task → Task) : State := s.updDom d fun x => x.updTask q f

/-- Whether memory corrects what a read of `n` bytes returns: a location in quarantine whose sectors hold no poison (R444). -/
def correctedAt (s : State) (pa n : Nat) : Bool :=
  (s.dev.quar.any fun r => r.pa < pa + n && pa < r.pa + r.len) && !physPoison s pa n

/-- A context has read data that memory corrected: its launch's verdict, or that of the task it runs, says so (R381, R427). -/
def readCorrected (s : State) (cid : Nat) : State :=
  let c := s.ctx cid
  match c.task with
  | some r => s.updTask r.dom r.seq fun t => { t with corrected := true }
  | none => s.updLaunch c.bind.launch fun l => { l with corrected := true }

/-- A read of `n` bytes at `pa` by a context, as its verdict sees it. -/
def noteCorrected (s : State) (cid pa n : Nat) : State := if correctedAt s pa n then readCorrected s cid else s

/-- The task a context runs. -/
def State.taskOf (s : State) (c : Ctx) : Option Task :=
  match c.task with
  | some r => (match s.dom r.dom with
    | some d => d.task r.seq
    | none => none)
  | none => none

/-- The frontier (R408): the least task in the order of R406. -/
def leastTask : List Task → Option Task
  | [] => none
  | t :: r => match leastTask r with
    | some u => if u.before t then some u else some t
    | none => some t
def Dom.frontier (x : Dom) : Option Task := leastTask x.tasks

/-- CFRONT of a domain without tasks is all ones. -/
def Dom.frontTs (x : Dom) : Word :=
  match x.frontier with
  | some t => t.ts
  | none => BitVec.allOnes 64

/-- A context runs speculatively (R412). -/
def speculative (c : Ctx) : Bool :=
  match c.task with
  | some t => t.spec
  | none => false

/-- The 64-byte lines of a run of physical bytes (R412). -/
def linesOf (pa n : Nat) : List Nat :=
  if n = 0 then [] else (List.range ((pa + n - 1) / 64 - pa / 64 + 1)).map (· + pa / 64)
/-- The lines a task's buffer holds. -/
def bufLines (b : List BufByte) : List Nat := (b.map fun x => x.pa / 64).eraseDups
/-- Put masked bytes into a buffer. -/
def bufPut (b : List BufByte) (pa : Nat) (key : Option Nat) : List Byte → List Bool → List BufByte
  | x :: xs, k :: ks =>
    bufPut (if k then ⟨pa, x, key⟩ :: b.filter (fun y => y.pa != pa) else b) (pa + 1) key xs ks
  | _, _ => b
def bufByte (b : List BufByte) (pa : Nat) : Option Byte := (b.find? fun x => x.pa = pa).map BufByte.val

/-! ### Aborts and discards (R417) -/

/-- A task context becomes free: what it was doing is gone; rows stay for the next task (R411). -/
def freeTaskCtx (s : State) (cid : Nat) : State :=
  let s1 := dropWaits (withdraw s cid) cid
  let s2 := { s1 with gops := s1.gops.filter fun g => g.agent != cid || g.writes }
  s2.updCtx cid fun c =>
    { c with status := .free, ldq := [], fl := [], wait := none, reads := [], sleepTill := none, pends := [], iss := Iss.none, task := none }

/-- Whether `q` is `a` or created by a descendant of `a`, within `fuel` generations. -/
def descends (ts : List Task) (a : Nat) : Nat → Nat → Bool
  | 0, _ => false
  | f + 1, q =>
    match ts.find? fun t => t.seq = q with
    | some t => (match t.parent with
      | some p => p = a || descends ts a f p
      | none => false)
    | none => false

/-- Free the contexts of tasks. -/
def freeCtxs (s : State) (l : List Task) : State :=
  l.foldl (fun st t => match t.ctx with
    | some c => freeTaskCtx st c
    | none => st) s

/-- Every descendant of a task is discarded (R417). -/
def discardDescendants (s : State) (d a : Nat) : State :=
  match s.dom d with
  | none => s
  | some x =>
    let n := x.tasks.length
    let gone := x.tasks.filter fun t => descends x.tasks a n t.seq
    (freeCtxs s gone).updDom d fun y => { y with tasks := y.tasks.filter fun t => !(descends x.tasks a n t.seq) }

/-- A task as it is re-enqueued (R417, R419). -/
def Task.requeue (t : Task) : Task :=
  { t with
    st := .queued, ctx := none, buf := [], bufAt := 0, rset := [], parked := none, spawned := 0, poison := false, corrected := false }

/-- An abort (R417), as one act at the domain's home. -/
def abortTask (s : State) (d q : Nat) : State :=
  match s.dom d with
  | none => s
  | some x =>
    match x.task q with
    | none => s
    | some t =>
      (discardDescendants (freeCtxs s [t]) d q).updTask d q fun t =>
        { t.requeue with aborts := min 65535 (t.aborts + 1), reex := false }

/-- The line watch (R416): later tasks that hold a written line in their read sets are aborted. -/
def watchWrite (s : State) (d : Nat) (writer : Task) (lines : List Nat) : State :=
  match s.dom d with
  | none => s
  | some x =>
    let hit := x.tasks.filter fun t => writer.before t && t.rset.any fun l => lines.contains l
    hit.foldl (fun st t => abortTask st d t.seq) s

/-! ### What the tile learns (R408) -/

/-- The frontier and the number of tasks as they stand join what the tiles are to learn. -/
def Dom.note (x : Dom) : Dom :=
  let now := (x.frontTs, x.tasks.length)
  if x.past.getLast? = some now then x else { x with past := x.past ++ [now] }
/-- What a tile has learned last: at first, what held when the domain opened. -/
def Dom.toldOn (x : Dom) (t : Nat) : Nat := max 1 ((look t x.told).getD 1)
def Dom.known (x : Dom) (t : Nat) : Word × Nat := x.past.getD (x.toldOn t - 1) (x.frontTs, x.tasks.length)

/-- The tasks of a domain have changed: the context of each knows whether it is at the frontier; the frontier and the number of tasks
reach the tiles later. -/
def learn (s : State) (d : Nat) : State :=
  match s.dom d with
  | none => s
  | some x =>
    let up (c : Ctx) : Ctx :=
      match c.task with
      | some r =>
        if r.dom = d then
          let atFront := (match x.frontier with
            | some t => t.seq = r.seq
            | none => false)
          { c with task := some { r with front := atFront, spec := !atFront } }
        else c
      | none => c
    { s with cur := up s.cur, others := s.others.map up }.updDom d Dom.note

/-- A tile learns what has held since it last did, as far as is free, before a context of it issues (R408). -/
def tileHears (s : State) (cid : Nat) : State :=
  match (s.ctx cid).task with
  | none => s
  | some r => match s.dom r.dom with
    | none => s
    | some x =>
      let t := tileOf cid
      let n := x.past.length - x.toldOn t
      if n = 0 then s
      else
        let y := { x with told := put t (x.toldOn t + Config.freeNat s.fresh % (n + 1)) x.told }
        let up (c : Ctx) : Ctx :=
          match c.task with
          | some q => if q.dom = r.dom && tileOf c.cid = t then
              { c with task := some { q with cfront := (y.known t).1, nlive := (y.known t).2 } } else c
          | none => c
        { s with cur := up s.cur, others := s.others.map up, fresh := s.fresh + 1 }.updDom r.dom fun z => { z with told := y.told }

/-! ### Draining (R414, R418) -/

/-- The 16-byte pieces a buffer touches, with their key. -/
def bufPieces (b : List BufByte) : List (Nat × Option Nat) := (b.map fun x => (x.pa / 16, x.key)).eraseDups

/-- A buffer is performed in memory, piece by piece (R207, R418). -/
def drainBuf (s : State) (agent vf : Nat) (b : List BufByte) : State × List WRef :=
  (bufPieces b).foldl (fun (acc : State × List WRef) p =>
    let bytes := (List.range 16).map fun i => (bufByte b (16 * p.1 + i)).getD 0
    let mask := (List.range 16).map fun i => (b.any fun x => x.pa = 16 * p.1 + i && x.key = p.2)
    let id := acc.1.uid
    let s1 := pieceWrite { acc.1 with uid := id + 1 } id agent vf (16 * p.1) bytes mask p.2 false
    (s1, ⟨id, vf, 0, 0⟩ :: acc.2)) (s, [])

/-- The agent number under which a domain's drained writes are recorded. -/
def domAgent (d : Nat) : Nat := 2 ^ 64 + d

/-- A task's buffer drains to memory and the line watch sees its lines (R414, R416, R418). -/
def drainTask (s : State) (d : Nat) (t : Task) : State :=
  match s.dom d with
  | none => s
  | some x =>
    let r := drainBuf s (domAgent d) x.vf t.buf
    let s1 := r.1.updDom d fun y => { y with ws := r.2 ++ y.ws }
    let s2 := watchWrite s1 d t (bufLines t.buf)
    s2.updTask d t.seq fun u => { u with buf := [] }

/-! ### The end of a task (R422, R424) -/

/-- A task finishes: its load entries are dropped and its context is freed. The domain's record will carry its writes (R425,
R427). -/
def finishTask (s : State) (cid : Nat) : State :=
  match (s.ctx cid).task with
  | none => s
  | some r =>
    let poison := (s.ctx cid).crs.poisonC
    let mine := carriedWrites (s.ctx cid) ++ (s.ctx cid).view.eng
    let s1 := (s.updTask r.dom r.seq fun t => { t with st := .finished, ctx := none, poison := t.poison || poison }).updDom r.dom
      fun x => { x with ws := mine ++ x.ws, tend := s.htime }
    learn (freeTaskCtx s1 cid) r.dom

/-- Whether a context has atomics on their way. -/
def atomsLeft (s : State) (cid : Nat) : Bool :=
  s.gops.any fun g => g.agent = cid && (match g.kind with
    | .atomic .. => true
    | _ => false)

/-- The buffer and the descendants of a context's task are discarded (R424). -/
def abandonWork (s : State) (cid : Nat) : State :=
  match (s.ctx cid).task with
  | none => s
  | some r => (discardDescendants s r.dom r.seq).updTask r.dom r.seq fun t => { t with buf := [] }

/-- TASK.END or TASK.ABANDON has retired: the load entries are dropped, and the task finishes once every atomic of it has been
performed; until then it keeps its context (R424). -/
def endTask (s0 : State) (cid : Nat) (abandon : Bool) : State :=
  let s := if abandon then abandonWork s0 cid else s0
  if atomsLeft s cid then s.updCtx cid fun c => { c with status := .blocked .atoms, ldq := [], fl := [], pends := [] }
  else finishTask s cid

/-! ### Parking and the stop of a domain (R419, R420) -/

/-- A speculative task's fault is deferred: the task parks, its context is freed (R419). -/
def parkTask (s : State) (cid : Nat) (k : Cause) : State :=
  match (s.ctx cid).task with
  | none => s
  | some r => freeTaskCtx (s.updTask r.dom r.seq fun t => { t with st := .parked, ctx := none, parked := some k }) cid

/-- The domain stops (R420): every uncommitted task is discarded with nothing drained; what the frontier task has performed or sent
directly stands (R414), and the record carries it. -/
def stopDomain (s : State) (d : Nat) (why : Nat × Nat × Nat) : State :=
  match s.dom d with
  | none => s
  | some x =>
    let mine := (x.tasks.filterMap Task.ctx).flatMap fun c => carriedWrites (s.ctx c) ++ (s.ctx c).view.eng
    (freeCtxs s x.tasks).updDom d fun y => { y with tasks := [], stopped := some why, taint := true, tend := s.htime, ws := mine ++ y.ws }

/-- A context retires with a cause; a task context stops its domain instead (R341, R420). -/
def retireCause (s : State) (cid : Nat) (k : Cause) : State :=
  match (s.ctx cid).task with
  | some r => stopDomain s r.dom (k.cls, k.sub, (ctxId (s.ctx cid)).toNat)
  | none => retireCtx s cid (some k)

end Sys2Proof.Machine
end

