-- ==== Sys2Proof/Machine/Ops.lean ====
section
/-!
DEFINITION. The shared operations of the machine: emitting a result (02 R40), taking a trap (13 R335 to R341), issuing
a bundle all or none (R39, R47 to R53), holding it, retiring it (R45, R53, R157), and the moment results become visible
(R40, R136).
-/
namespace Sys2Proof.Machine

/-! ### Emitting results -/

/-- Declared latency of a class (R57) and how much later than it the FL384 is ready (R59). -/
def declLat (c : Ctx) (cls : Nat) : Nat := c.lat.toList.getD cls 1
def lateLat (c : Ctx) (cls : Nat) : Nat := nativeLat.toList.getD cls 1 - declLat c cls

/-- The class that popping adds: the larger of classes 12 and 13 where both are popped (R38, R202). -/
def popClasses (c : Ctx) (i : Instr) : List Nat :=
  let l := popsLdq i
  let q := !(popsStream i).isEmpty
  if l && q then (if declLat c 12 ≤ declLat c 13 then [13] else [12])
  else if l then [12] else if q then [13] else []

/-- Cycles from issue to visibility of a result of class `cls` (R38, R40, R202). -/
def resultLat (c : Ctx) (cls : Nat) (xcls : List Nat) : Nat := declLat c cls + (xcls.map (declLat c)).sum
def resultLate (c : Ctx) (cls : Nat) (xcls : List Nat) : Nat := lateLat c cls + (xcls.map (lateLat c)).sum

/-- A result of the operation being performed goes into flight (R40): what it writes, what enters its slot's latch, its
flags, and the lowest lane below the floor. -/
def emit (s : State) (cls : Nat) (res : List Write) (latch : Latch) (flags : Flags) (below : Option Nat) : State :=
  let c := s.cur
  { s with cur := { c with fl := c.fl ++ [{
      slot := c.iss.slot, pc := c.pc, repi := c.crs.repi, seq := c.seq,
      due := c.pt + resultLat c cls c.iss.xcls
      ready := c.pt + resultLat c cls c.iss.xcls + resultLate c cls c.iss.xcls, passed := 0
      res := res, latch := latch, flags := flags, below := below, mode := sigMode c, tkop := none,
      rep := c.iss.rep }] } }

/-- A scalar result that no count rule computes: count 24 (R107, R140). -/
def emitS (s : State) (cls : Nat) (d : BitVec 5) (v : Word) (flags : Flags) : State :=
  emit s cls [.scalar d ⟨v, 24⟩] (.scalar ⟨v, 24⟩) flags none
/-- A predicate result: it enters the predicate file only (R43). -/
def emitP (s : State) (cls : Nat) (d : BitVec 3) (b : Bool) (flags : Flags) : State :=
  emit s cls [.pred d b] .invalid flags none

/-! ### Taking a trap (R335 to R341) -/

/-- Where issue continues after RETT (R338). -/
structure Resume where
  tfpc : Word
  nexti : Nat
  ncnt : Nat
  deriving DecidableEq, Repr

/-- The iteration with which issue continues: the one a repeated bundle has reached, or NEXTI of the last RETT (R50, R343). -/
def Ctx.nexti (c : Ctx) : BitVec 16 := c.resumeAt.getD c.crs.repi
/-- Issue continues at the bundle about to issue, or at the iteration a repeated bundle has reached (R338). -/
def resumeHere (c : Ctx) : Resume :=
  if c.nexti = 0 then ⟨c.pc, 0, 0⟩ else ⟨c.pc, c.nexti.toNat, c.iss.count⟩

/-- The mark of a bundle that has found the copy window full: it counts once (09 R228). -/
def stallMark : CtlRead := ⟨6, 0, 0, none⟩

/-- Enter the handler (R338): the frame has been written. `repi` is the iteration the trap names. A bundle whose full window has
been counted is remembered (R228). -/
def enterHandler (c : Ctx) (k : Cause) (r : Resume) (repi : BitVec 16) (entries : List Replay) : Ctx :=
  { c with
    status := .running
    pc := c.crs.tvec
    regs := c.regs.clearLatches
    fl := []
    iss := Iss.none
    wait := none
    reads := []
    pt := c.pt + 1
    sides := entries.map Replay.side
    counted := if c.counted.isSome then c.counted else if c.reads.contains stallMark then some c.pc else none
    resumeAt := none
    crs := { c.crs with
      tfcause := causeWord k repi
      tfpc := r.tfpc
      tfaddr := BitVec.ofNat 64 k.addr
      tfinfo := BitVec.ofNat 64 (entries.length % 32 + k.info)
      repi := 0
      intrap := true } }

/-- A trapped member does not arrive at its group's barrier (11 R308). -/
def leaveBarrier (s : State) (cid : Nat) : State :=
  s.updGroup (s.ctx cid).bind.group fun g => { g with
    arrived := g.arrived.filter (fun m => m != cid), along := g.along.filter fun x => x.1 != cid }

/-- Taking a trap: the one operation for every cause; a speculative task's trap is deferred (17 R419). DESIGN CHOICE: where a
trap taken right after a re-injection finds more than 24 operations, those of the handler still in flight among them, the frame is
longer and NENT counts them all (R42 gives no mechanism; log 87). `entries` are the
replay entries of what has issued or was issuing and is not visible, in the order of R338; `r` is where issue continues
after RETT; `repi` the iteration the trap names. -/
def takeTrapIn (s0 : State) (k : Cause) (entries : List Replay) (r : Resume) (repi : BitVec 16) : State :=
  let s := leaveBarrier (withdraw s0 s0.cur.cid) s0.cur.cid
  let c := s.cur
  if speculative c then parkTask s c.cid { k with info := c.pc.toNat }
  else if c.crs.tvec = 0 || c.crs.intrap then retireCause s c.cid k
  else
    let f : Frame := ⟨repi, r.nexti, r.ncnt, r.tfpc, c.regs.lat.toList, entries⟩
    match ctxWrite (warmW s c.cid c.bind.vf (tfBase c).toNat (frameBytes f).length) c.cid c.bind.vf (tfBase c).toNat (frameBytes f) with
    | .error _ => retireCause s c.cid { cls := 0x0B, sub := 5 }
    | .ok s1 => (dropWalkFaults s1 c.cid).updCur fun c1 => enterHandler c1 k r repi entries
/-- A trap that names the iteration REPI holds. -/
def takeTrap (s : State) (k : Cause) (entries : List Replay) (r : Resume) : State := takeTrapIn s k entries r s.cur.crs.repi

/-- Entries of the operations in flight (R338, R340): `n1` is the cycle after the last bundle's issue. -/
def flightEntries (c : Ctx) (n1 : Nat) : List Replay := c.fl.map (flightEntry n1)

/-- A pending trap, or TRAP after its retirement (R335, R338). -/
def trapBetween (s : State) (k : Cause) : State :=
  takeTrap s k (flightEntries s.cur s.cur.resume) (resumeHere s.cur)

/-! ### Time -/

/-- What `n` cycles of a core, in `busy` of which a bundle issued, mean for another context that is resident there. -/
def coreCycle (cid n busy : Nat) (c : Ctx) : Ctx :=
  if hwOf c.cid / 4 = hwOf cid / 4 && c.cid != cid then c.passes n (n - busy) else c

/-- The core's next issue comes `n` cycles later; the tile's counter stands at the cycle of the last issue (R11, R163). -/
def spendCycles (s : State) (cid n busy : Nat) : State :=
  let t := s.tile (tileOf cid)
  let k := coreOf cid
  let at_ := max t.cyc (t.nextAt.toList.getD k 0)
  let s1 := s.setTile { t with cyc := at_, nextAt := t.nextAt.setIfInBounds k (at_ + n), svc := { t.svc with sinceCyc := at_ + n } }
  { s1 with cur := coreCycle cid n busy s1.cur, others := s1.others.map (coreCycle cid n busy) }

/-- One step of the machine takes one tick of harbour time (log 4). -/
def State.tick (s : State) : State := { s with htime := s.htime + 1 }

/-- A bundle of a tile passes seal (19 R455, R456): injection makes every Nth fail its original attempt, which counts once where the
latches have caught it too; the windows count the bundle, and an up-window of 2^20 ends with it where no raise is due. -/
def Svc.seal (v : Svc) : Svc :=
  let n := (v.inj.extractLsb' 0 24).toNat
  let hit := v.inj.getLsbD 31 && n != 0 && v.injSeen + 1 = n
  let r := if hit && !v.caught then 1 else 0
  { v with
    injSeen := if v.inj.getLsbD 31 then (if hit then 0 else v.injSeen + 1) else v.injSeen
    caught := false
    trepl := (v.trepl + r) % 2 ^ 64
    up := if v.up.replays + r < 105 && 2 ^ 20 ≤ v.up.sealed + 1 then ⟨0, 0⟩ else ⟨v.up.sealed + 1, v.up.replays + r⟩
    down := ⟨v.down.sealed + 1, v.down.replays + r⟩
    cool := v.cool.map (· + 1) }
/-- Whether the margin controller has a step to decide, which it does before the tile issues again: 105 replays in the up-window, or a
down-window at its end (19 R456). -/
def Svc.due (v : Svc) : Bool := 105 ≤ v.up.replays || 2 ^ 26 ≤ v.down.sealed
def sealBundle (s : State) (cid : Nat) : State :=
  let t := s.tile (tileOf cid)
  s.setTile { t with svc := t.svc.seal }

/-! ### Holding a bundle (R40, R42, R331) -/

/-- A stalled cycle of the context (R40, R365). -/
def Ctx.stalled (c : Ctx) : Ctx := (bumpPhase (bumpPhase c 1 1) 3 1).stallCycle
/-- A cycle of the hold of R42, in which results in flight go on. -/
def Ctx.drained (c : Ctx) : Ctx := (bumpPhase (bumpPhase c 1 1) 3 1).advance 1

/-- A cycle in which a bundle waits for tokens: where the rows of an ACC.RD in flight are to complete one, results in flight
go on, since the token completes when its rows become visible (10 R283; log 34). -/
def tokenCycle (c : Ctx) : Ctx := if c.fl.any fun e => e.tkop.isSome then c.drained else c.stalled

/-- Whether a hold of R331 blocks: at a switch-point bundle; elsewhere it stalls. -/
def Hold.blocks (h : Hold) (c : Ctx) : Option WaitOn :=
  match h with
  | .send (some w) => if ctlSwp c.ctl then some w else none
  | .wait w => if ctlSwp c.ctl then some w else none
  | _ => none

/-- A cycle of a hold that does not block. -/
def Hold.cycle (h : Hold) (c : Ctx) : Ctx :=
  match h with
  | .drain => c.drained
  | .token => tokenCycle c
  | .wait (.tokens _) => tokenCycle c
  | .send (some (.tokens _)) => tokenCycle c
  | _ => c.stalled

/-- A bundle that does not issue. A context that blocks gives its core up in that very cycle (R332), its results in flight
completing, whether or not another context takes the core (R41, log 69). -/
def holdBundle (s0 : State) (h : Hold) : State :=
  let keep := s0.cur.crs.repi != 0 || s0.cur.resumeAt.isSome
  let c := { s0.cur with iss := { Iss.none with count := if keep then s0.cur.iss.count else 0 } }
  match h.blocks c with
  | some w => ({ s0 with cur := { c.comeDue with status := .blocked w } } : State).tick
  | none => (spendCycles { s0 with cur := h.cycle c } c.cid 1 0).tick

/-! ### Issuing a bundle -/

/-- An operation of the bundle: the instruction and what it does. -/
structure OpIn where
  ins : Instr
  run : State → Op State

/-- Whether the operation's predicate lets it execute (R39). -/
def executes (c : Ctx) (i : Instr) : Bool := c.regs.pred (guardOf i).pred != (guardOf i).sense

/-- The replay entry of an operation: CREAD captures the control register it reads (R54). -/
def captureOp (s : State) (i : Instr) (popped : Bool) : Replay :=
  match i with
  | .cread _ f => (capture s i popped).setBlock 0 (blockOfScalar ⟨crValue s (crNumber f), 24⟩)
  | _ => capture s i popped

/-- One operation with its slot and captures in place. -/
def runOp (c0 : Ctx) (o : OpIn) (s : State) : Op State :=
  let e := captureOp { s with cur := c0 } o.ins true
  o.run { s with cur := { s.cur with iss := { s.cur.iss with
    slot := (slotOf o.ins).getD 0, rep := e, xcls := popClasses c0 o.ins } } }

def isTmap : Instr → Bool
  | .tmap _ _ => true
  | _ => false
/-- The outcome of one operation of a bundle by itself. A TMAP is judged behind the store of its bundle's slot W, whose bytes it
reads (R29, R242). -/
def probe (c0 : Ctx) (exes : List OpIn) (s : State) (o : OpIn) : Op State :=
  match (if isTmap o.ins then exes.find? fun x => slotOf x.ins = some 5 else none) with
  | none => runOp c0 o s
  | some w =>
    match runOp c0 w s with
    | .ok t => runOp c0 o { s with cur := { s.cur with iss := { s.cur.iss with along := t.cur.iss.along } } }
    | .error _ => runOp c0 o s

/-- The operations one after the other, each on what the earlier ones staged. -/
def stageOps (c0 : Ctx) : List OpIn → State → Op State
  | [], s => .ok s
  | o :: r, s =>
    match runOp c0 o s with
    | .ok s1 => stageOps c0 r s1
    | .error (.trap k) => .error (.trap { k with slot := (slotOf o.ins).getD 0 })
    | .error e => .error e
/-- Whether an operation is END. -/
def isEnd : Instr → Bool
  | .endCtx _ _ => true
  | _ => false
/-- The operations of a bundle one after the other: END first, which is judged on the context before its bundle (R343), then in
the order of the slots. -/
def commitOps (c0 : Ctx) (ops : List OpIn) (s : State) : Op State :=
  stageOps c0 (ops.filter (fun o => isEnd o.ins) ++ ops.filter fun o => !isEnd o.ins) s

def isSend : Op State → Bool
  | .error (.hold (.send _) _) => true
  | .error (.hold .again _) => true
  | _ => false
def isHold (r : Op State) : Bool :=
  match r with
  | .error (.hold _ _) => !isSend r
  | _ => false
def isStopped (r : Op State) : Bool :=
  match r with
  | .error _ => !isSend r
  | _ => false

/-- The first outcome that satisfies a condition, with its operation. -/
def firstOf (p : Op State → Bool) : List (OpIn × Op State) → Option (OpIn × Op State)
  | [] => none
  | x :: r => if p x.2 then some x else firstOf p r

/-- DUE of an operation of the bundle that traps: its distance from the bundle's issue, less one (R340). -/
def bundleDue (c : Ctx) (i : Instr) : Nat :=
  match opClass i with
  | some cls => resultLat c cls (popClasses c i) + resultLate c cls (popClasses c i) - 1
  | none => 0

/-- The answer a bundle that traps has had from a home that performed its operation: it is not sent again (R292). -/
def keptAnswer (c : Ctx) : Option Pending := c.wait.filter fun p => p.answer = some 0 || p.answer = some 1
/-- An entry with the answer its bundle has had. -/
def Replay.withAns (e : Replay) (p : Option Pending) : Replay := { e with side := { e.side with ans := p } }

/-- Entries of the trapping bundle's executing operations (R53, R338). -/
def bundleEntries (s : State) (ops : List OpIn) : List Replay :=
  ops.map fun o => { captureOp s o.ins false with due := bundleDue s.cur o.ins }.withAns (keptAnswer s.cur)

/-- Where issue continues after a synchronous trap (R338): the next iteration, the transfer's target, or the following
bundle. -/
def resumeAfter (s : State) (results : List (OpIn × Op State)) : Resume :=
  if ctlRep s.cur.ctl then ⟨s.cur.pc, s.cur.crs.repi.toNat + 1, s.cur.iss.count⟩
  else
    let target := results.findSome? fun x =>
      match x.2 with
      | .ok t => t.cur.iss.target
      | .error _ => none
    ⟨target.getD (s.cur.pc + 64), 0, 0⟩

/-- STALLS counts an occurrence of a full copy window (R228, R232). -/
def Ctx.countStall (c : Ctx) : Ctx :=
  { c with win := { c.win with stalls := if c.win.stalls = BitVec.allOnes 32 then c.win.stalls else c.win.stalls + 1 } }

/-- Mark a token complete and unbind it (R39, R310). -/
def completeToken (c : Ctx) (n : Nat) : Ctx :=
  { c with tok := c.tok &&& ~~~(1#64 <<< n), tokBind := drp n c.tokBind }

/-- The produced tokens of slots that do not execute are marked complete (R39). -/
def skipTokens (skipped : List Instr) (c : Ctx) : Ctx := (skipped.filterMap tokenOf).foldl (fun x t => completeToken x t.toNat) c

/-- A synchronous trap of the bundle at the operation of slot `k.slot` (R53, R338). The tokens of the slots that do not execute
are complete from the bundle's issue on (R39), as no entry stands for them. -/
def trapBundle (s0 : State) (k : Cause) (ops : List OpIn) (skipped : List Instr) (results : List (OpIn × Op State)) : State :=
  let s := noteCreads s0 ((if k.cls = 0x23 then s0.updCur Ctx.countStall else s0).updCur (skipTokens skipped)) (ops.map OpIn.ins)
  takeTrap s k (flightEntries s.cur (s.cur.pt + 1) ++ bundleEntries s ops) (resumeAfter s results)

/-- The illegal-bundle trap and the repeat-count fault: no entry for the bundle, which TFPC names (R338). -/
def trapWhole (s : State) (k : Cause) : State :=
  takeTrap s k (flightEntries s.cur s.cur.resume) ⟨s.cur.pc, 0, 0⟩

/-! ### Retirement -/

/-- Pop the LDQ head (R37, R200, R209). -/
def popLdq (c : Ctx) : Ctx :=
  match c.ldq with
  | [] => c
  | e :: r => { c with ldq := r, crs := { c.crs with poisonC := c.crs.poisonC || e.poison } }

/-- Pop a row of a stream register (R251). -/
def popStream (c : Ctx) (q : Nat) : Ctx :=
  match c.win.q.toList[q]? with
  | some b =>
    let sl := b.rd % 8
    let bad := match look sl b.rowsIn with
      | some r => r.poison
      | none => false
    let b1 := { b with
      arr := b.arr &&& ~~~(1#8 <<< sl), rd := (b.rd + 1) % 16, popped := b.popped + 1, rowsIn := drp sl b.rowsIn }
    { c with win := { c.win with q := c.win.q.setIfInBounds q b1 }
             crs := { c.crs with poisonC := c.crs.poisonC || bad } }
  | none => c

/-- SIGFLOOR, PLANEW and the other writable control registers take a value (R161, R162); the access rules of the
registers are applied by the instruction. -/
def Crs.write (r : Crs) (cr : Nat) (v : Word) : Crs :=
  if cr = 8 then { r with sigfloor := v.setWidth 32 &&& 0x30F1F }
  else if cr = 9 then { r with planew := v.setWidth 32 &&& 0x11F }
  else if 0x20 ≤ cr && cr ≤ 0x27 then
    let n := cr - 0x20
    let st := r.sticky.toList.getD n 0
    let st1 := st &&& ~~~(v &&& 0x1F)
    let st2 := if v.getLsbD 39 then st1 &&& 0x7FFFFFFFFF else st1
    let st3 := if v.getLsbD 32 then st2 &&& ~~~(0xFFFF0000#64) else st2
    { r with sticky := r.sticky.setIfInBounds n st3 }
  else if cr = 0x41 then { r with tfpc := v }
  else if 0x50 ≤ cr && cr ≤ 0x57 then
    if v.getLsbD 63 then { r with sigrec := r.sigrec.setIfInBounds (cr - 0x50) 0 } else r
  else r

/-- A result that is to enter no latch (R45), also where a trap's re-injection makes it visible. -/
def Flight.unlatched (e : Flight) : Flight :=
  { e with latch := .invalid, rep := { e.rep with side := { e.rep.side with noLatch := true } } }
/-- A switch-point bundle invalidates every latch and keeps results already issued out of them (R45). -/
def switchPoint (c : Ctx) : Ctx :=
  { c with regs := c.regs.clearLatches, fl := c.fl.map Flight.unlatched }

/-- Further cycles a bundle holds issue when its slots need several lines of one bank (08 R198): the lines needed from
the bank needed most, less one; a line that both slots need counts twice (log 33). -/
def bankCost (lines : List (Nat × Nat)) : Nat :=
  (lines.foldl (fun m x => max m (lines.filter fun y => y.1 = x.1).length) 1) - 1

/-- Stall cycles before a bundle issues (R40, R59). -/
def Ctx.stallCycles : Nat → Ctx → Ctx
  | 0, c => c
  | n + 1, c => Ctx.stallCycles n c.stallCycle

/-- Cycles from a bundle's issue to the next issue of the context (R157); after RETT comes the cycle of its re-injection,
and the first resumed bundle issues in the cycle after that (R340, R343), while a RETT that retires its context resumes nothing
(R332, R341). -/
def issueGap (i : Iss) (rett : Bool) : Nat :=
  if rett then (if i.target.isSome then 2 else 1) else if i.target.isSome then (if i.indirect then 3 else 2) else 1

/-- How many entries LDQ.DROP takes behind a bundle's pop: of those that stood before the bundle (R216). -/
def Iss.dropped (i : Iss) (popped : Bool) : Nat := min i.drop (i.ldq0 - if popped then 1 else 0)
/-- LDQ.DROP removes entries occupied before its bundle, those that the bundle has popped among them, and none it has pushed
(R216). -/
def dropEntries (i : Iss) (popped : Bool) (c : Ctx) : Ctx := { c with ldq := c.ldq.drop (i.dropped popped) }

/-- Retirement of the bundle or iteration (R50, R53, R157): pops, tokens, control registers, switch point, where issue
goes on. DEDUCED: every iteration of a repeated switch-point bundle invalidates the latches (R45; log 69). `ops` are the executing operations, `skipped` the ones predicated off. -/
def retireBundle (ops skipped : List Instr) (c : Ctx) : Ctx :=
  let i := c.iss
  let c1 := if ops.any popsLdq then popLdq c else c
  let c2 := (ops.flatMap popsStream).eraseDups.foldl popStream c1
  let c3 := dropEntries i (ops.any popsLdq) c2
  let c4 := skipTokens skipped c3
  let c5 := { c4 with crs := i.atRetire.foldl (fun r x => r.write x.1 x.2) c4.crs }
  let c6 := if ctlSwp c5.ctl then switchPoint c5 else c5
  let gap := issueGap i (ops.any isRett)
  let next := c6.crs.repi.toNat + 1
  let c7 := { c6.advance gap with
    resume := c6.pt + 1, seq := c6.seq + 1, wait := none, reads := [], atSwp := ctlSwp c6.ctl
    resumeAt := if ops.any isRett then c6.resumeAt else none }
  if ctlRep c7.ctl && next < i.count then
    { c7 with crs := { c7.crs with repi := BitVec.ofNat 16 next }, iss := { Iss.none with count := i.count } }
  else
    { c7 with
      pc := i.target.getD (c7.pc + 64)
      crs := { c7.crs with repi := if ops.any isRett then c7.crs.repi else 0 }
      iss := if ops.any isRett then { Iss.none with count := i.count } else Iss.none }

/-- What follows a retired bundle (R343): the TRAP trap, YIELD, SLEEP, the end of the context. -/
def afterBundle (s : State) (a : After) : State :=
  match a with
  | .none => s
  | .trap code => trapBetween s { cls := 0x24, code := code, slot := 7 }
  | .yield => { s with cur := { s.cur.comeDue with status := .ready } }
  | .sleep d => { s with cur := { s.cur with sleepTill := some d } }
  | .endCtx => retireCtx s s.cur.cid none
  | .phase q => s.updCur fun c => { c with phase := q }
  | .taskEnd => endTask s s.cur.cid false
  | .taskAbandon => endTask s s.cur.cid true
  | .retire k => retireCause s s.cur.cid k

/-- The cycles of a bundle in its context's counters: `wait` cycles before its issue and the cycles to the next issue, which
count to the phase that PHASE names (R365, R366). -/
def closeCounts (a : After) (wait gap : Nat) (c : Ctx) : Ctx :=
  let c1 := bumpPhase (bumpPhase (bumpPhase c 0 1) 1 wait) 3 wait
  let q := match a with
    | .phase q => q
    | _ => c.phase
  { bumpPhase { c1 with phase := q } 3 (gap - 1) with phase := c.phase }

/-- The count of a repeated bundle, read once before iteration 0 (R47): none above 65,535. -/
def repCount (c : Ctx) : Option Nat :=
  if c.iss.count != 0 then some c.iss.count
  else if ctlCsrc c.ctl then
    let v := (c.regs.scalar ((ctlCnt c.ctl).setWidth 5)).val.toNat
    if 65535 < v then none else some v
  else some (ctlCnt c.ctl).toNat

/-- A bundle whose repeat count is zero (R48). -/
def retireEmpty (ops : List Instr) (c : Ctx) : Ctx := retireBundle [] ops { c with iss := Iss.none }

/-- Whether a pending overdue result keeps a predicate or the repeat count from being read (R59). -/
def guardWaits (c : Ctx) (ops : List OpIn) : Bool :=
  ops.any (fun o => waitsFor c (isPredW (guardOf o.ins).pred))
    || (ctlRep c.ctl && ctlCsrc c.ctl && c.iss.count = 0 && waitsFor c (isScalarW ((ctlCnt c.ctl).setWidth 5)))

/-- Whether a result of the staged bundle would write a register or enter a latch that an overdue result has still to
write or enter (R59). -/
def resultWaits (c : Ctx) (t : Ctx) : Bool :=
  (t.fl.drop c.fl.length).any fun e =>
    c.fl.any fun x => x.overdue c
      && (x.res.any (fun w => e.res.any (fun v => sameReg v w))
        || (x.slot = e.slot && x.latch != .invalid && e.latch != .invalid))

/-- The registers an operation's result goes to, by its fields, with no value of its own (R40, R52). -/
def resultNames (s : State) (i : Instr) : List Write :=
  (match rowDst i with
   | some (bit, d) => (match effRow s bit d.toNat with
     | .ok k => [.row k Row.zero]
     | .error _ => [])
   | none => []) ++ (accDsts i).map (fun n => .row n Row.zero) ++ (scalarDst i).toList.map (fun n => .scalar n ⟨0, 0⟩)
    ++ (maskDst i).toList.map (fun n => .mask n 0) ++ (predDst i).toList.map fun n => .pred n false
/-- Whether an operation's result enters its slot's latches (R43): all but predicates alone. -/
def entersLatch (i : Instr) : Bool :=
  ((slotOf i).bind latchBase).isSome && (opClass i).isSome && (predDst i).isNone
/-- Whether an operation's result is to follow an overdue one (R59). -/
def namesLate (s : State) (i : Instr) : Bool :=
  s.cur.fl.any fun x => x.overdue s.cur
    && (x.res.any (fun w => (resultNames s i).any fun v => sameReg v w)
      || (some x.slot = slotOf i && x.latch != .invalid && entersLatch i))

/-- Why a bundle of which an operation would trap does not do so yet: it depends on an overdue result (R59), or blocks before it
issues on an empty queue (R37). -/
def trapWaits (s : State) (ops : List OpIn) : Option Hold :=
  if ops.any fun o => operandLate s o.ins || namesLate s o.ins then some .stall else ops.findSome? fun o => popHold s o.ins
/-- The bundle's trap, once nothing keeps it from issuing. -/
def trapOrHold (s : State) (k : Cause) (exes : List OpIn) (skipped : List Instr) (results : List (OpIn × Op State)) : State :=
  match trapWaits s exes with
  | some h => holdBundle s h
  | none => (trapBundle s k exes skipped results).tick

/-- A bundle whose operations have been staged retires. -/
def retire (s t : State) (exes skipped : List Instr) : State :=
  let after := t.cur.iss.after
  let gap := issueGap t.cur.iss (exes.any isRett)
  let wait := bankCost t.cur.iss.lines
  let c2 := retireBundle exes skipped (Ctx.stallCycles wait t.cur)
  let t1 := { noteCreads s t exes with cur := closeCounts after wait gap c2 }
  let t2 := dropWalkFaults (sealBundle (spendCycles t1 s.cur.cid (gap + wait) 1) s.cur.cid) s.cur.cid
  (afterBundle t2 after).tick

/-- The outcome of a bundle of which no operation waits for its answer. -/
def commit (s : State) (exes : List OpIn) (skipped : List Instr) (results : List (OpIn × Op State)) :
    Host.Outcome State Fault Refusal :=
  match commitOps s.cur exes s with
  | .error (.trap k) => .next (trapOrHold s k exes skipped results)
  | .error (.hold h _) => .next (holdBundle s h)
  | .error (.fault f) => .fault f
  | .error (.refused r) => .refused r
  | .ok t => if resultWaits s.cur t.cur then .next (holdBundle s .stall) else .next (retire s t (exes.map OpIn.ins) skipped)

/-- The sending of an operation that must be answered, or the arrival at a group barrier: once every other slot has passed
its checks (R291), with what the bundle's accesses of slots L and W will be (R290, R317). `again` decides the bundle anew
where the barrier has been completed by it. -/
def sendOp (s : State) (o : OpIn) (exes : List OpIn) (skipped : List Instr) (results : List (OpIn × Op State))
    (again : State → Host.Outcome State Fault Refusal) : Host.Outcome State Fault Refusal :=
  match commitOps s.cur (exes.filter fun x => x.ins != o.ins) s with
  | .error (.trap k) => .next (trapOrHold s k exes skipped results)
  | .error (.hold h _) => .next (holdBundle s h)
  | .error (.fault f) => .fault f
  | .error (.refused r) => .refused r
  | .ok t =>
    if resultWaits s.cur t.cur then .next (holdBundle s .stall)
    else match runOp s.cur o { s with uid := t.uid, cur := { s.cur with iss := { s.cur.iss with along := t.cur.iss.along } } } with
      | .error (.hold .again s1) => again { s1 with cur := { s1.cur with iss := s.cur.iss } }
      | .error (.hold h s1) => .next (holdBundle s1 h)
      | .error (.trap k) => .next (trapOrHold s { k with slot := (slotOf o.ins).getD 0 } exes skipped results)
      | .error (.fault f) => .fault f
      | .error (.refused r) => .refused r
      | .ok _ => commit s exes skipped results

/-- The outcome of a bundle from those of its operations one by one. -/
def settle : Nat → State → List OpIn → List Instr → List (OpIn × Op State) → Host.Outcome State Fault Refusal
  | fuel, s, exes, skipped, results =>
    match firstOf isHold results with
    | some (_, .error (.hold h s1)) => .next (holdBundle s1 h)
    | _ =>
      match firstOf isStopped results with
      | some (o, .error (.trap k)) => .next (trapOrHold s { k with slot := (slotOf o.ins).getD 0 } exes skipped results)
      | some (_, .error (.fault f)) => .fault f
      | some (_, .error (.refused r)) => .refused r
      | _ =>
        match firstOf isSend results, fuel with
        | some (o, _), n + 1 => sendOp s o exes skipped results fun s1 =>
            settle n s1 exes skipped (exes.map fun x => (x, probe s1.cur exes s1 x))
        | _, _ => commit s exes skipped results

/-- Whether the deadline of a SLEEP has still to come (R343). -/
def asleep (s : State) : Bool :=
  match s.cur.sleepTill with
  | some d => decide (tileTime s (tileOf s.cur.cid) < d)
  | none => false

/-- The context as its bundle's operations find it: the tokens, what their completion brings and the number of load entries as
they stand before the bundle (R216, R312). -/
def openCtx (c : Ctx) (n : Nat) : Ctx :=
  { c with sleepTill := none, iss := { Iss.none with count := n, tok0 := c.tok, ws0 := c.tokWs, ldq0 := c.ldq.length } }

/-- A bundle of the context in focus reaches issue (R39 to R55). DEDUCED: the predicates of a repeated bundle are read anew for
every iteration (R39; log 69). -/
def issue (ops : List OpIn) (s : State) : Host.Outcome State Fault Refusal :=
  let c := s.cur
  if asleep s then .next (holdBundle s (.wait .sleep))
  else if ops.any fun o => !declared s o.ins then .next (trapWhole s { cls := 0x01 }).tick
  else if 16 < c.fl.length then .next (holdBundle s .drain)
  else if guardWaits c ops then .next (holdBundle s .stall)
  else
    match (if ctlRep c.ctl then repCount c else some 0) with
    | none => .next (trapWhole s { cls := 0x06 }).tick
    | some n =>
      if ctlRep c.ctl && n = 0 then
        let d := closeCounts .none 0 1 (retireEmpty (ops.map OpIn.ins) { c with sleepTill := none })
        .next (sealBundle (spendCycles { s with cur := d } c.cid 1 1) c.cid).tick
      else
        let s1 := { s with cur := openCtx c n }
        let exes := ops.filter fun o => executes c o.ins
        let skipped := (ops.filter fun o => !executes c o.ins).map OpIn.ins
        settle 1 s1 exes skipped (exes.map fun o => (o, probe s1.cur exes s1 o))

/-- One operation alone in its bundle, under the control word the context holds. -/
def issueOne (i : Instr) (run : State → Op State) (s : State) : Host.Outcome State Fault Refusal := issue [⟨i, run⟩] s

/-! ### Results becoming visible (R40, R135, R136) -/

/-- Whether the answered operation of the bundle in issue has been performed, or its group barrier completed: the bundle
issues with its answer (R291, R292, R307). -/
def performed (s : State) (c : Ctx) : Bool :=
  (match c.wait with
   | none => false
   | some p => !((s.sops ++ s.syncRegs ++ s.parked).any fun o => o.id = p.id))
    || s.groups.any fun g => g.id = c.bind.group && g.pass.contains c.cid

/-- A result below the floor under trap mode (R136). -/
def Flight.isBelow (e : Flight) : Bool := e.mode = 2 && e.below.isSome
/-- The results to become visible now: one that would trap waits until a bundle whose answered operation has been performed
has issued (R292). -/
def dueNow (s : State) (c : Ctx) : List Flight := (dueFlights c).filter fun e => !(performed s c && e.isBelow)
/-- The first of some results that is below the floor under trap mode, in the order of visibility. -/
def firstBelow (l : List Flight) : Option Flight :=
  l.foldl (fun m e => if e.isBelow && (m.all fun x => e.seen < x.seen) then some e else m) none

/-- Tokens of the results that have become visible complete (R283). -/
def completeOps (ids : List Nat) (c : Ctx) : Ctx :=
  c.tokBind.foldl (fun x b => if ids.contains b.2 then completeToken x b.1 else x) c

/-- Results become visible: they leave what is in flight. -/
def showAll (c : Ctx) (l : List Flight) : Ctx :=
  let gone (e : Flight) : Bool := l.any fun x => x.seq = e.seq && x.slot = e.slot
  completeOps (l.filterMap fun e => e.tkop) (l.foldl showFlight { c with fl := c.fl.filter fun e => !gone e })

/-- Every result of a context that is due becomes visible; or the trust-floor trap is taken, after the results of earlier
cycles (R40, R136). -/
def showDue (s : State) : State :=
  let now := dueNow s s.cur
  match firstBelow now with
  | some e =>
    let c := showAll s.cur (now.filter fun x => x.seen < e.seen)
    let first := withheld c.resume e
    let others := (c.fl.filter fun x => !(x.seq = e.seq && x.slot = e.slot)).map (flightEntry c.resume)
    takeTrapIn { s with cur := c } { cls := 0x22, slot := e.slot, lane := e.below, addr := e.pc.toNat } (first :: others)
      (resumeHere c) e.repi
  | none => { s with cur := showAll s.cur now }

end Sys2Proof.Machine
end

