-- ==== Sys2Proof/Machine/Scalar.lean ====
section
/-!
DEFINITION. Slot S (06 R139 to R165): integer and address arithmetic, immediates, comparisons and predicates, scalar
floating point, counts, and the access to control registers. Transfers of control are in Control.lean.
-/
namespace Sys2Proof.Machine

/-! ### Integer arithmetic -/

/-- The width and the signedness TY names (R142). -/
def tyBits (ty : Nat) : Nat := if ty ≤ 1 then 64 else 32
def tySigned (ty : Nat) : Bool := ty = 0 || ty = 2

/-- An exact result narrowed to TY, saturating when asked, and extended to 64 bits (R142); with its flags. -/
def narrowTy (ty : Nat) (sat : Bool) (x : Int) : Word × Flags :=
  let n := tyBits ty
  let sg := tySigned ty
  let y := if sat then clampI (intMin sg n) (intMax sg n) x else x
  let low := wrapN n y
  let v : Word := if sg then BitVec.ofInt 64 (sextN n low) else BitVec.ofNat 64 low
  (v, if sat && y != x then flOF else 0)

/-- ADD, SUB and MUL (R142). -/
def opArith (f : SRF) (op : Int → Int → Int) (cls : Nat) (s : State) : Op State := do
  let a ← srcS s f 1
  let b ← srcS s f 2
  let ty := f.ext.toNat % 8
  let r := narrowTy ty (f.ext.getLsbD 3)
    (op (readInt (tySigned ty) (tyBits ty) a.val.toNat) (readInt (tySigned ty) (tyBits ty) b.val.toNat))
  .ok (emitS s cls f.sd r.1 r.2)

/-- A two-source integer operation on 64 bits, with the flags it raises (R143). -/
def opBin (f : SRF) (cls : Nat) (g : Word → Word → Word × Flags) (s : State) : Op State := do
  let a ← srcS s f 1
  let b ← srcS s f 2
  .ok (emitS s cls f.sd (g a.val b.val).1 (g a.val b.val).2)

/-- A one-source integer operation on 64 bits (R143). -/
def opUn (f : SRF) (g : Word → Word) (s : State) : Op State := do
  let a ← srcS s f 1
  .ok (emitS s 0 f.sd (g a.val) 0)

def pure2 (g : Word → Word → Word) (a b : Word) : Word × Flags := (g a b, 0)

def mulHigh (a b : Word) : Word := BitVec.ofInt 64 (a.toInt * b.toInt / 2 ^ 64)
def mulHighN (a b : Word) : Word := BitVec.ofNat 64 (a.toNat * b.toNat / 2 ^ 64)
/-- Division (R144). -/
def divS (a b : Word) : Word × Flags :=
  if b = 0 then (BitVec.allOnes 64, flDZ) else (BitVec.ofInt 64 (a.toInt.tdiv b.toInt), 0)
def divN (a b : Word) : Word × Flags :=
  if b = 0 then (BitVec.allOnes 64, flDZ) else (BitVec.ofNat 64 (a.toNat / b.toNat), 0)
def remS (a b : Word) : Word × Flags :=
  if b = 0 then (a, flDZ) else (BitVec.ofInt 64 (a.toInt.tmod b.toInt), 0)
def remN (a b : Word) : Word × Flags :=
  if b = 0 then (a, flDZ) else (BitVec.ofNat 64 (a.toNat % b.toNat), 0)

def opAdd (f : SRF) (s : State) : Op State := opArith f (· + ·) 0 s
def opSub (f : SRF) (s : State) : Op State := opArith f (· - ·) 0 s
def opMul (f : SRF) (s : State) : Op State := opArith f (· * ·) 1 s
def opMulh (f : SRF) (s : State) : Op State := opBin f 1 (pure2 mulHigh) s
def opMulhn (f : SRF) (s : State) : Op State := opBin f 1 (pure2 mulHighN) s
def opDiv (f : SRF) (s : State) : Op State := opBin f 2 divS s
def opDivn (f : SRF) (s : State) : Op State := opBin f 2 divN s
def opRem (f : SRF) (s : State) : Op State := opBin f 2 remS s
def opRemn (f : SRF) (s : State) : Op State := opBin f 2 remN s
def opAnd (f : SRF) (s : State) : Op State := opBin f 0 (pure2 (· &&& ·)) s
def opOr (f : SRF) (s : State) : Op State := opBin f 0 (pure2 (· ||| ·)) s
def opXor (f : SRF) (s : State) : Op State := opBin f 0 (pure2 (· ^^^ ·)) s
def opAndn (f : SRF) (s : State) : Op State := opBin f 0 (pure2 fun a b => a &&& ~~~b) s
def opClz (f : SRF) (s : State) : Op State := opUn f (fun a => BitVec.ofNat 64 (clzN 64 a.toNat)) s
def opCtz (f : SRF) (s : State) : Op State := opUn f (fun a => BitVec.ofNat 64 (ctzN 64 a.toNat)) s
def opPopc (f : SRF) (s : State) : Op State := opUn f (fun a => BitVec.ofNat 64 (popN 64 a.toNat)) s
def opMin (f : SRF) (s : State) : Op State := opBin f 0 (pure2 fun a b => if b.slt a then b else a) s
def opMax (f : SRF) (s : State) : Op State := opBin f 0 (pure2 fun a b => if a.slt b then b else a) s
def opMinn (f : SRF) (s : State) : Op State := opBin f 0 (pure2 fun a b => if b.ult a then b else a) s
def opMaxn (f : SRF) (s : State) : Op State := opBin f 0 (pure2 fun a b => if a.ult b then b else a) s

/-- Shifts and rotation: by sb[5:0], or by ext[5:0] when ext[6] is 1 (R145). -/
def opShift (f : SRF) (g : Word → Nat → Word) (s : State) : Op State := do
  let a ← srcS s f 1
  if f.ext.getLsbD 6 then .ok (emitS s 0 f.sd (g a.val (f.ext.toNat % 64)) 0)
  else do
    let b ← srcS s f 2
    .ok (emitS s 0 f.sd (g a.val (b.val.toNat % 64)) 0)
def opShl (f : SRF) (s : State) : Op State := opShift f (fun a n => a <<< n) s
def opShr (f : SRF) (s : State) : Op State := opShift f (fun a n => a >>> n) s
def opSar (f : SRF) (s : State) : Op State := opShift f (fun a n => a.sshiftRight n) s
def opRot (f : SRF) (s : State) : Op State := opShift f (fun a n => a.rotateLeft n) s

/-- SEL and SEL.F32 (R146). -/
def opSel (f : SRF) (s : State) : Op State := do
  let a ← srcS s f 1
  let b ← srcS s f 2
  let p ← rdP s 0 f.pa
  let x := if p then a else b
  if f.ext.getLsbD 0 then
    let v : Word := (x.val.setWidth 32).setWidth 64
    let y : Scalar := ⟨v, BitVec.ofNat 5 (clampCount 24 v.toNat x.cnt.toNat)⟩
    .ok (emit s 0 [.scalar f.sd y] (.scalar y) 0 none)
  else .ok (emitS s 0 f.sd x.val 0)

/-- LEA (R147). -/
def opLea (f : SRF) (s : State) : Op State := do
  let a ← srcS s f 1
  let disp : Word := (f.ext.extractLsb' 0 13).signExtend 64
  if f.ext.getLsbD 16 then .ok (emitS s 0 f.sd (a.val + disp) 0)
  else do
    let b ← srcS s f 2
    .ok (emitS s 0 f.sd (a.val + (b.val <<< (f.ext.extractLsb' 13 3).toNat) + disp) 0)

/-! ### Immediates (R148) -/

def simm (f : SIF) : Word := f.imm.signExtend 64
def opImm (f : SIF) (g : Word → Word) (s : State) : Op State := do
  let a ← rdS s 0 f.sa
  .ok (emitS s 0 f.sd (g a.val) 0)
def opAddi (f : SIF) (s : State) : Op State := opImm f (fun a => a + simm f) s
def opAndi (f : SIF) (s : State) : Op State := opImm f (fun a => a &&& simm f) s
def opOri (f : SIF) (s : State) : Op State := opImm f (fun a => a ||| simm f) s
def opXori (f : SIF) (s : State) : Op State := opImm f (fun a => a ^^^ simm f) s
def opMovi (f : SIF) (s : State) : Op State := .ok (emitS s 0 f.sd (simm f) 0)
def opMovhi (f : SIF) (s : State) : Op State :=
  opImm f (fun a => ((f.imm.extractLsb' 0 26).setWidth 64 <<< 38) ||| (a &&& 0x3FFFFFFFFF)) s

/-! ### Comparisons and predicates (R149, R150) -/

/-- The condition codes of CMP and VCMP on `w`-bit values (R149). -/
def cmpInt (cc : Nat) (w : Nat) (a b : BitVec w) : Bool :=
  match cc with
  | 0 => a = b
  | 1 => a ≠ b
  | 2 => a.slt b
  | 3 => a.sle b
  | 4 => b.slt a
  | 5 => b.sle a
  | 6 => a.ult b
  | 7 => a.ule b
  | 8 => b.ult a
  | _ => b.ule a

def opCmp (f : SRF) (s : State) : Op State := do
  let a ← srcS s f 1
  let b ← srcS s f 2
  .ok (emitP s 14 f.pd (cmpInt (f.ext.toNat % 16) 64 a.val b.val) 0)

def opPred2 (f : SRF) (g : Bool → Bool → Bool) (s : State) : Op State := do
  let a ← rdP s 0 f.pa
  let b ← rdP s 1 f.pb
  .ok (emitP s 14 f.pd (g (a != f.ext.getLsbD 0) (b != f.ext.getLsbD 1)) 0)
def opPand (f : SRF) (s : State) : Op State := opPred2 f (· && ·) s
def opPor (f : SRF) (s : State) : Op State := opPred2 f (· || ·) s
def opPxor (f : SRF) (s : State) : Op State := opPred2 f (· != ·) s
def opPnot (f : SRF) (s : State) : Op State := do
  let a ← rdP s 0 f.pa
  .ok (emitP s 14 f.pd (!a) 0)

/-! ### Scalar floating point (R151 to R154) -/

/-- A scalar read as FP32 with its count (R82, R104), which is 0 beside an infinity or a NaN whatever produced it (R105). -/
def fp32 (x : Scalar) : TOp := ⟨fDec 24 (x.val.toNat % 2 ^ 32), clampCount 24 (x.val.toNat % 2 ^ 32) x.cnt.toNat, 24⟩

/-- An FP32 scalar result: bits 31:0, the count, checked against FLOOR (R82, R134). -/
def emitF (s : State) (cls : Nat) (d : BitVec 5) (r : FRes) (cnt : Nat) : State :=
  let x : Scalar := ⟨BitVec.ofNat 64 (r.bits % 2 ^ 32), BitVec.ofNat 5 (clampCount 24 r.bits cnt)⟩
  emit s cls [.scalar d x] (.scalar x) r.flags (belowFloor s.cur 24 [(0, x.cnt.toNat)])

def srRm (f : SRF) : BitVec 2 := f.ext.extractLsb' 0 2

def opSf2 (f : SRF) (cls : Nat) (g : BitVec 2 → FVal → FVal → FRes) (k : FRes → TOp → TOp → Nat) (s : State) : Op State := do
  let a ← srcS s f 1
  let b ← srcS s f 2
  let r := g (srRm f) (fp32 a).val (fp32 b).val
  .ok (emitF s cls f.sd r (k r (fp32 a) (fp32 b)))
def opSfadd (f : SRF) (s : State) : Op State := opSf2 f 3 (fAdd 24) (fun r a b => cntAdd 24 r [a, b]) s
def opSfsub (f : SRF) (s : State) : Op State := opSf2 f 3 (fSub 24) (fun r a b => cntAdd 24 r [a, b]) s
def opSfmul (f : SRF) (s : State) : Op State := opSf2 f 3 (fMul 24) (cntMul 24) s
def opSfdiv (f : SRF) (s : State) : Op State := opSf2 f 2 (fDiv 24) (cntMul 24) s
def opSffma (f : SRF) (s : State) : Op State := do
  let a ← srcS s f 1
  let b ← srcS s f 2
  let c ← srcS s f 3
  let r := fFma 24 (srRm f) (fp32 a).val (fp32 b).val (fp32 c).val
  .ok (emitF s 3 f.sd r (cntFma 24 r (fp32 a) (fp32 b) (fp32 c)))
def opSfsqrt (f : SRF) (s : State) : Op State := do
  let a ← srcS s f 1
  let r := fSqrt 24 (srRm f) (fp32 a).val
  .ok (emitF s 2 f.sd r (cntSqrt 24 r (fp32 a)))
def opSfcmp (f : SRF) (s : State) : Op State := do
  let a ← srcS s f 1
  let b ← srcS s f 2
  let r := fCmp (f.ext.toNat % 16) (fp32 a).val (fp32 b).val
  .ok (emitP s 14 f.pd r.1 r.2)

/-- The integer type ext[3:2] names: signed, bits (R153, R154). -/
def cvtSigned (f : SRF) : Bool := !f.ext.getLsbD 2
def cvtBits (f : SRF) : Nat := if f.ext.getLsbD 3 then 64 else 32
/-- An `n`-bit pattern extended to 64 bits. -/
def extend (signed : Bool) (n x : Nat) : Word := BitVec.ofInt 64 (readInt signed n x)

/-- SFCVT to an integer (R153). -/
def opSfcvtI32 (f : SRF) (s : State) : Op State := do
  let a ← srcS s f 1
  let r := fToInt (srRm f) (cvtSigned f) (cvtBits f) (fp32 a).val
  .ok (emitS s 7 f.sd (extend (cvtSigned f) (cvtBits f) r.1) r.2)
/-- SFCVT from an integer (R154). -/
def opSfcvtF32 (f : SRF) (s : State) : Op State := do
  let a ← srcS s f 1
  let r := intToF 24 (srRm f) (readInt (cvtSigned f) (cvtBits f) a.val.toNat)
  .ok (emitF s 7 f.sd r 24)

/-! ### Counts (R155) -/

def opSigget (f : SRF) (s : State) : Op State := do
  let a ← srcS s f 1
  .ok (emitS s 0 f.sd (a.cnt.setWidth 64) 0)
def opSigset (f : SRF) (s : State) : Op State := do
  let a ← srcS s f 1
  let b ← srcS s f 2
  let x : Scalar := ⟨a.val, BitVec.ofNat 5 (clampCount 24 (a.val.toNat % 2 ^ 32) (min b.val.toNat 24))⟩
  .ok (emit s 0 [.scalar f.sd x] (.scalar x) 0 none)

/-! ### Control registers (R161 to R164, R337) -/

/-- CREAD; re-injected, it gives what it captured (R54). -/
def opCread (f : SRF) (s : State) : Op State :=
  let v := match s.cur.iss.cap with
    | some e => (scalarOfBlock e.b0).val
    | none => crValue s (crNumber f)
  .ok (emitS s 15 f.sd v 0)

/-- Values a register's own rule rejects (R92, R133, R337). -/
def crRejects (n : Nat) (v : Word) : Bool :=
  if n = 8 then 24 < bitsOf 0 5 v.toNat || 8 < bitsOf 8 4 v.toNat || bitsOf 16 2 v.toNat = 3
  else if n = 9 then bitsOf 0 5 v.toNat = 0 || 16 < bitsOf 0 5 v.toNat
  else if n = 0x41 then bitsOf 0 6 v.toNat != 0
  else false

/-- CWRITE takes effect when its bundle retires (R162). -/
def opCwrite (f : SRF) (s : State) : Op State := do
  let a ← srcS s f 1
  if crRejects (crNumber f) a.val then trapOp 0x02 8
  else .ok (s.updCur fun c => { c with iss := { c.iss with atRetire := c.iss.atRetire ++ [(crNumber f, a.val)] } })

end Sys2Proof.Machine
end

