-- ==== Sys2Proof/Machine/Rows.lean ====
section
/-!
DEFINITION. Rows as lists of lanes (04 R89 to R97, 05 R104 to R106), lane masks, typed sources (R96), and the one way a
vector operation delivers a row (07 R169 to R171).
-/
namespace Sys2Proof.Machine

/-! ### Lanes as operands -/

/-- A scalar as a lane of a format (R96, R107). -/
def scalarLane (fmt : Nat) (x : Scalar) : Lane :=
  let v := x.val.toNat % 2 ^ fmtBits fmt
  ⟨v, if fmtPrec fmt = 0 then 0 else clampCount (fmtPrec fmt) v x.cnt.toNat, 0⟩

/-- A float lane as an operand. -/
def Lane.op (p : Nat) (x : Lane) : TOp := ⟨fDec p x.val, x.cnt, p⟩

/-- A source of a required tag (R96): a row of that tag, or a scalar broadcast. -/
def typed (tag : Byte) (x : Opd) : Op (List Lane) :=
  match x with
  | .row r => if r.tag = tag then .ok (rowLanes r) else trapOp 0x03 0
  | .scalar x => .ok (List.replicate (laneCount (tagFmt tag)) (scalarLane (tagFmt tag) x))
  | .mask _ => trapOp 0x02 1

/-- A PL source of the context's width (R96). -/
def needPL (s : State) (r : Row) : Op Unit := need (r.tag = tagPL (planeW s.cur)) 0x03 0

/-! ### Merging under a write mask (R94, R169) -/

/-- Elements the mask enables from `new`, the others from `old`; rows of one tag. -/
def mergeRows (k : Mask) (new old : Row) : Row :=
  let fmt := tagFmt new.tag
  if fmt = 8 then
    rowOfSlots new.tag ((List.range 16).map fun i =>
      let a := laneN 128 i new.val.toNat
      let b := laneN 128 i old.val.toNat
      (a &&& k.toNat) ||| (b &&& (~~~k).toNat))
  else
    rowOfLanes new.tag ((List.range (laneCount fmt)).map fun j =>
      let r := if laneOn k fmt j then new else old
      ⟨laneN (fmtBits fmt) j r.val.toNat, planeCnt (fmtPrec fmt) r.trust j, 0⟩)

/-! ### Delivering a row -/

/-- The old destination row (R169, R170). -/
def rdOld (s : State) (d : Nat) : Op Row :=
  match s.cur.iss.cap with
  | some e => .ok e.b3
  | none => if waitsFor s.cur (isRowW d) then holdOp s .stall else .ok (s.cur.regs.row d)

/-- The base row of an operation that produces part of a row (R170). -/
def baseRow (s : State) (inB : Bool) (f : VF) (tag : Byte) : Op Row :=
  if f.t then .ok (rowOfLanes tag (List.replicate (laneCount (tagFmt tag)) (Lane.zero (fmtPrec (tagFmt tag)))))
  else do
    let d ← dstRow s (dstBit inB) f.dst
    let old ← rdOld s d
    if old.tag = tag then .ok old
    else .ok (rowOfLanes tag (List.replicate (laneCount (tagFmt tag)) (Lane.zero (fmtPrec (tagFmt tag)))))

/-- OR of the flags of lanes (R171). -/
def orFlags (l : List Lane) : Flags := l.foldl (fun a x => a ||| x.fl) 0

/-- Whether a mask enables no lane of a row of a format (R94, R193). -/
def noLane (k : Mask) (fmt : Nat) : Bool :=
  if fmt = 8 then k = 0 else (List.range (laneCount fmt)).all fun j => !laneOn k fmt j

/-- The row and the numbered lanes an operation produced go to its destination and latch: write mask (R169), flags
(R171), check (R134). Where the mask enables no lane, no register is written (R193). DESIGN CHOICE: the row as it stands
enters the latch (R43; log 88). -/
def putRow (s : State) (inB : Bool) (f : VF) (cls : Nat) (new : Row) (lanes : List (Nat × Lane)) (chk : Bool) : Op State := do
  let fmt := tagFmt new.tag
  let k ← rdK s f.k
  let on := lanes.filter fun x => laneOn k fmt x.1
  let flags := orFlags (on.map Prod.snd)
  let below := if chk then belowFloor s.cur (fmtPrec fmt) (on.map fun x => (x.1, x.2.cnt)) else none
  if f.t then .ok (emit s cls [] (.row new) flags below)
  else do
    let d ← dstRow s (dstBit inB) f.dst
    if f.k = 0 then .ok (emit s cls [.row d new] (.row new) flags below)
    else do
      let old ← rdOld s d
      if old.tag != new.tag then trapOp 0x03 0
      else
        let r := mergeRows k new old
        .ok (emit s cls (if noLane k fmt then [] else [.row d r]) (.row r) flags below)

/-- The same where k is no write mask (R175, R187, R189). -/
def putWhole (s : State) (inB : Bool) (f : VF) (cls : Nat) (new : Row) (flags : Flags) (below : Option Nat) : Op State :=
  if f.t then .ok (emit s cls [] (.row new) flags below)
  else do
    let d ← dstRow s (dstBit inB) f.dst
    .ok (emit s cls [.row d new] (.row new) flags below)

/-- Number the lanes from `i0`. -/
def numbered (i0 : Nat) (l : List Lane) : List (Nat × Lane) := (List.range l.length).map (· + i0) |>.zip l

/-- All lanes of a row of a tag. -/
def putLanes (s : State) (inB : Bool) (f : VF) (cls : Nat) (tag : Byte) (l : List Lane) (chk : Bool) : Op State :=
  putRow s inB f cls (rowOfLanes tag l) (numbered 0 l) chk

/-- Lanes from `i0` of a row of a tag, the others from the base row (R170). -/
def putPart (s : State) (inB : Bool) (f : VF) (cls : Nat) (tag : Byte) (i0 : Nat) (l : List Lane) (chk : Bool) : Op State := do
  let b ← baseRow s inB f tag
  let bl := rowLanes b
  putRow s inB f cls (rowOfLanes tag (bl.take i0 ++ l ++ bl.drop (i0 + l.length))) (numbered i0 l) chk

/-- A mask result (R168). -/
def putMask (s : State) (f : VF) (m : Mask) (flags : Flags) : Op State :=
  .ok (emit s 14 [.mask (f.dst.setWidth 3) m] (.mask m) flags none)
/-- The old value of a mask destination, whose disabled bits stay (R174, R178). DEDUCED: it is read at issue with the operands, and
an operation issued again takes the one captured then (R54; log 68). -/
def rdOldMask (s : State) (f : VF) : Op Mask :=
  let n : BitVec 3 := f.dst.setWidth 3
  match s.cur.iss.cap with
  | some e => .ok (e.b3.val.setWidth 128)
  | none => if waitsFor s.cur (isMaskW n) then holdOp s .stall else .ok (s.cur.regs.mask n)
/-- A scalar result with its count (R168). -/
def putScalar (s : State) (f : VF) (cls : Nat) (x : Scalar) (flags : Flags) (below : Option Nat) : Op State :=
  .ok (emit s cls [.scalar (f.dst.setWidth 5) x] (.scalar x) flags below)

end Sys2Proof.Machine
end

