-- ==== Sys2Proof/Machine/ArrayMath.lean ====
section
/-!
DEFINITION. The arithmetic of the matrix array (04 R98 to R103, 05 R114 to R117, 10 R272, R275): one k-step of one
element, the additions of SPLIT mode, a plane step, and the elements of panels and blocks.
-/
namespace Sys2Proof.Machine

/-! ### Terms (R98, R99, R114) -/

/-- A subnormal of precision `p` becomes a zero of its sign (R98). -/
def flushIn (v : FVal) : FVal :=
  match v with
  | .num n _ e => if v.lead < -126 then .num n 0 e else v
  | x => x

/-- A term of a group sum: its value and its count. -/
structure Term where
  val : FVal
  t : Nat
  deriving DecidableEq, Repr

def Term.floor (x : Term) : Int := x.val.lead - x.t

/-- A BF16 operand or an FP32 accumulator value: bits and count. -/
structure Elem where
  bits : Nat
  t : Nat
  deriving DecidableEq, Repr

/-- The exact product of two finite or infinite values (R99, R100). -/
def prodVal (a b : FVal) : FVal :=
  match a, b with
  | .nan s, _ => .nan s
  | _, .nan s => .nan s
  | .inf x, .inf y => .inf (x != y)
  | .inf x, .num y m _ => if m = 0 then .nan false else .inf (x != y)
  | .num x m _, .inf y => if m = 0 then .nan false else .inf (x != y)
  | .num x m e, .num y k f => .num (x != y) (m * k) (e + f)

/-- A product of two BF16 operands with its count (R114). -/
def prodTerm (a b : Elem) : Term :=
  ⟨prodVal (flushIn (fDec 8 a.bits)) (flushIn (fDec 8 b.bits)),
   if a.t = 8 && b.t = 8 then 24 else min a.t b.t - (if a.t = b.t then 1 else 0)⟩

/-! ### Rounding with R98's flush -/

/-- An element with the flags its production raised. -/
structure ElemRes where
  bits : Nat
  exact : Bool
  fl : Flags
  deriving DecidableEq, Repr

/-- Whether a value's magnitude, rounded to 24 bits with the exponent unbounded, is below 2^-126 (R98). -/
def tinyAfter (m : Nat) (e : Int) : Bool :=
  let lead := (Nat.log2 m : Int) + e
  lead < -127 || (lead = -127 && (toUnit 0 false m e (lead - 23) false).1 < 2 ^ 24)

/-- A non-zero exact value rounded to FP32 by RNE under R98 and R100; NX is never recorded (R101). -/
def arrRound (neg : Bool) (m : Nat) (e : Int) : ElemRes :=
  if tinyAfter m e then ⟨fZero 24 neg, false, flUF⟩
  else
    let r := fRound 24 0 neg m e false
    ⟨r.bits, r.exact, r.flags &&& flOF⟩

/-! ### The group sum (R99, R100, R115) -/

def Term.finite (x : Term) : Bool :=
  match x.val with
  | .num _ m _ => m != 0
  | _ => false

/-- Signed sum of the finite terms, each truncated toward zero at unit 2^u. -/
def windowSum (u : Int) (l : List Term) : Int :=
  l.foldl (fun s x => match x.val with
    | .num n m e =>
      let v : Int := if u ≤ e then (m * 2 ^ (e - u).toNat : Nat) else (m / 2 ^ (u - e).toNat : Nat)
      if n then s - v else s + v
    | _ => s) 0

/-- The least exponent among the finite terms, so that sums at it are exact. -/
def leastExp (l : List Term) : Int :=
  l.foldl (fun u x => match x.val with
    | .num _ m e => if m = 0 then u else min u e
    | _ => u) 1000

/-- Two dyadic numbers are equal. -/
def sameDyadic (a : Int) (u : Int) (b : Int) (v : Int) : Bool :=
  let w := min u v
  a * 2 ^ (u - w).toNat = b * 2 ^ (v - w).toNat

/-- Signed value of finite bits at its own exponent. -/
def signedOf (x : FVal) : Int × Int :=
  match x with
  | .num n m e => (if n then -(m : Int) else m, e)
  | _ => (0, 0)

/-- The group sum of terms (R99, R100): bits, whether it equals the exact sum, flags. -/
def groupSum (l : List Term) : ElemRes :=
  let nans := l.any fun x => x.val.isNan
  let pinf := l.any fun x => x.val = .inf false
  let ninf := l.any fun x => x.val = .inf true
  if nans || (pinf && ninf) then ⟨fQNaN 24, false, flNV⟩
  else if pinf then ⟨fInf 24 false, false, 0⟩
  else if ninf then ⟨fInf 24 true, false, 0⟩
  else
    let nz := l.filter Term.finite
    match nz with
    | [] => ⟨fZero 24 (l.all fun x => x.val.neg?), true, 0⟩
    | a :: r =>
      let emax := r.foldl (fun m x => max m x.val.lead) a.val.lead
      let u := emax - 47
      let acc := windowSum u nz
      let le := leastExp nz
      let ex := windowSum le nz
      if acc = 0 then ⟨0, ex = 0, 0⟩
      else
        let r := arrRound (decide (acc < 0)) acc.natAbs u
        let v := signedOf (fDec 24 r.bits)
        { r with exact := sameDyadic v.1 v.2 ex le }

/-- The count of a group result (R110, R115). -/
def groupCount (l : List Term) (r : ElemRes) : Nat :=
  let full := l.all fun x => x.t = 24
  match fDec 24 r.bits with
  | .num n m e =>
    if m = 0 then (if r.exact && full then 24 else 0)
    else if full && r.exact then 24
    else
      let f0 := l.foldl (fun f x => max f x.floor) (-2000 : Int)
      let nz := l.filter Term.finite
      let f := if nz.isEmpty then f0 else max f0 (nz.foldl (fun k x => max k x.val.lead) (-2000) - 48)
      clampCnt 24 ((FVal.num n m e).lead - f)
  | _ => 0

/-- One k-step's group sum over two rows of operands, with the accumulator as a further term in FUSED mode. -/
def kStep (a b : List Elem) (acc : Option Elem) : Elem × Flags :=
  let prods := (a.zip b).map fun x => prodTerm x.1 x.2
  let terms := match acc with
    | some c => prods ++ [⟨flushIn (fDec 24 c.bits), c.t⟩]
    | none => prods
  let r := groupSum terms
  (⟨r.bits, groupCount terms r⟩, r.fl)

/-- An FP32 addition in the array (R98, R100 to R102, R116). -/
def arrAdd (x y : Elem) : Elem × Flags :=
  let a := flushIn (fDec 24 x.bits)
  let b := flushIn (fDec 24 y.bits)
  let r0 := fAdd 24 0 a b
  let v := fDec 24 r0.bits
  let r : FRes :=
    if v.isNan then { r0 with flags := flNV }
    else if !v.isZero && decide (v.lead < -126) then ⟨fZero 24 v.neg?, flUF, false⟩
    else { r0 with flags := r0.flags &&& flOF }
  (⟨r.bits, cntAdd 24 r [⟨a, x.t, 24⟩, ⟨b, y.t, 24⟩]⟩, r.flags)

/-! ### Blocks -/

/-- FP32 +0 with count 24, or I32 0 (R259, R281). -/
def AccBlock.fresh (i32 : Bool) : AccBlock := ⟨0, if i32 then 0 else BitVec.ofNat 8192 (packN 8 (List.replicate 1024 24)), i32⟩
/-- The 1,024 elements of a block, row by row. -/
def AccBlock.elems (b : AccBlock) : List Elem :=
  (List.range 1024).map fun i => ⟨laneN 32 i b.val.toNat, if b.isI32 then 0 else laneN 8 i b.cnt.toNat⟩
def blockOf (i32 : Bool) (l : List Elem) : AccBlock :=
  ⟨BitVec.ofNat 32768 (packN 32 (l.map Elem.bits)), if i32 then 0 else BitVec.ofNat 8192 (packN 8 (l.map Elem.t)), i32⟩
/-- Every element the same. -/
def blockFill (i32 : Bool) (x : Elem) : AccBlock := blockOf i32 (List.replicate 1024 x)

def Ctx.block (c : Ctx) (b : Nat) : AccBlock := (look b c.acc).getD (AccBlock.fresh false)
def Ctx.setBlock (c : Ctx) (b : Nat) (x : AccBlock) : Ctx := { c with acc := put b x c.acc }

/-! ### Panel tiles (R272) -/

/-- Row `r` of a BF16 tile's bytes: 32 elements of count 8 (R127). -/
def bf16Row (tile : List Byte) (r : Nat) : List Elem :=
  (List.range 32).map fun c => ⟨leNat ((tile.drop (64 * r + 2 * c)).take 2), 8⟩
/-- Column `c` of a BF16 tile. -/
def bf16Col (tile : List Byte) (c : Nat) : List Elem :=
  (List.range 32).map fun r => ⟨leNat ((tile.drop (64 * r + 2 * c)).take 2), 8⟩
/-- Row `r` of a tile of codes, decoded through a codebook (R274). -/
def cb4Row (cb : Codebook) (tile : List Byte) (r : Nat) : List Elem :=
  (List.range 32).map fun c =>
    let b := (tile.getD (16 * r + c / 2) 0).toNat
    ⟨(cb.entries.toList.getD (if c % 2 = 0 then b % 16 else b / 16) 0).toNat, cb.trust⟩

/-- The elements of a block after one floating-point step: FUSED with the block's own value, else the group sum added
into `acc` (R102). -/
def floatStep (fused : Bool) (rows cols : List (List Elem)) (acc : List Elem) : List Elem × Flags :=
  let out := (List.range 1024).map fun i =>
    let a := rows.getD (i / 32) []
    let b := cols.getD (i % 32) []
    let x := acc.getD i ⟨0, 0⟩
    if fused then kStep a b (some x)
    else
      let g := kStep a b none
      let r := arrAdd x g.1
      (r.1, r.2 ||| g.2)
  (out.map Prod.fst, out.foldl (fun f x => f ||| x.2) 0)

/-! ### Planes (R275) -/

/-- Weight of plane `b` of `w`: negative for the top plane of a signed operand. -/
def planeWeight (sgn : Bool) (w b : Nat) : Int := if sgn && b + 1 = w then -(2 ^ b : Nat) else (2 ^ b : Nat)

/-- Plane `b` of line `r` of a plane tile of width `w` (R272). -/
def planeBits (tile : List Byte) (w r b : Nat) : Nat := leNat ((tile.drop (256 * (r * w + b))).take 256)

/-- The exact sum of a plane step for output row `r` and column `c`. -/
def planeDot (ta tb : List Byte) (wa wb : Nat) (sa sb : Bool) (r c : Nat) : Int :=
  (List.range wa).foldl (fun s ba => (List.range wb).foldl (fun s2 bb =>
    s2 + planeWeight sa wa ba * planeWeight sb wb bb * (popN 2048 (planeBits ta wa r ba &&& planeBits tb wb c bb) : Nat)) s) 0

end Sys2Proof.Machine
end

