-- ==== Sys2Proof/Machine/Location.lean ====
section
/-!
DEFINITION. Which scratchpads a context's accesses may reach (09 R223), scopes (12 R314), and what a release carries and
an acquire brings (12 R315 to R319).
-/
namespace Sys2Proof.Machine

/-! ### Groups of contexts -/

/-- Whether a group stands on its tile. -/
def Group.placed (g : Group) : Bool := g.st != .reserving && !g.gone

/-- Where byte `off` of tile `t`'s scratchpad, as a remote location counts it, is kept: byte `off` less the start of its
run, of the allocation of the group whose run holds it (log 9). -/
def remoteKey (s : State) (t off : Nat) : Nat :=
  match s.groups.find? fun g => g.placed && g.tile = t && g.bank * 2 ^ 18 ≤ off && off < (g.bank + g.banks) * 2 ^ 18 with
  | some g => spadKey t (physOff g.bank g.banks (off - g.bank * 2 ^ 18))
  | none => spadKey t off

/-- The place of byte `i` after offset `off` of tile `t`, in the run that holds `off`, as an offset into its allocation wraps:
an entry of a ring whose word lies at `off` (R197, 16 R384). -/
def ringKey (s : State) (t off i : Nat) : Nat :=
  match s.groups.find? fun g => g.placed && g.tile = t && g.bank * 2 ^ 18 ≤ off && off < (g.bank + g.banks) * 2 ^ 18 with
  | some g => spadKey t (physOff g.bank g.banks (off - g.bank * 2 ^ 18 + i))
  | none => spadKey t (off + i)

/-- Whether `n` bytes at `off` of tile `t` lie in the allocation of a group that a context's copies and sync operations may
reach: same function, same kernel launch or same gang (R223). -/
def targetOk (s : State) (cid t off n : Nat) : Bool :=
  let c := s.ctx cid
  s.groups.any fun g =>
    g.placed && g.tile = t && g.bank * 2 ^ 18 ≤ off && off + n ≤ (g.bank + g.banks) * 2 ^ 18
      && (match s.launch g.launch with
          | some l => l.fn = c.bind.vf && (if l.nmem = 0 then g.launch = c.bind.launch
              else (match s.group c.bind.group with
                | some h => g.ticket = h.ticket
                | none => false))
          | none => false)

/-! ### Scopes (R314) -/

def dieOf (cid : Nat) : Nat := hwOf cid / 256

/-- The context that stands on a hardware context now. -/
def State.onHw (s : State) (h : Nat) : Ctx :=
  match s.allCtx.find? fun c => hwOf c.cid = hwOf h && c.status != .free && c.status != .retired && c.status != .saved with
  | some c => c
  | none => s.ctx h

/-- The agent number of a peer device (20 R485). -/
def peerAgent (p : Nat) : Nat := 2 ^ 68 + p
def isPeer (cid : Nat) : Bool := decide (2 ^ 68 ≤ cid) && decide (cid < 2 ^ 69)

/-- Whether agent `g` lies within scope `sc` around an agent `p`, of group `pg` where it is a context: a peer device only at DOM
and SYS (20 R487). -/
def inScope (s : State) (sc p pg g : Nat) : Bool :=
  if isPeer p != isPeer g then 5 ≤ sc
  else match sc with
  | 0 => p = g
  | 1 => p = g || (pg = (s.ctx g).bind.group && pg != 0)
  | 2 => tileOf p = tileOf g
  | 3 => dieOf p = dieOf g
  | _ => true

/-! ### What a context sees and what its releases carry -/

/-- What a release of the context on an anchor carries, and to which scope (R317). -/
def carryOf (c : Ctx) (anchor : Nat) : List Carry :=
  let moored := c.moor.toList.flatMap fun m =>
    match m with
    | some x => if anchorOf c x.anchor = anchor then
        ((carriedWrites c).filterMap fun w => w.clip c.bind.vf x.base.toNat x.len).map fun w => ⟨w, x.scope.toNat, c.cid, c.bind.group, false⟩
        else []
    | none => []
  moored ++ c.view.fencedRel.map fun f => ⟨f.1, f.2, c.cid, c.bind.group, false⟩

/-- Whether every carried write has been performed (R317). -/
def carryDone (s : State) (l : List WRef) : Bool := l.all fun w => !(s.gops.any fun g => g.id = w.id)

/-- The carried writes a context acquires on an anchor: those carried to a scope it lies in (R318, R319). -/
def acquired (s : State) (cid anchor : Nat) (l : List Carry) : Acq :=
  let mine := l.filter fun x => inScope s x.scope x.by_ x.grp cid
  ⟨anchor, (mine.filter fun x => !x.free).map Carry.w, (mine.filter Carry.free).map Carry.w, false⟩

/-- An acquire (R318): newest first. -/
def Ctx.acquire (c : Ctx) (a : Acq) : Ctx := { c with view := { c.view with acqs := a :: c.view.acqs } }
/-- Writes visible without mooring or fence (R319). -/
def Ctx.know (c : Ctx) (ws : List WRef) : Ctx := { c with view := { c.view with known := ws ++ c.view.known } }

/-- The releases performed on a sync word so far, with what they carry (R316). -/
def relsOf (s : State) (word : Nat) : List Carry := (look word s.rels).getD []
def addRel (s : State) (word : Nat) (l : List Carry) : State :=
  { s with rels := put word (l ++ relsOf s word) s.rels }

end Sys2Proof.Machine
end

