-- ==== Sys2Proof/Machine/SyncWord.lean ====
section
/-!
DEFINITION. The forms of sync words (11 R287, R297, R301, 12 R321, 16 R384), their updates (R298, R302, R303, R325), and
reading and writing a sync word at its home (R289).
-/
namespace Sys2Proof.Machine

def b2n (b : Bool) : Nat := if b then 1 else 0

/-! ### COUNT words (R297, R298) -/

structure CountW where
  count : Nat
  posts : Nat
  ovf : Bool
  deriving DecidableEq, Repr

def parseCount (w : Nat) : Option CountW :=
  if bitsOf 124 4 w = 1 && bitsOf 97 27 w = 0 && bitsOf 32 32 w = 0 then
    some ⟨bitsOf 0 32 w, bitsOf 64 32 w, bitsOf 96 1 w = 1⟩
  else none
def CountW.word (x : CountW) : Nat := 2 ^ 124 + b2n x.ovf * 2 ^ 96 + x.posts * 2 ^ 64 + x.count

/-- SEM.POST. -/
def CountW.post (x : CountW) (n : Nat) : CountW :=
  let y := x.count + n
  { count := if 2 ^ 32 - 1 < y then 2 ^ 32 - 1 else y
    posts := (x.posts + 1) % 2 ^ 32
    ovf := x.ovf || decide (2 ^ 32 - 1 < y) }

/-! ### BARRIER words (R301 to R303) -/

structure BarW where
  phase : Nat
  ovr : Bool
  arrrl : Nat
  arr : Nat
  secrl : Nat
  due : Int
  ahead : Nat
  deriving DecidableEq, Repr

def parseBar (w : Nat) : Option BarW :=
  if bitsOf 124 4 w = 2 && bitsOf 112 7 w = 0 then
    some ⟨bitsOf 120 4 w, bitsOf 119 1 w = 1, bitsOf 96 16 w, bitsOf 80 16 w, bitsOf 56 24 w,
      readInt true 28 (bitsOf 28 28 w), bitsOf 0 28 w⟩
  else none
def BarW.word (x : BarW) : Nat :=
  2 * 2 ^ 124 + x.phase * 2 ^ 120 + b2n x.ovr * 2 ^ 119 + x.arrrl * 2 ^ 96 + x.arr * 2 ^ 80 + x.secrl * 2 ^ 56
    + (BitVec.ofInt 28 x.due).toNat * 2 ^ 28 + x.ahead

/-- DUE set to sat(v), OVR set when it clamps. -/
def BarW.setDue (x : BarW) (v : Int) : BarW :=
  if v < -(2 ^ 27) then { x with due := -(2 ^ 27), ovr := true }
  else if 2 ^ 27 - 1 < v then { x with due := 2 ^ 27 - 1, ovr := true }
  else { x with due := v }

def BarW.settle (x : BarW) : BarW :=
  if x.arr = 0 && x.due = 0 then
    let y := { x with phase := (x.phase + 1) % 16, arr := x.arrrl }
    { y.setDue ((x.secrl : Int) - x.ahead) with ahead := 0 }
  else if x.arr = 0 && decide (x.due < 0) then { x with ovr := true }
  else x

def BarW.arrive (x : BarW) (n : Nat) : BarW :=
  if x.arr = 0 then { x with ovr := true }
  else ({ x with arr := x.arr - 1 }.setDue (x.due + n)).settle
def BarW.expect (x : BarW) (n : Nat) : BarW := (x.setDue (x.due + n)).settle
def BarW.post (x : BarW) (q : Nat) : BarW :=
  if q = x.phase then (x.setDue (x.due - 1)).settle
  else if q = (x.phase + 1) % 16 then
    if x.ahead = 2 ^ 28 - 1 then { x with ovr := true } else { x with ahead := x.ahead + 1 }
  else { x with ovr := true }
/-- BAR.INIT's word from its scalar. -/
def barInitWord (sb : Nat) : BarW :=
  ⟨0, false, bitsOf 0 16 sb, bitsOf 0 16 sb, bitsOf 40 24 sb, bitsOf 40 24 sb, 0⟩

/-! ### REGION words (R321, R325) -/

def parseRegion (w : Nat) : Option Nat :=
  if bitsOf 124 4 w = 4 && bitsOf 32 92 w = 0 then some (bitsOf 0 32 w) else none
def regionWord (ver : Nat) : Nat := 4 * 2 ^ 124 + ver % 2 ^ 32

/-! ### QUEUE words (R384) -/

structure QueueW where
  scope : Nat
  strict : Bool
  esz : Nat
  ldepth : Nat
  free : Nat
  rej : Nat
  head : Nat
  owner : Nat
  deriving DecidableEq, Repr

def QueueW.depth (q : QueueW) : Nat := 2 ^ q.ldepth
/-- ESZB, bytes of an entry. -/
def QueueW.bytes (q : QueueW) : Nat := 16 * 2 ^ q.esz

def parseQueue (w : Nat) : Option QueueW :=
  let q : QueueW := ⟨bitsOf 121 3 w, bitsOf 120 1 w = 1, bitsOf 118 2 w, bitsOf 113 5 w, bitsOf 96 17 w,
    bitsOf 80 16 w, bitsOf 64 16 w, bitsOf 32 32 w⟩
  if bitsOf 124 4 w = 3 && q.scope != 7 && q.esz != 3 && q.ldepth ≤ 16 && q.free ≤ q.depth && decide (q.head < q.depth)
      && bitsOf 0 32 w = 0 && (q.scope != 6 || bitsOf 0 24 q.owner = 0) then some q
  else none
def QueueW.word (q : QueueW) : Nat :=
  3 * 2 ^ 124 + q.scope * 2 ^ 121 + b2n q.strict * 2 ^ 120 + q.esz * 2 ^ 118 + q.ldepth * 2 ^ 113 + q.free * 2 ^ 96
    + q.rej * 2 ^ 80 + q.head * 2 ^ 64 + q.owner * 2 ^ 32

/-- The hardware context a CTXID names (R164). -/
def cidOfCtxId (x : Nat) : Nat := bitsOf 11 7 x * 16 + bitsOf 2 2 x * 4 + bitsOf 0 2 x

/-! ### A word at its home (R289) -/

/-- The 128 bits at a place. -/
def wordRead (s : State) (word : Nat) (key : Option Nat) : Nat :=
  if 2 ^ 60 ≤ word then leNat ((List.range 16).map fun i => memByte s.spad (word - 2 ^ 60 + i))
  else leNat (physRead s word 16 key)
/-- Write them, in the order of the location's writes, with the shadow of a SHADOW region zeroed (R125). -/
def wordWrite (s : State) (agent vf word : Nat) (key : Option Nat) (shadow : List (Nat × Option Nat)) (v : Nat) : State :=
  if 2 ^ 60 ≤ word then { settleSpad s [word - 2 ^ 60] with spad := memWrite s.spad (word - 2 ^ 60) (leBytes 16 v) }
  else
    let s1 := pieceWrite { s with uid := s.uid + 1 } s.uid agent vf word (leBytes 16 v) (allOnes 16) key false
    shadow.foldl (fun st x => pieceWrite st s.uid agent vf x.1 [0] [true] x.2 false) s1
/-- The word of an operation takes a value. -/
def SOp.write (o : SOp) (s : State) (v : Nat) : State := wordWrite s o.cid o.vf o.word o.key o.shadow v

end Sys2Proof.Machine
end

