-- ==== Sys2Proof/Machine/Edges.lean ====
section
/-!
DEFINITION. What a launch pushes to its successors (16 R397, R400): edge entries on their way to the output queues.
-/
namespace Sys2Proof.Machine

/-- The number of the package scheduler as an agent. -/
def schedAgent : Nat := 2 ^ 67

/-- An edge entry (R397) in the row that a push carries. -/
def edgeRow (record : Nat) (early : Bool) (verdict now : Nat) : Row :=
  ⟨BitVec.ofNat 2048 (record / 64 % 2 ^ 50 * 64 + (if early then 4 else 0) + verdict % 4 + now % 2 ^ 64 * 2 ^ 64), 0, 0⟩

/-- One push on its way to an output queue, carrying writes at SYS scope; a queue that does not translate gets none. -/
def sendEdge (vf : Nat) (row : Row) (ws : List WRef) (s : State) (va : Nat) : State :=
  match devWord s schedAgent vf va with
  | some (t, sh) =>
    { s with
      uid := s.uid + 1
      sops := s.sops ++ [{
        id := s.uid, cid := schedAgent, pc := 0, op := .qPush ⟨0, false⟩ ⟨0, 0, 0, 0⟩, loc := BitVec.ofNat 64 va, word := t.pa,
        key := t.key, anchor := vf * 2 ^ 56 + va, vf := vf, n := 0, row := some row, carry := ws.map fun w => ⟨w, 6, schedAgent, 0, false⟩,
        answered := false, along := [], shadow := sh }] }
  | none => s

/-- The edge entries of a launch, one to each used output queue. -/
def pushEdges (s : State) (l : Launch) (early : Bool) (verdict : Nat) (ws : List WRef) : State :=
  l.outq.foldl (sendEdge l.fn (edgeRow l.record early verdict s.htime) ws) s

/-- Groups of a launch (R394). -/
def Launch.groups (l : Launch) : Nat := l.n * max 1 l.nmem

/-- A group has retired its first HINT.SUCC; once every group has, the successors may start early (R378, R400). -/
def hintGiven (s : State) (l : Launch) : State :=
  let h := l.hints + 1
  if h = l.groups then pushEdges (s.updLaunch l.id fun x => { x with hints := h, earlyEdges := true }) l true 0 []
  else s.updLaunch l.id fun x => { x with hints := h }

end Sys2Proof.Machine
end

