-- ==== Sys2Proof/Machine/Context.lean ====
section
/-!
DEFINITION. The context instructions TRAP, YIELD, SLEEP and END (13 R342, R343). RETT is in Rett.lean.
-/
namespace Sys2Proof.Machine

/-- What a task must not do (17 R415): the blocking-use fault. -/
def notInTask (s : State) : Op Unit := need s.cur.task.isNone 0x0C 2

/-- What follows the bundle's retirement. -/
def setAfter (s : State) (a : After) : State := s.updCur fun c => { c with iss := { c.iss with after := a } }

/-- TRAP: the trap is taken after the bundle retires. -/
def opTrap (f : XCF) (s : State) : Op State := .ok (setAfter s (.trap (f.ext.toNat % 65536)))

def opYield (_f : XCF) (s : State) : Op State := do
  notInTask s
  .ok (setAfter s .yield)

/-- SLEEP: the deadline D in harbour time. -/
def opSleep (f : XCF) (s : State) : Op State := do
  notInTask s
  let a ← rdS s 0 (f.ext.extractLsb' 43 5)
  let d := if f.ext.getLsbD 42 then a.val.toNat else (tileTime s (tileOf s.cur.cid) + a.val.toNat) % 2 ^ 64
  .ok (setAfter s (.sleep d))

/-- Whether the copy window holds an entry (R257). -/
def windowBusy (c : Ctx) : Bool := c.win.head != c.win.tail
/-- Whether M-slot operations of the context have not completed. -/
def arrayBusy (s : State) (c : Ctx) : Bool :=
  (s.tile (tileOf c.cid)).arr.any (fun o => o.cid = c.cid) || c.fl.any fun e => e.tkop.isSome
/-- The chain of a context: none, open or ending. -/
def chainOf (s : State) (c : Ctx) : Option Bool :=
  match (s.tile (tileOf c.cid)).chain with
  | some ch => if ch.owner = c.cid then some ch.ending else none
  | none => none

/-- END holds until the window, the array's tokens and an ending chain are done, as they stand before its bundle. -/
def opEndCtx (_f : XCF) (s : State) : Op State := do
  notInTask s
  if chainOf s s.cur = some false then trapOp 0x02 6
  else if windowBusy s.cur || arrayBusy s s.cur || chainOf s s.cur = some true then holdOp s .token
  else .ok (setAfter s .endCtx)

end Sys2Proof.Machine
end

