-- ==== Sys2Proof/Machine/Audit.lean ====
section
/-!
DEFINITION. The signature a selected group forms over what it writes outside its tile (19 R470).
-/
namespace Sys2Proof.Machine

/-- An element of precision `p` (8 for BF16, 24 for F32) with count `t` as the signature takes it. -/
def auditFloat (p bits t : Nat) : Nat :=
  let m := t - 2
  if m = 0 then 0 else bits - bits % 2 ^ (p - m)

/-- The hash of one element: its address and its encoding. -/
def auditHash (va : Nat) (enc : List Byte) : Word := Config.sipHash 0 (leBytes 8 va ++ enc)

/-- Elements, by address, join the signature of the context's run: of the original, or of its replay. -/
def auditAdd (s : State) (cid : Nat) (els : List (Nat × List Byte)) : State :=
  let add (x : Word) : Word := els.foldl (fun x e => x + auditHash e.1 e.2) x
  { s with audits := s.audits.map fun a =>
      if a.members.contains cid then { a with sig := add a.sig }
      else if a.twins.contains cid then { a with sig2 := add a.sig2 } else a }

/-- The float elements of a masked row with their counts, or its bytes one by one. -/
def auditRow (r : Row) (mask : List Bool) : List (Nat × List Byte) :=
  let p := fmtPrec (tagFmt r.tag)
  if p = 0 then ((List.range 256).filter fun i => mask.getD i false).map fun i => (i, [BitVec.ofNat 8 (r.val.toNat >>> (8 * i))])
  else
    let n := if p = 8 then 2 else 4
    ((rowLanes r).zipIdx.filter fun x => mask.getD (n * x.2) false).map fun x => (n * x.2, leBytes n (auditFloat p x.1.val x.1.cnt))

end Sys2Proof.Machine
end

