-- ==== Sys2Proof/Machine/Vector.lean ====
section
/-!
DEFINITION. Slots A and B, element by element (07 R173 to R183): integers, bits, comparisons, selection, floating point,
transcendentals, conversions, codebooks; and the mask operations (R193).
-/
namespace Sys2Proof.Machine

/-! ### Integer operations (R173) -/

/-- WID, SGN and SAT of mod (R167). -/
def vWid (f : VF) : Nat := f.mod.toNat % 4
def vBits (f : VF) : Nat := 8 * 2 ^ vWid f
def vSigned (f : VF) : Bool := !f.mod.getLsbD 2
def vSat (f : VF) : Bool := f.mod.getLsbD 3

/-- An exact result as a lane of an integer type (R88, R173). -/
def intLane (signed sat : Bool) (n : Nat) (x : Int) : Lane :=
  let y := if sat then clampI (intMin signed n) (intMax signed n) x else x
  ⟨wrapN n y, 0, if sat && y != x then flOF else 0⟩

/-- Element-wise on typed lanes. -/
def zip2 (g : Lane → Lane → Lane) : List Lane → List Lane → List Lane
  | a :: as, b :: bs => g a b :: zip2 g as bs
  | _, _ => []
def zip3 (g : Lane → Lane → Lane → Lane) : List Lane → List Lane → List Lane → List Lane
  | a :: as, b :: bs, c :: cs => g a b c :: zip3 g as bs cs
  | _, _, _ => []

/-- Two sources of one tag, element by element. -/
def vOp2 (f : VF) (inB : Bool) (cls : Nat) (tag : Byte) (chk : Bool) (g : Lane → Lane → Lane) (s : State) : Op State := do
  let a ← rdV s inB 0 f.a
  let b ← rdV s inB 1 f.b
  let la ← typed tag a
  let lb ← typed tag b
  putLanes s inB f cls tag (zip2 g la lb) chk
/-- Three sources of one tag. -/
def vOp3 (f : VF) (inB : Bool) (cls : Nat) (tag : Byte) (chk : Bool) (g : Lane → Lane → Lane → Lane) (s : State) : Op State := do
  let a ← rdV s inB 0 f.a
  let b ← rdV s inB 1 f.b
  let c ← rdV s inB 2 f.c
  let la ← typed tag a
  let lb ← typed tag b
  let lc ← typed tag c
  putLanes s inB f cls tag (zip3 g la lb lc) chk
/-- One source. -/
def vOp1 (f : VF) (inB : Bool) (cls : Nat) (tag : Byte) (chk : Bool) (g : Lane → Lane) (s : State) : Op State := do
  let a ← rdV s inB 0 f.a
  let la ← typed tag a
  putLanes s inB f cls tag (la.map g) chk

/-- An integer operation on elements read by SGN. -/
def vInt2 (f : VF) (inB : Bool) (op : Int → Int → Int) (s : State) : Op State :=
  let n := vBits f
  vOp2 f inB 4 (tagInt (vWid f)) false (fun a b =>
    intLane (vSigned f) (vSat f) n (op (readInt (vSigned f) n a.val) (readInt (vSigned f) n b.val))) s

def opVadd (inB : Bool) (f : VF) (s : State) : Op State := vInt2 f inB (· + ·) s
def opVsub (inB : Bool) (f : VF) (s : State) : Op State := vInt2 f inB (· - ·) s
def opVmul (inB : Bool) (f : VF) (s : State) : Op State := vInt2 f inB (· * ·) s
def opVmulh (inB : Bool) (f : VF) (s : State) : Op State := vInt2 f inB (fun a b => a * b / (2 ^ vBits f : Nat)) s
def opVmad (inB : Bool) (f : VF) (s : State) : Op State :=
  let n := vBits f
  let rd (x : Lane) := readInt (vSigned f) n x.val
  vOp3 f inB 4 (tagInt (vWid f)) false (fun a b c => intLane (vSigned f) (vSat f) n (rd a * rd b + rd c)) s
def opVmin (inB : Bool) (f : VF) (s : State) : Op State := vInt2 f inB (fun a b => if b < a then b else a) s
def opVmax (inB : Bool) (f : VF) (s : State) : Op State := vInt2 f inB (fun a b => if a < b then b else a) s
def opVabsdiff (inB : Bool) (f : VF) (s : State) : Op State := vInt2 f inB (fun a b => ((a - b).natAbs : Nat)) s

/-- Shifts by b mod n (R173). -/
def vShift (f : VF) (inB : Bool) (op : Nat → Nat → Nat) (s : State) : Op State :=
  let n := vBits f
  vOp2 f inB 4 (tagInt (vWid f)) false (fun a b => ⟨op a.val (b.val % n) % 2 ^ n, 0, 0⟩) s
def opVshl (inB : Bool) (f : VF) (s : State) : Op State := vShift f inB (fun a k => a <<< k) s
def opVshr (inB : Bool) (f : VF) (s : State) : Op State := vShift f inB (fun a k => a >>> k) s
def opVsar (inB : Bool) (f : VF) (s : State) : Op State :=
  vShift f inB (fun a k => wrapN (vBits f) (sextN (vBits f) a / (2 ^ k : Nat))) s
def opVpopc (inB : Bool) (f : VF) (s : State) : Op State :=
  vOp1 f inB 4 (tagInt (vWid f)) false (fun a => ⟨popN (vBits f) a.val, 0, 0⟩) s

/-! ### Bitwise operations (R173) -/

/-- A scalar spread over a row of a tag (R96, R173). -/
def spread (tag : Byte) (x : Scalar) : Row :=
  let n := fmtBits (tagFmt tag)
  let w := if n = 4 then 8 else n
  ⟨BitVec.ofNat 2048 (packN w (List.replicate (2048 / w) (x.val.toNat % 2 ^ w))), 0, tag⟩

/-- The first row source's tag; none supplies a row: illegal operand (R173, R175). -/
def firstTag (a b : Opd) : Op Byte :=
  match a, b with
  | .row r, _ => .ok r.tag
  | _, .row r => .ok r.tag
  | _, _ => trapOp 0x02 1
def bitsIn (tag : Byte) : Opd → RowBits
  | .row r => r.val
  | .scalar x => (spread tag x).val
  | .mask _ => 0

def vBit2 (f : VF) (inB : Bool) (op : RowBits → RowBits → RowBits) (s : State) : Op State := do
  let a ← rdV s inB 0 f.a
  let b ← rdV s inB 1 f.b
  let tag ← firstTag a b
  putRow s inB f 4 (bitRow tag (op (bitsIn tag a) (bitsIn tag b))) [] false
def opVand (inB : Bool) (f : VF) (s : State) : Op State := vBit2 f inB (· &&& ·) s
def opVor (inB : Bool) (f : VF) (s : State) : Op State := vBit2 f inB (· ||| ·) s
def opVxor (inB : Bool) (f : VF) (s : State) : Op State := vBit2 f inB (· ^^^ ·) s
def opVnot (inB : Bool) (f : VF) (s : State) : Op State := do
  let a ← rdVRow s inB 0 f.a
  putRow s inB f 4 (bitRow a.tag (~~~a.val)) [] false

/-! ### Comparison and selection (R174, R175, R178) -/

/-- Bits of a mask from a list of answers, bit 0 first. -/
def maskOf (l : List Bool) : Mask := BitVec.ofNat 128 (packN 1 (l.map fun b => if b then 1 else 0))
/-- Answers of adjacent pairs joined by AND. -/
def pairAnd : List Bool → List Bool
  | a :: b :: r => (a && b) :: pairAnd r
  | _ => []
/-- New bits where there are elements, kept where the mask disables them, 0 beyond the elements. -/
def maskResult (n : Nat) (new old k : Mask) : Mask :=
  ((new &&& k) ||| (old &&& ~~~k)) &&& BitVec.ofNat 128 (2 ^ n - 1)

def opVcmp (inB : Bool) (f : VF) (s : State) : Op State := do
  let tag := tagInt (vWid f)
  let a ← rdV s inB 0 f.a
  let b ← rdV s inB 1 f.b
  let la ← typed tag a
  let lb ← typed tag b
  let k ← rdK s f.k
  let old ← rdOldMask s f
  let n := vBits f
  let r := (la.zip lb).map fun x => cmpInt (f.c.toNat % 16) n (BitVec.ofNat n x.1.val) (BitVec.ofNat n x.2.val)
  let bits := if n = 8 then pairAnd r else r
  putMask s f (maskResult bits.length (maskOf bits) old k) 0

/-- FT of mod and the format it names (R167). -/
def vFp (f : VF) : Nat := if f.mod.getLsbD 2 then 8 else 24
def vFtag (f : VF) : Byte := if f.mod.getLsbD 2 then tagBF16 else tagF32
def vRm (f : VF) : BitVec 2 := f.mod.setWidth 2

def opVfcmp (inB : Bool) (f : VF) (s : State) : Op State := do
  let a ← rdV s inB 0 f.a
  let b ← rdV s inB 1 f.b
  let la ← typed (vFtag f) a
  let lb ← typed (vFtag f) b
  let k ← rdK s f.k
  let old ← rdOldMask s f
  let p := vFp f
  let r := (la.zip lb).map fun x => fCmp (f.c.toNat % 16) (fDec p x.1.val) (fDec p x.2.val)
  let fl := (numbered 0 (r.map fun x => ⟨0, 0, x.2⟩)).filter fun x => laneOn k (tagFmt (vFtag f)) x.1
  putMask s f (maskResult r.length (maskOf (r.map Prod.fst)) old k) (orFlags (fl.map Prod.snd))

/-- A source of VSEL as a row of a tag. -/
def asRow (tag : Byte) : Opd → Row
  | .row r => r
  | .scalar x =>
    let fmt := tagFmt tag
    if fmt = 7 || fmt = 8 then bitRow tag (spread tag x).val
    else rowOfLanes tag (List.replicate (laneCount fmt) (scalarLane fmt x))
  | .mask _ => Row.zero
def opVsel (inB : Bool) (f : VF) (s : State) : Op State := do
  let a ← rdV s inB 0 f.a
  let b ← rdV s inB 1 f.b
  let tag ← firstTag a b
  let k ← rdK s f.k
  if (asRow tag a).tag != tag || (asRow tag b).tag != tag then trapOp 0x03 0
  else putWhole s inB f 4 (mergeRows k (asRow tag a) (asRow tag b)) 0 none

/-! ### Floating point (R176, R177) -/

/-- A result with its count as a lane. -/
def fLane (r : FRes) (cnt : Nat) : Lane := ⟨r.bits, cnt, r.flags⟩
def vF2 (f : VF) (inB : Bool) (g : Nat → BitVec 2 → FVal → FVal → FRes) (k : Nat → FRes → TOp → TOp → Nat) (s : State) : Op State :=
  let p := vFp f
  vOp2 f inB 5 (vFtag f) true (fun a b =>
    let r := g p (vRm f) (a.op p).val (b.op p).val
    fLane r (k p r (a.op p) (b.op p))) s
def opVfadd (inB : Bool) (f : VF) (s : State) : Op State := vF2 f inB fAdd (fun p r a b => cntAdd p r [a, b]) s
def opVfsub (inB : Bool) (f : VF) (s : State) : Op State := vF2 f inB fSub (fun p r a b => cntAdd p r [a, b]) s
def opVfmul (inB : Bool) (f : VF) (s : State) : Op State := vF2 f inB fMul cntMul s
def opVffma (inB : Bool) (f : VF) (s : State) : Op State :=
  let p := vFp f
  vOp3 f inB 5 (vFtag f) true (fun a b c =>
    let r := fFma p (vRm f) (a.op p).val (b.op p).val (c.op p).val
    fLane r (cntFma p r (a.op p) (b.op p) (c.op p))) s
/-- The lesser or greater of two lanes (R177). -/
def minMaxLane (p : Nat) (isMax : Bool) (a b : Lane) : Lane :=
  let r := fMinMax p isMax a.val a.cnt b.val b.cnt
  ⟨r.1, r.2.1, r.2.2⟩
def opVfmin (inB : Bool) (f : VF) (s : State) : Op State := vOp2 f inB 5 (vFtag f) false (minMaxLane (vFp f) false) s
def opVfmax (inB : Bool) (f : VF) (s : State) : Op State := vOp2 f inB 5 (vFtag f) false (minMaxLane (vFp f) true) s
/-- A change of sign: a NaN gives the canonical quiet NaN with count 0 (R176). -/
def signLane (p : Nat) (g : Nat → Nat) (a : Lane) : Lane :=
  match fDec p a.val with
  | .nan sg => ⟨fQNaN p, 0, if sg then flNV else 0⟩
  | _ => ⟨g a.val, clampCount p a.val a.cnt, 0⟩
def opVfabs (inB : Bool) (f : VF) (s : State) : Op State :=
  vOp1 f inB 5 (vFtag f) false (signLane (vFp f) fun x => x % 2 ^ (vFp f + 7)) s
def opVfneg (inB : Bool) (f : VF) (s : State) : Op State :=
  vOp1 f inB 5 (vFtag f) false (signLane (vFp f) fun x => x ^^^ 2 ^ (vFp f + 7)) s

/-! ### Transcendentals (R179, R180) -/

def useFresh (s : State) : State := { s with fresh := s.fresh + 1 }

/-- The count of a lane's result. VSIGM of +inf is 1.0, and R113 takes the floor of its operand, which R108 gives to no infinity:
that count is a free value within the bound p − 2 (log 27). -/
def transCount (p : Nat) (op : TransOp) (free : Byte) (r : FRes) (a : TOp) : Nat :=
  match op, a.val with
  | .sigm, .inf false => min free.toNat (p - 2)
  | _, _ => cntTrans p op r a

/-- One lane; the choice within the error bound is a free value (log 7). -/
def transLane (p : Nat) (op : TransOp) (n : Nat) (x : Nat × Lane) : Lane :=
  let r := fTrans p op (Config.transPick n x.1) (x.2.op p).val
  fLane r (transCount p op (Config.freeByte n x.1) r (x.2.op p))
def vTrans (f : VF) (inB : Bool) (op : TransOp) (s : State) : Op State := do
  let a ← rdV s inB 0 f.a
  let la ← typed (vFtag f) a
  putLanes (useFresh s) inB f 6 (vFtag f) ((numbered 0 la).map (transLane (vFp f) op s.fresh)) true
def opVrcp (inB : Bool) (f : VF) (s : State) : Op State := vTrans f inB .rcp s
def opVrsqrt (inB : Bool) (f : VF) (s : State) : Op State := vTrans f inB .rsqrt s
def opVexp2 (inB : Bool) (f : VF) (s : State) : Op State := vTrans f inB .exp2 s
def opVlog2 (inB : Bool) (f : VF) (s : State) : Op State := vTrans f inB .log2 s
def opVsigm (inB : Bool) (f : VF) (s : State) : Op State := vTrans f inB .sigm s

/-! ### Conversions (R181 to R183) -/

/-- One element converted (R87): formats by FMT, signedness of source and destination, SAT, rounding. -/
def cvtLane (sf df : Nat) (ssgn dsgn sat : Bool) (rm : BitVec 2) (x : Lane) : Lane :=
  let sp := fmtPrec sf
  let dp := fmtPrec df
  let dn := fmtBits df
  if sp = 0 then
    let v := readInt ssgn (fmtBits sf) x.val
    if dp = 0 then
      if sat && decide (dn < fmtBits sf) then intLane dsgn true dn v else ⟨wrapN dn v, 0, 0⟩
    else
      let r := intToF dp rm v
      fLane r dp
  else
    let v := fDec sp x.val
    if dp = 0 then
      let r := fToInt rm dsgn dn v
      ⟨r.1, 0, r.2⟩
    else if dp = sp then signLane sp id x
    else
      let r := fToF dp rm v
      fLane r (cntCvt dp r (x.op sp))

/-- Whether a tag is one VCVT takes (R181). -/
def cvtSource (tag : Byte) : Bool := tagPw tag = 0 && 1 ≤ tagFmt tag && tagFmt tag ≤ 6

def opVcvt (inB : Bool) (f : VF) (s : State) : Op State := do
  let a ← rdVRow s inB 0 f.a
  if !cvtSource a.tag then trapOp 0x03 0
  else
    let sf := tagFmt a.tag
    let df := f.c.toNat % 16
    let ns := laneCount sf
    let nd := laneCount df
    let m := min ns nd
    let part := bitsOf 7 3 f.c.toNat
    if max ns nd / m ≤ part then trapOp 0x02 8
    else
      let src := ((rowLanes a).drop (if m < ns then part * m else 0)).take m
      let l := src.map (cvtLane sf df (!f.c.getLsbD 5) (!f.c.getLsbD 4) (f.c.getLsbD 6) (vRm f))
      putPart s inB f 7 (BitVec.ofNat 8 df) (if m < nd then part * m else 0) l (sf != df)

/-- The codebook entry of a code (R91). -/
def cbEntry (cb : Codebook) (code : Nat) : Nat := (cb.entries.toList.getD code 0).toNat

def opVcbdec (inB : Bool) (f : VF) (s : State) : Op State := do
  let a ← rdVRow s inB 0 f.a
  if a.tag != tagCB4 || !s.cur.cb.valid then trapOp 0x03 0
  else
    let part := bitsOf 7 3 f.c.toNat
    let l := (((rowLanes a).drop (128 * part)).take 128).map fun x =>
      let e := cbEntry s.cur.cb x.val
      (⟨e, clampCount 8 e s.cur.cb.trust, 0⟩ : Lane)
    putLanes s inB f 7 tagBF16 l true

/-- The distance of two finite values at a common unit. -/
def fDist (a b : FVal) : Option Nat :=
  match a, b with
  | .num n1 m1 e1, .num n2 m2 e2 => some ((sAt (-133) n1 m1 e1 - sAt (-133) n2 m2 e2).natAbs)
  | _, _ => none
/-- The lowest index with the least distance (R183). -/
def nearest (x : FVal) : List (Nat × FVal) → Option (Nat × Nat)
  | [] => none
  | (i, e) :: r =>
    match fDist x e, nearest x r with
    | some d, some (j, dj) => if d ≤ dj then some (i, d) else some (j, dj)
    | some d, none => some (i, d)
    | none, rest => rest
/-- A finite value of the sign of an infinity, beyond every finite entry. -/
def farValue (neg : Bool) : FVal := .num neg 1 200

/-- The code chosen for one BF16 value, and its flags (R183); `free` where no entry can be chosen. DESIGN CHOICE: an infinity, in a
table that holds no equal one and nothing finite, takes the lowest-numbered entry that is no NaN (log 12); a NaN given a NaN entry of another payload,
and a zero given an entry that is a zero of the other sign, do not count as differing from the value for NX (log 97). -/
def encodeCb (cb : Codebook) (free : Nat) (x : Nat) : Lane :=
  let v := fDec 8 x
  let es := (List.range 16).map fun i => (i, fDec 8 (cbEntry cb i))
  let sig : Flags := if v.isSig then flNV else 0
  let byNear (y : FVal) (extra : Flags) : Lane :=
    match nearest y es with
    | some (i, _) => ⟨i, 0, if fEq v (fDec 8 (cbEntry cb i)) then extra else extra ||| flNX⟩
    | none =>
      match es.find? fun e => !e.2.isNan with
      | some (i, _) => ⟨i, 0, extra ||| flNX⟩
      | none => ⟨free % 16, 0, extra ||| flNX⟩
  match v with
  | .num _ _ _ => byNear v 0
  | .inf n =>
    (match es.find? fun e => e.2 = .inf n with
     | some (i, _) => ⟨i, 0, 0⟩
     | none => byNear (farValue n) 0)
  | .nan _ =>
    (match es.find? fun e => e.2.isNan with
     | some (i, _) => ⟨i, 0, sig⟩
     | none => ⟨0, 0, sig ||| flNV ||| flNX⟩)

def opVcbenc (inB : Bool) (f : VF) (s : State) : Op State := do
  let a ← rdVRow s inB 0 f.a
  if a.tag != tagBF16 || !s.cur.cb.valid then trapOp 0x03 0
  else
    let part := bitsOf 7 3 f.c.toNat
    let l := (numbered 0 (rowLanes a)).map fun x => encodeCb s.cur.cb (Config.freeNat (s.fresh + x.1)) x.2.val
    putPart { s with fresh := s.fresh + 128 } inB f 7 tagCB4 (128 * part) l false

/-! ### Mask operations (R193) -/

def opK2 (f : VF) (g : Mask → Mask → Mask) (s : State) : Op State := do
  let a ← rdKOperand s 0 (f.a.setWidth 3)
  let b ← rdKOperand s 1 (f.b.setWidth 3)
  putMask s f (g a b) 0
def opKand (_inB : Bool) (f : VF) (s : State) : Op State := opK2 f (· &&& ·) s
def opKor (_inB : Bool) (f : VF) (s : State) : Op State := opK2 f (· ||| ·) s
def opKnot (_inB : Bool) (f : VF) (s : State) : Op State := do
  let a ← rdKOperand s 0 (f.a.setWidth 3)
  putMask s f (~~~a) 0
def opKpopc (_inB : Bool) (f : VF) (s : State) : Op State := do
  let a ← rdKOperand s 0 (f.a.setWidth 3)
  putScalar s f 14 ⟨BitVec.ofNat 64 (popN 128 a.toNat), 24⟩ 0 none

end Sys2Proof.Machine
end

