-- ==== Sys2Proof/Machine/MemAccess.lean ====
section
/-!
DEFINITION. Slots L and W at issue (08 R194 to R221, 05 R119 to R130, 17 R412, R413): addresses, the scratchpad, the push
of load entries, stores and atomics on their way, prefetch and drop.
-/
namespace Sys2Proof.Machine

/-! ### Addresses (R194) -/

def eaOf (s : State) (f : MXF) (useIndex : Bool) : Op Word := do
  let b ← rdS s 1 f.base
  let off : Word := f.off.signExtend 64
  if useIndex && f.index != 0 then do
    let i ← rdS s 2 f.index
    .ok (b.val + i.val + off)
  else .ok (b.val + off)

/-! ### The scratchpad (R196 to R199) -/

/-- Offset into the allocation, its low bits cleared for an access of `n` bytes (R197). -/
def spadAddr (c : Ctx) (ea : Word) (n : Nat) : Nat :=
  let a := ea.toNat % (c.bind.banks * 2 ^ 18)
  if n = 256 then a - a % 16 else a - a % n

/-- The tile with the scratchpad accounts of the cycle in which the context issues now (R198, R199). -/
def cycleTile (s : State) (c : Ctx) : Tile :=
  let t := s.tile (tileOf c.cid)
  if t.spCyc = cycNow s c then t
  else { t with spCyc := cycNow s c, spLog := [], spOps := [], spUndo := [], spNow := [], spReq := [], spRot := t.bankRot }

/-- In which order a bank whose pointer stands at `p` serves the lines its requesters need, one line a turn, and where its pointer
then stands (R198). A request is its core, or engine, and the line. -/
def serveOrder : Nat → Nat → List (Nat × Nat) → List (Nat × Nat) × Nat
  | 0, p, _ => ([], p)
  | n + 1, p, l =>
    match (List.range 6).findSome? fun i => l.find? fun x => x.1 = (p + i) % 6 with
    | none => ([], p)
    | some x =>
      let r := serveOrder n ((x.1 + 1) % 6) (l.erase x)
      (x :: r.1, r.2)
/-- The requests of a cycle to one bank. -/
def bankReqs (l : List (Nat × Nat × Nat)) (b : Nat) : List (Nat × Nat) := (l.filter fun y => y.1 = b).map Prod.snd
/-- The turns of one bank in a cycle. -/
def bankTurns (rot : Vector Nat 32) (l : List (Nat × Nat × Nat)) (b : Nat) : List (Nat × Nat) × Nat :=
  serveOrder (bankReqs l b).length (rot.toList.getD b 0) (bankReqs l b)

/-- The lines an access needs go to the bundle's account, and each bank's rotation pointer moves behind the last of the
turns of this cycle (R198). DESIGN CHOICE: a core's lines of one bank are served in the order of its slots and of their addresses
(log 22). -/
def needLines (s : State) (c : Ctx) (a n : Nat) : State :=
  let lines := ((List.range 3).map fun i => a / 128 + i).filter fun l => l * 128 < a + n
  let use := lines.map fun l => (c.bankOf (l * 128), c.spadOff (l * 128) / 128)
  let t := cycleTile s c
  let req := t.spReq ++ use.map fun x => (x.1, coreOf c.cid, x.2)
  let rot := use.foldl (fun v x => v.setIfInBounds x.1 (bankTurns t.spRot req x.1).2) t.bankRot
  let s1 := s.setTile { t with spReq := req, bankRot := rot }
  s1.updCur fun d => { d with iss := { d.iss with lines := d.iss.lines ++ use } }

/-! ### Accesses performed ahead with the bundle's answered operation (11 R290, 12 R317) -/

/-- The accesses of the bundle in issue that have been performed with its answered operation, or at its group's barrier. -/
def wentOf (s : State) : List Went :=
  (match s.cur.wait with
   | some p => p.went
   | none => [])
  ++ (s.groups.filter fun g => g.id = s.cur.bind.group).flatMap fun g =>
    (g.went.filter fun x => x.1 = s.cur.cid).map Prod.snd
/-- Whether an access belongs to slot L. -/
def Along.loads (a : Along) : Bool :=
  match a with
  | .glob g => !g.writes
  | .spad l => l.mask.isEmpty
def wentLoad (s : State) : Option Went := (wentOf s).find? fun w => w.op.loads
def wentStore (s : State) : Option Went := (wentOf s).find? fun w => !w.op.loads
/-- The bundle's access is noted for its answered operation. -/
def noteAlong (s : State) (a : Along) : State := s.updCur fun c => { c with iss := { c.iss with along := c.iss.along ++ [a] } }

/-- The places of the bytes of an access. -/
def spadKeys (c : Ctx) (a n : Nat) : List Nat := (List.range n).map fun i => spadKey (tileOf c.cid) (c.spadOff (a + i))

/-- A posting operation of the context on a scratchpad word that an access of `n` bytes touches is still on its way: the
access waits for it (11 R290). -/
def wordPending (s : State) (c : Ctx) (a n : Nat) : Op Unit :=
  if s.sops.any fun o => o.cid = c.cid && !o.answered && (List.range n).any fun i =>
      o.word ≤ spadPlace (spadKey (tileOf c.cid) (c.spadOff (a + i)))
        && spadPlace (spadKey (tileOf c.cid) (c.spadOff (a + i))) < o.word + 16
  then holdOp s .stall else .ok ()

/-- Whether byte `a` of the allocation lies in the ring of a stream register that is bound (R250). -/
def inRing (s : State) (c : Ctx) (a : Nat) : Bool :=
  let n := c.bind.banks * 2 ^ 18
  s.allCtx.any fun x => x.bind.group = c.bind.group && tileOf x.cid = tileOf c.cid
    && x.win.q.toList.any fun b => b.valid && (a % n + n - b.ring * 256 % n) % n < 2048
/-- What a core sees in a byte of a bound ring: unspecified data (R250), for each tile, cycle and byte its own. -/
def ringFree (s : State) (c : Ctx) (a : Nat) : Byte := Config.freeByte s.fresh ((cycNow s c * 128 + tileOf c.cid) * 2 ^ 23 + a)

/-- What a load that issues now finds in the piece of a scratchpad byte, and the write it returns: a copy's write that is not visible to
it may not have reached it yet (R318, R320; 21 R490). How far it goes back is free. -/
def spadSeen (s : State) (c : Ctx) (k : Nat) : List Byte × Option Nat :=
  let p := spadPiece k
  let at_ := 16 * (k / 16)
  let stop (w : WRec) : Bool := look p c.view.lastRead = some w.id
    || visibleTo c.view c.view.acqs.length c.view.known.length c.moorings c.bind.vf (spadVa at_) 16 w.id
  goBack p c.bind.vf none 0 16 stop (memRead s.spad at_ 16) (Config.stalePick s.fresh (cycNow s c * 2 ^ 80 + p)) s.hist
/-- The byte of it. -/
def spadByte (s : State) (c : Ctx) (k : Nat) : Byte := if s.hist.any (fun w => w.piece = spadPiece k) then (spadSeen s c k).1.getD (k % 16) 0 else memByte s.spad k
/-- A load remembers which writes it returned of these places (R320). -/
def noteSpad (s : State) (ks : List Nat) : State :=
  let got := ((ks.map spadPiece).eraseDups.filter fun p => s.hist.any fun w => w.piece = p).filterMap fun p =>
    ((spadSeen s s.cur (16 * (p - 2 ^ 60))).2).map fun w => (p, w)
  if got.isEmpty then s
  else s.updCur fun c => { c with view := { c.view with lastRead := got.foldl (fun l g => put g.1 g.2 l) c.view.lastRead } }

/-- A byte as a load that issues now sees it: stores of this same cycle are not seen (R199). -/
def loadByte (s : State) (c : Ctx) (a : Nat) : Byte :=
  if bankReleased s c a then 0
  else if inRing s c a then ringFree s c a
  else
    let k := spadKey (tileOf c.cid) (c.spadOff a)
    let t := s.tile (tileOf c.cid)
    match (if t.spCyc = cycNow s c then look k t.spLog else none) with
    | some b => b
    | none => spadByte s c k
def loadBytes (s : State) (c : Ctx) (a n : Nat) : List Byte := (List.range n).map fun i => loadByte s c (a + i)

/-! ### Rows and scalars from memory (R211, 05 R121, R127) -/

/-- A row of a tag from 256 bytes and the count of each element. -/
def loadedRow (tag : Byte) (bytes : List Byte) (cnt : Nat → Nat) : Row :=
  let v := BitVec.ofNat 2048 (leNat bytes)
  let p := fmtPrec (tagFmt tag)
  if p = 0 then bitRow tag v
  else rowOfLanes tag ((numbered 0 (rowLanes ⟨v, 0, tag⟩)).map fun x => { x.2 with cnt := clampCount p x.2.val (cnt x.1) })
/-- A scalar of `n` bytes; a 32-bit one counts as an FP32 element (R211). -/
def loadedScalar (n : Nat) (sx : Bool) (bytes : List Byte) (cnt : Nat) : Scalar :=
  let v := leNat bytes
  ⟨extend sx (8 * n) v, if n = 4 then BitVec.ofNat 5 (clampCount 24 v cnt) else 24⟩
/-- The tag of a loaded row: FMT, with PW from PLANEW for PL (R211). -/
def loadTag (c : Ctx) (mod : BitVec 4) : Byte := if mod.toNat = 8 then tagPL (planeW c) else mod.setWidth 8

/-! ### Scratchpad loads and stores -/

/-- What a load of the bundle finds. -/
def ldsBytes (s : State) (c : Ctx) (a n : Nat) : List Byte :=
  match wentLoad s with
  | some w => w.old
  | none => loadBytes s c a n
/-- A scratchpad load on its lines. -/
def ldsFrom (s : State) (a n : Nat) : State := noteAlong (noteSpad (needLines s s.cur a n) (spadKeys s.cur a n)) (.spad ⟨spadKeys s.cur a n, [], [], none⟩)

def opLdsRow (f : MXF) (s : State) : Op State := do
  let ea ← eaOf s f true
  let a := spadAddr s.cur ea 256
  wordPending s s.cur a 256
  let tag := loadTag s.cur f.mod
  let d ← dstRow s 26 f.data
  let r := loadedRow tag (ldsBytes s s.cur a 256) fun _ => 24
  .ok (emit (ldsFrom s a 256) 10 [.row d r] (.row r) 0 none)
/-- A scalar scratchpad load (R210). -/
def ldsScalar (f : MXF) (n : Nat) (s : State) : Op State := do
  let ea ← eaOf s f true
  let a := spadAddr s.cur ea n
  wordPending s s.cur a n
  let x := loadedScalar n (f.mod.getLsbD 0) (ldsBytes s s.cur a n) 24
  .ok (emit (ldsFrom s a n) 10 [.scalar (f.data.setWidth 5) x] (.scalar x) 0 none)
def opLdsW32 (f : MXF) (s : State) : Op State := ldsScalar f 4 s
def opLdsW64 (f : MXF) (s : State) : Op State := ldsScalar f 8 s

/-! ### Read-modify-write (R217, R220) -/

/-- The new value of a `w`-bit location: 0 ADD, 1 MIN, 2 MAX, 3 AND, 4 OR, 5 XOR, 6 XCHG, 7 CAS, 8 FADD. -/
def atomNew (op : Nat) (sgn : Bool) (w : Nat) (old x cmp : Nat) : Nat :=
  match op with
  | 0 => (old + x) % 2 ^ w
  | 1 => if readInt sgn w x < readInt sgn w old then x else old
  | 2 => if readInt sgn w old < readInt sgn w x then x else old
  | 3 => old &&& x
  | 4 => old ||| x
  | 5 => old ^^^ x
  | 6 => x
  | 7 => if old = cmp then x else old
  | _ => (fAdd 24 0 (fDec 24 old) (fDec 24 x)).bits

/-- Operation, signedness and width of SATOM's mod (R220). -/
def satomKind (m : Nat) : Nat × Bool × Nat :=
  match m with
  | 0 => (0, false, 4)
  | 1 => (0, false, 8)
  | 2 => (1, true, 4)
  | 3 => (2, true, 4)
  | 4 => (1, false, 4)
  | 5 => (2, false, 4)
  | 6 => (1, true, 8)
  | 7 => (2, true, 8)
  | 8 => (3, false, 8)
  | 9 => (4, false, 8)
  | 10 => (5, false, 8)
  | 11 => (6, false, 4)
  | 12 => (6, false, 8)
  | _ => (8, false, 4)

/-! ### Scratchpad stores of one cycle (R198, R199) -/

/-- What an access writes over the bytes it finds. -/
def LOp.over (l : LOp) (old : List Byte) : List Byte :=
  match l.atom with
  | some (op, sgn, n, x) => leBytes n (atomNew op sgn (8 * n) (leNat old) x 0)
  | none => l.bytes
/-- An access performed on the bytes at places that satisfy `p`: the memory after it and what it found. -/
def LOp.perform (l : LOp) (p : Nat → Bool) (m : List Host.Cell) : List Host.Cell × List Byte :=
  let old := l.keys.map fun k => memByte m k
  (((l.keys.zip (l.over old)).zip l.mask).foldl (fun m x => if x.2 && p x.1.1 then memWrite m x.1.1 [x.1.2] else m) m, old)
/-- Whether two accesses share a byte that both write. -/
def LOp.meets (a b : LOp) : Bool := (a.keys.zip a.mask).any fun x => x.2 && (b.keys.zip b.mask).any fun y => y.2 && x.1 = y.1

/-- The bank a place lies in. -/
def spadBank (k : Nat) : Nat := k % 2 ^ 23 / 2 ^ 18
/-- Banks serve an access of the copy engine (4) or the array (5) to these places: their pointers move past it (R198). -/
def bankServed (s : State) (who : Nat) (keys : List Nat) : State :=
  ((keys.map fun k => k / 2 ^ 18).eraseDups).foldl (fun st b =>
    let t := st.tile (b / 32)
    st.setTile { t with bankRot := t.bankRot.setIfInBounds (b % 32) ((who + 1) % 6) }) s
/-- One bank serves the accesses of a cycle, each line at its core's turn for it (R198, R199): the memory, and what each access found
there. -/
def serveBank (rot : Vector Nat 32) (req : List (Nat × Nat × Nat)) (l : List SpOp) (acc : List Host.Cell × List (SpOp × List Byte))
    (b : Nat) : List Host.Cell × List (SpOp × List Byte) :=
  ((bankTurns rot req b).1.reverse.eraseDups.reverse).foldl (fun a x =>
    let here (k : Nat) : Bool := k % 2 ^ 23 / 128 = x.2
    (l.filter fun o => o.core = x.1 && o.op.keys.any here).foldl (fun a o =>
      let r := o.op.perform here a.1
      (r.1, (o, r.2) :: a.2)) a) acc
/-- The accesses of a cycle, bank by bank. -/
def serveBanks (rot : Vector Nat 32) (req : List (Nat × Nat × Nat)) (l : List SpOp) (m : List Host.Cell) :
    List Host.Cell × List (SpOp × List Byte) :=
  ((l.flatMap fun o => o.op.keys.map spadBank).eraseDups).foldl (serveBank rot req l) (m, [])

/-- What SATOM delivers of the bytes it found. -/
def satomResult (l : LOp) (old : List Byte) : Scalar :=
  match l.atom with
  | some (_, sgn, n, _) => ⟨extend (sgn && n = 4) (8 * n) (leNat old), 24⟩
  | none => ⟨extend false (8 * old.length) (leNat old), 24⟩
/-- A SATOM of the cycle delivers another value, since another core's access was served before it. -/
def SpOp.redeliver (o : SpOp) (old : List Byte) (s : State) : State :=
  match o.dst with
  | none => s
  | some d => s.updCtx o.cid fun c => { c with fl := c.fl.map fun e =>
      if e.seq = o.seq && e.slot = 5 then { e with res := [.scalar d (satomResult o.op old)] } else e }

/-- The bytes an access replaces, remembered behind those already remembered. -/
def LOp.remember (l : LOp) (m : List Host.Cell) (g : List (Nat × Byte)) : List (Nat × Byte) :=
  (l.keys.zip l.mask).foldl (fun g x => if x.2 && (look x.1 g).isNone then (x.1, memByte m x.1) :: g else g) g

/-- A store or SATOM that issues now. The bytes it replaces are kept for the loads of this cycle; where another access of the
cycle writes a byte of it, all of the cycle are performed in the order in which the banks serve them (R198, R199). A write of an
engine to bytes they have written stands between those before it and those after it (R220). -/
def spadStore (s : State) (c : Ctx) (l : LOp) (dst : Option (BitVec 5)) : State × List Byte :=
  let t := cycleTile s c
  let o : SpOp := ⟨coreOf c.cid, c.cid, c.seq, l, dst⟩
  let split := t.spNow.any fun x => memByte s.spad x.1 != x.2
  let ops := if split then [] else t.spOps
  let undo := if split then [] else t.spUndo
  let back := undo.foldl (fun m x => memWrite m x.1 [x.2]) s.spad
  let r : List Host.Cell × List (SpOp × List Byte) :=
    if ops.any fun x => x.op.meets l then serveBanks t.spRot t.spReq (ops ++ [o]) back
    else
      let r := l.perform (fun _ => true) s.spad
      (r.1, [(o, r.2)])
  let undo1 := l.remember back undo
  let s1 := { (settleSpad s l.keys).setTile { t with
    spLog := l.remember back t.spLog, spOps := ops ++ [o], spUndo := undo1, spNow := undo1.map fun x => (x.1, memByte r.1 x.1) } with spad := r.1 }
  (r.2.foldl (fun st x => if x.1 = o then st else x.1.redeliver x.2 st) s1, ((r.2.find? fun x => x.1 = o).map Prod.snd).getD [])

/-- A store that issues now, unless it has been performed with the bundle's answered operation; what falls into a released
bank is discarded (R377). -/
def storeBytes (s : State) (c : Ctx) (a : Nat) (bytes : List Byte) (mask : List Bool) : State :=
  let l : LOp := ⟨spadKeys c a bytes.length, bytes, (List.range bytes.length).map fun i =>
    mask.getD i false && !bankReleased s c (a + i), none⟩
  if (wentStore s).isSome then s else noteAlong (spadStore s c l none).1 (.spad l)

/-! ### Scratchpad stores -/

/-- Which bytes of a row a mask enables (R94, R213). -/
def byteMask (k : Mask) (fmt : Nat) : List Bool :=
  (List.range 256).map fun b => if fmt = 7 || fmt = 8 then k.getLsbD (b / 2) else laneOn k fmt (8 * b / fmtBits fmt)
/-- The masked bytes of a row store (R213). -/
def rowStore (s : State) (f : MXF) : Op (Row × List Bool) := do
  let r ← rdRowSrc s 27 0 f.data
  let k ← rdK s (f.mod.setWidth 3)
  if tagFmt r.tag = 8 && f.mod.toNat % 8 != 0 then trapOp 0x03 0
  else .ok (r, byteMask k (tagFmt r.tag))
def rowBytes (r : Row) : List Byte := leBytes 256 r.val.toNat

def opStsRow (f : MXF) (s : State) : Op State := do
  let ea ← eaOf s f true
  let a := spadAddr s.cur ea 256
  wordPending s s.cur a 256
  let x ← rowStore s f
  .ok (storeBytes (needLines s s.cur a 256) s.cur a (rowBytes x.1) x.2)
def stsScalar (f : MXF) (n : Nat) (s : State) : Op State := do
  let ea ← eaOf s f true
  let a := spadAddr s.cur ea n
  wordPending s s.cur a n
  let x ← rdScalarSrc s 0 f.data
  .ok (storeBytes (needLines s s.cur a n) s.cur a (leBytes n x.val.toNat) (allOnes n))
def opStsW32 (f : MXF) (s : State) : Op State := stsScalar f 4 s
def opStsW64 (f : MXF) (s : State) : Op State := stsScalar f 8 s

/-! ### SATOM (R220) -/

/-- What SATOM finds where it does not find the memory: a released bank reads as zero (R377); the ring of a bound stream register
holds unspecified data (R250). -/
def satomFinds (s : State) (c : Ctx) (a n : Nat) : Option (List Byte) :=
  if bankReleased s c a then some (List.replicate n 0)
  else if inRing s c a then some ((List.range n).map fun i => ringFree s c (a + i)) else none
/-- SATOM's access, with the low bytes of its operand; a released bank keeps nothing (R377). -/
def satomOp (s : State) (c : Ctx) (a : Nat) (k : Nat × Bool × Nat) (x : Word) : LOp :=
  let n := k.2.2
  let arg := x.toNat % 2 ^ (8 * n)
  match satomFinds s c a n with
  | some old => ⟨spadKeys c a n, leBytes n (atomNew k.1 k.2.1 (8 * n) (leNat old) arg 0), List.replicate n !bankReleased s c a, none⟩
  | none => ⟨spadKeys c a n, [], allOnes n, some (k.1, k.2.1, n, arg)⟩

def opSatom (f : MXF) (s : State) : Op State := do
  let ea ← eaOf s f false
  let x ← rdScalarSrc s 0 f.data
  let k := satomKind f.mod.toNat
  let n := k.2.2
  let a := spadAddr s.cur ea n
  wordPending s s.cur a n
  let l := satomOp s s.cur a k x.val
  let s1 := needLines s s.cur a n
  let r := match wentStore s with
    | some w => (s1, w.old)
    | none => (let y := spadStore s1 s.cur l (if l.atom.isSome then some f.index else none)
               (noteAlong y.1 (.spad l), y.2))
  let old := (satomFinds s s.cur a n).getD r.2
  .ok (emit r.1 10 [.scalar f.index ⟨extend (k.2.1 && n = 4) (8 * n) (leNat old), 24⟩] .invalid 0 none)

/-! ### Global accesses at issue (R205, R206) -/

/-- Translate every page of an access: a miss stalls the bundle until the walk completes, a fault is precise (R205). -/
def trAccess (s : State) (need : Need) (va n : Nat) : Op (List (Nat × Nat × Tr)) :=
  match trRun s s.cur.cid s.cur.bind.vf need va n with
  | .ok l => .ok l
  | .error (.fault sub addr) => trapAt 0x07 sub addr
  | .error (.miss page) => holdOp (startWalk s s.cur.cid s.cur.bind.vf page (dieOf s.cur.cid)) .stall

/-- An aligned global address (R195, R206). -/
def globalAddr (ea : Word) (align : Nat) : Op Nat :=
  if bitsOf 56 8 ea.toNat != 0 then trapAt 0x07 1 ea.toNat
  else if ea.toNat % align != 0 then trapAt 0x04 0 ea.toNat
  else .ok ea.toNat

/-- The data parts of an access (R207). -/
def dataParts (va0 : Nat) (runs : List (Nat × Nat × Tr)) : List Part :=
  runs.flatMap fun x => (piecesOf x.2.2.pa x.2.1).map fun p => ⟨p.1, p.2, (x.1 - va0) + (p.1 - x.2.2.pa), false, x.2.2.key⟩

/-- Size of the elements of a SHADOW region (R122). -/
def twSize (t : Word) : Nat := if twWid t = 0 then 2 else 4
/-- First shadow byte and number of the elements that `n` bytes at `va` touch (R122, R125). -/
def shadowRun (t : Tr) (va n : Nat) : Nat × Nat :=
  let sz := twSize t.tagw
  (twBase t.tagw + (va - t.base) / sz, (va + n - 1 - t.base) / sz - (va - t.base) / sz + 1)
/-- The shadow parts of a run; `off0` numbers its first element in the counts. -/
def shadowParts (s : State) (need : Need) (x : Nat × Nat × Tr) (off0 : Nat) : Op (List Part) := do
  let r := shadowRun x.2.2 x.1 x.2.1
  let runs ← trAccess s need r.1 r.2
  .ok ((dataParts r.1 runs).map fun p => { p with off := p.off + off0, sh := true })

/-! ### Loads (R200, R201, R210) -/

/-- The counts a load starts with, per run, and its shadow parts (R121, R123): `esz` is the size of a float element, 0
for a load that gives no count. -/
def loadCounts (s : State) (esz p : Nat) (demand : Bool) (va0 : Nat) :
    List (Nat × Nat × Tr) → Op (List Byte × List Part)
  | [] => .ok ([], [])
  | x :: r => do
    let m := twMode x.2.2.tagw
    if demand && m != 2 then trapAt 0x08 0 x.1
    else if esz = 0 then loadCounts s esz p demand va0 r
    else if m = 2 && twSize x.2.2.tagw != esz then trapAt 0x08 0 x.1
    else do
      let n := x.2.1 / esz
      let here : Byte := BitVec.ofNat 8 (if m = 0 then p else if m = 1 then min (twFix x.2.2.tagw) p else 0)
      let parts ← (if m = 2 then shadowParts s .r x ((x.1 - va0) / esz) else .ok [])
      let rest ← loadCounts s esz p demand va0 r
      .ok (List.replicate n here ++ rest.1, parts ++ rest.2)

/-- The lines of parts (R412). -/
def partLines (l : List Part) : List Nat := l.flatMap fun p => linesOf p.pa p.len
/-- Lines of the loads a context has on their way. -/
def loadLines (s : State) (cid : Nat) : List Nat :=
  (s.gops.filter fun g => g.agent = cid && !g.writes).flatMap fun g => partLines g.parts
/-- Whether a load must wait for the frontier: its read set would exceed 128 lines (R413). -/
def readSetFull (s : State) (parts : List Part) : Bool :=
  speculative s.cur &&
    (match s.taskOf s.cur with
     | some t => 128 < (t.rset ++ loadLines s s.cur.cid ++ partLines parts).eraseDups.length
     | none => false)

/-- What a task's own buffer holds of the bytes of parts (R412). -/
def ownBytes (s : State) (parts : List Part) (sh : Bool) (off0 : Nat) : List (Nat × Byte) :=
  match s.taskOf s.cur with
  | none => []
  | some t => (parts.filter fun p => p.sh = sh).flatMap fun p =>
    (List.range p.len).filterMap fun i => (bufByte t.buf (p.pa + i)).map fun b => (off0 + p.off + i, b)

/-- An entry pushed for an access that has been performed ahead. -/
def wentEntry (w : Went) (isRow : Bool) : LdEntry :=
  ⟨match w.op with
   | .glob g => g.id
   | .spad _ => 0, isRow, w.val.map Prod.fst, false, w.val.any Prod.snd⟩
/-- A context's own write, as releases carry it. -/
def GOp.ref (g : GOp) : WRef := ⟨g.id, g.vf, g.va, g.len⟩

/-- The domain and the task a context runs. -/
def taskId (c : Ctx) : Option (Nat × Nat) := c.task.map fun r => (r.dom, r.seq)

/-- Push a load entry and send its access (R200, R205). The overlay numbers shadow bytes after the data. -/
def sendLoad (s : State) (va n : Nat) (kind : Nat → GKind) (isRow : Bool) (cnts : List Byte) (parts : List Part) : State :=
  let id := s.uid
  let c := s.cur
  let g : GOp := {
    id := id, agent := c.cid, vf := c.bind.vf, va := va, len := n, kind := kind id, moors := c.moorings,
    nAcq := c.view.acqs.length, nKnown := c.view.known.length, parts := parts, data := List.replicate n 0, cnts := cnts,
    overlay := ownBytes s parts false 0 ++ ownBytes s parts true n, poison := false, shBytes := [], shMask := []
    task := taskId c }
  match wentLoad s with
  | some w => s.updCur fun c => { c with ldq := c.ldq ++ [wentEntry w isRow] }
  | none => noteAlong { s with
      uid := id + 1
      gops := s.gops ++ [g]
      cur := { c with ldq := c.ldq ++ [⟨id, isRow, none, false, false⟩] } } (.glob g)

/-- A global load. -/
def ldgOp (f : MXF) (n align esz p : Nat) (demand isRow : Bool) (kind : Nat → GKind) (s : State) : Op State := do
  let ea ← eaOf s f true
  if 32 ≤ s.cur.ldq.length then holdOp s (.wait .ldqRoom)
  else do
    let va ← globalAddr ea align
    let runs ← trAccess s .r va n
    let c ← loadCounts s esz p demand va runs
    let parts := dataParts va runs ++ c.2
    if readSetFull s parts then holdOp s .stall
    else .ok (sendLoad s va n kind isRow c.1 parts)

/-- Element size and precision of a loaded row's counts (R121). -/
def rowEsz (tag : Byte) : Nat := if tag = tagBF16 then 2 else if tag = tagF32 then 4 else 0
def opLdgRow (f : MXF) (s : State) : Op State :=
  let tag := loadTag s.cur f.mod
  ldgOp f 256 16 (rowEsz tag) (fmtPrec (tagFmt tag)) false true (fun i => .loadRow i tag) s
def opLdgW32 (f : MXF) (s : State) : Op State :=
  ldgOp f 4 4 4 24 false false (fun i => .loadScalar i 4 (f.mod.getLsbD 0)) s
def opLdgW64 (f : MXF) (s : State) : Op State := ldgOp f 8 8 0 24 false false (fun i => .loadScalar i 8 false) s
/-- LDG.TAG (R126, R210). -/
def opLdgTag (f : MXF) (s : State) : Op State :=
  if f.mod = 0 then ldgOp f 4 4 4 24 true false (fun i => .loadScalar i 4 false) s
  else
    let tag : Byte := f.mod.setWidth 8
    ldgOp f 256 16 (rowEsz tag) (fmtPrec (tagFmt tag)) true true (fun i => .loadRow i tag) s

/-- PFG has no architectural effect (R215). -/
def opPfg (_f : MXF) (s : State) : Op State := .ok s

/-- LDQ.DROP (R216). DEDUCED: the test of n counts the entries present before the bundle, those that its own pops remove
among them; the entries dropped are the ones behind these (R37; log 21). -/
def opLdqDrop (f : MXF) (s : State) : Op State :=
  let n := f.off.toNat
  if s.cur.ldq.length < n then trapOp 0x02 3
  else .ok (s.updCur fun c => { c with iss := { c.iss with drop := n } })

/-! ### Stores (R212 to R214) -/

/-- Shadow parts, bytes and mask of a store, per run (R124, R125): `tagged` is the size and the count of each element of
a tagged store. -/
def storeShadow (s : State) (need : Need) (mask : List Bool) (tagged : Option (Nat × List Nat)) (va0 off0 : Nat) :
    List (Nat × Nat × Tr) → Op (List Part × List Byte × List Bool)
  | [] => .ok ([], [], [])
  | x :: r => do
    let m := twMode x.2.2.tagw
    let bad := match tagged with
      | some (sz, _) => m != 2 || twSize x.2.2.tagw != sz
      | none => false
    if bad then trapAt 0x08 0 x.1
    else if m != 2 then storeShadow s need mask tagged va0 off0 r
    else do
      let sr := shadowRun x.2.2 x.1 x.2.1
      let sz := twSize x.2.2.tagw
      let first := (x.1 - x.2.2.base) / sz
      let on (e : Nat) : Bool := (List.range sz).any fun b =>
        let a := x.2.2.base + (first + e) * sz + b
        x.1 ≤ a && a < x.1 + x.2.1 && mask.getD (a - va0) false
      let val (e : Nat) : Byte := match tagged with
        | some (_, cnts) => BitVec.ofNat 8 (cnts.getD ((x.1 - va0) / sz + e) 0)
        | none => 0
      let parts ← shadowParts s need x off0
      let rest ← storeShadow s need mask tagged va0 (off0 + sr.2) r
      .ok (parts ++ rest.1, (List.range sr.2).map val ++ rest.2.1, (List.range sr.2).map on ++ rest.2.2)

/-- The parts whose bytes are written at all. -/
def livePart (mask shMask : List Bool) (p : Part) : Bool :=
  (((if p.sh then shMask else mask).drop p.off).take p.len).any fun b => b

/-- Put parts into a task's buffer (R412). -/
def bufParts (b : List BufByte) (bytes shBytes : List Byte) (mask shMask : List Bool) (parts : List Part) : List BufByte :=
  parts.foldl (fun l p =>
    bufPut l p.pa p.key (((if p.sh then shBytes else bytes).drop p.off).take p.len)
      (((if p.sh then shMask else mask).drop p.off).take p.len)) b

/-- A store sets off: into the buffer of a speculative task, else toward memory (R214, R412, R413). -/
def sendStore (s : State) (va : Nat) (bytes : List Byte) (mask : List Bool) (sh : List Part × List Byte × List Bool)
    (runs : List (Nat × Nat × Tr)) : Op State :=
  let c := s.cur
  let parts := (dataParts va runs ++ sh.1).filter (livePart mask sh.2.2)
  if parts.isEmpty then .ok s
  else if speculative c then
    match s.taskOf c, c.task with
    | some t, some r =>
      let b := bufParts t.buf bytes sh.2.1 mask sh.2.2 parts
      if 64 < (bufLines b).length then holdOp s .stall
      else .ok (s.updTask r.dom r.seq fun u => { u with buf := b, bufAt := if u.buf.isEmpty then s.uid else u.bufAt })
    | _, _ => .ok s
  else
    let id := s.uid
    let g : GOp := {
      id := id, agent := c.cid, vf := c.bind.vf, va := va, len := bytes.length, kind := .store bytes mask,
      moors := [], nAcq := 0, nKnown := 0, parts := parts, data := [], cnts := [], overlay := [], poison := false,
      shBytes := sh.2.1, shMask := sh.2.2, task := taskId c }
    match wentStore s with
    | some ⟨.glob h, _, _⟩ => .ok (s.updCur fun c => { c with view := { c.view with own := h.ref :: c.view.own } })
    | _ => .ok (noteAlong { s with
        uid := id + 1
        gops := s.gops ++ [g]
        cur := { c with view := { c.view with own := g.ref :: c.view.own } } } (.glob g))

/-- A global store of masked bytes; `els` are its elements, by offset, as an audit's signature takes them (19 R470). -/
def stgOp (s : State) (ea : Word) (align : Nat) (bytes : List Byte) (mask : List Bool) (tagged : Option (Nat × List Nat))
    (els : List (Nat × List Byte)) : Op State := do
  let va ← globalAddr ea align
  let runs ← trAccess s .w va bytes.length
  let sh ← storeShadow s .w mask tagged va 0 runs
  let t ← sendStore s va bytes mask sh runs
  .ok (auditAdd t s.cur.cid (els.map fun e => (va + e.1, e.2)))

def opStgRow (f : MXF) (s : State) : Op State := do
  let ea ← eaOf s f true
  let x ← rowStore s f
  stgOp s ea 16 (rowBytes x.1) x.2 none (auditRow x.1 x.2)
def stgScalar (f : MXF) (n : Nat) (s : State) : Op State := do
  let ea ← eaOf s f true
  let x ← rdScalarSrc s 0 f.data
  stgOp s ea n (leBytes n x.val.toNat) (allOnes n) none [(0, leBytes n x.val.toNat)]
def opStgW32 (f : MXF) (s : State) : Op State := stgScalar f 4 s
def opStgW64 (f : MXF) (s : State) : Op State := stgScalar f 8 s

/-- STG.TAG (R124, R213). DESIGN CHOICE: a latch or load entry that turns out to be a scalar is stored whole whatever mask the form
names, which R212 gives as 0 for a scalar (log 98). -/
def opStgTag (f : MXF) (s : State) : Op State := do
  let ea ← eaOf s f true
  let v ← rdSel s 27 0 f.data
  match v with
  | .scalar x =>
    let n := clampCount 24 (x.val.toNat % 2 ^ 32) x.cnt.toNat
    let enc := leBytes 4 (auditFloat 24 (x.val.toNat % 2 ^ 32) n)
    stgOp s ea 4 (leBytes 4 x.val.toNat) (allOnes 4) (some (4, [n])) [(0, enc)]
  | .row r => do
    let k ← rdK s (f.mod.setWidth 3)
    if r.tag != tagBF16 && r.tag != tagF32 then trapOp 0x03 0
    else
      let mask := byteMask k (tagFmt r.tag)
      stgOp s ea 16 (rowBytes r) mask (some (rowEsz r.tag, (rowLanes r).map Lane.cnt)) (auditRow r mask)
  | .mask _ => trapOp 0x02 1

/-! ### Atomics (R217 to R219) -/

/-- What an atomic carries to its home beside its operands: the shadow it zeroes, which an ATOM.FADD that answers with the
shadow's count reads too (R122, R218). -/
def atomShadow (s : State) (op n va : Nat) (ret : Bool) (runs : List (Nat × Nat × Tr)) : Op (List Part × List Byte × List Bool) := do
  if runs.any fun x => op = 8 && twMode x.2.2.tagw = 2 && twWid x.2.2.tagw = 0 then trapAt 0x08 0 va
  else storeShadow s (if op = 8 && ret then .rw else .w) (allOnes n) none va 0 runs

/-- The count an atomic's old value carries where no shadow gives it (R121, R218). -/
def atomCount (op : Nat) (runs : List (Nat × Nat × Tr)) : Nat :=
  match runs with
  | x :: _ => if op = 8 && twMode x.2.2.tagw = 1 then min (twFix x.2.2.tagw) 24 else 24
  | [] => 24

def atomOp (op : Nat) (f : MXF) (s : State) : Op State := do
  let ea ← eaOf s f (op != 7)
  let x ← rdScalarSrc s 0 f.data
  let cmp ← (if op = 7 then rdS s 2 f.index else .ok ⟨0, 24⟩)
  let wide := f.mod.getLsbD 0
  let n := if wide then 8 else 4
  let ret := f.mod.getLsbD 3
  if ret && 32 ≤ s.cur.ldq.length then holdOp s (.wait .ldqRoom)
  else do
    let va ← globalAddr ea n
    let runs ← trAccess s .rw va n
    if runs.any (fun t => paRegion t.2.2.pa = 1) && op != 0 && op != 6 && op != 7 then trapAt 0x09 0 va
    else do
      let sh ← atomShadow s op n va ret runs
      if speculative s.cur then holdOp s .stall
      else
        let id := s.uid
        let c := s.cur
        let g : GOp := {
          id := id, agent := c.cid, vf := c.bind.vf, va := va, len := n,
          kind := .atomic op (f.mod.getLsbD 2) wide x.val cmp.val (if ret then some id else none),
          moors := [], nAcq := 0, nKnown := 0, parts := dataParts va runs ++ sh.1, data := [],
          cnts := [BitVec.ofNat 8 (atomCount op runs)], overlay := [], poison := false,
          shBytes := sh.2.1, shMask := sh.2.2, task := taskId c }
        match wentStore s with
        | some ⟨.glob h, v, o⟩ => .ok (s.updCur fun c => { c with
            ldq := if ret then c.ldq ++ [wentEntry ⟨.glob h, v, o⟩ false] else c.ldq
            view := { c.view with own := h.ref :: c.view.own } })
        | _ => .ok (noteAlong { s with
            uid := id + 1
            gops := s.gops ++ [g]
            cur := { c with
              ldq := if ret then c.ldq ++ [⟨id, false, none, false, false⟩] else c.ldq
              view := { c.view with own := g.ref :: c.view.own } } } (.glob g))

def opAtomAdd (f : MXF) (s : State) : Op State := atomOp 0 f s
def opAtomMin (f : MXF) (s : State) : Op State := atomOp 1 f s
def opAtomMax (f : MXF) (s : State) : Op State := atomOp 2 f s
def opAtomAnd (f : MXF) (s : State) : Op State := atomOp 3 f s
def opAtomOr (f : MXF) (s : State) : Op State := atomOp 4 f s
def opAtomXor (f : MXF) (s : State) : Op State := atomOp 5 f s
def opAtomXchg (f : MXF) (s : State) : Op State := atomOp 6 f s
def opAtomCas (f : MXF) (s : State) : Op State := atomOp 7 f s
def opAtomFadd (f : MXF) (s : State) : Op State := atomOp 8 f s

end Sys2Proof.Machine
end

