-- ==== Sys2Proof/Machine/MemEvents.lean ====
section
/-!
DEFINITION. What happens to a global access after its issue (08 R200, R207, R208, R219, 12 R318, R320, 05 R130, 17 R412,
R416, 18 R437): pieces performed at their homes, atomics, load entries returned, walks completed. An event that has
nothing to act on leaves the machine as it is.
-/
namespace Sys2Proof.Machine

/-- The outcome of an event: one tick passes (log 4). -/
def evNext (s : State) : Host.Outcome State Fault Refusal := .next s.tick

/-! ### Reading a part (R320) -/

/-- Size of the elements whose counts a load reads in its shadow parts (R122). -/
def GOp.esz (g : GOp) : Nat :=
  match g.kind with
  | .loadRow _ tag => rowEsz tag
  | .loadScalar _ n _ => n
  | _ => 1
/-- The bytes of the access that a part stands for: of a shadow part, those of the elements it counts (R130, R318). -/
def GOp.span (g : GOp) (p : Part) : Nat × Nat := if p.sh then (g.va + p.off * g.esz, p.len * g.esz) else (g.va + p.off, p.len)

/-- Bytes of a part as an agent reads them (R320, R412). -/
def readPart (s : State) (g : GOp) (p : Part) (pick : Nat) : List Byte × Option Nat :=
  let c := s.ctx g.agent
  let piece := p.pa / 16
  let now := physRead s (16 * piece) 16 p.key
  let last := look piece c.view.lastRead
  let stop (w : WRec) : Bool :=
    w.agent = g.agent || last = some w.id || visibleTo c.view g.nAcq g.nKnown g.moors g.vf (g.span p).1 (g.span p).2 w.id
  let r := goBack piece g.vf p.key (p.pa % 16) p.len stop now (if c.task.isSome then 0 else pick) s.hist
  ((r.1.drop (p.pa % 16)).take p.len, r.2)

/-! ### Performing a piece -/

/-- An earlier access of the same agent that must be performed first: one to bytes of the part where either writes (R208), and of two
loads one to the same piece, so that the later never returns an earlier write (R320). -/
def blockedBy (l : List GOp) (g : GOp) (p : Part) : Bool :=
  match l with
  | [] => false
  | x :: r =>
    if x.id = g.id then false
    else (x.agent = g.agent && x.parts.any fun q =>
      if x.writes || g.writes then q.touches p.pa p.len else q.pa / 16 = p.pa / 16) || blockedBy r g p

/-- A sync operation of the same agent on the word a part touches that must be performed first (11 R290). -/
def syncBefore (s : State) (g : GOp) (p : Part) : Bool :=
  s.sops.any fun o => o.cid = g.agent && o.id < g.id && p.touches o.word 16

/-- Put bytes at a place of a string. -/
def putBytes (l : List Byte) (off : Nat) (b : List Byte) : List Byte := l.take off ++ b ++ l.drop (off + b.length)
/-- Put single bytes at their places. -/
def overlayBytes (l : List Byte) (ov : List (Nat × Byte)) : List Byte := ov.foldl (fun a x => a.set x.1 x.2) l

/-- The value of a finished load: poison delivers unspecified data with count 0 (R209, R211), but for the bytes that a task's own
buffer supplies (R412). -/
def loadValue (s : State) (g : GOp) : Option (Nat × LdVal) :=
  let n := g.data.length
  let all := overlayBytes ((if g.poison then (List.range n).map (Config.freeByte s.fresh) else g.data) ++ g.cnts) g.overlay
  let data := all.take n
  let cnt (j : Nat) : Nat := if g.poison then 0 else ((all.drop n).getD j 0).toNat % 32
  match g.kind with
  | .loadRow ent tag => some (ent, .row (loadedRow tag data cnt))
  | .loadScalar ent k sx =>
    let x := loadedScalar k sx data (cnt 0)
    some (ent, .scalar (if g.poison then { x with cnt := 0 } else x))
  | _ => none

/-- Fill a load entry. -/
def fillEntry (c : Ctx) (ent : Nat) (v : LdVal) (poison : Bool) : Ctx :=
  { c with ldq := c.ldq.map fun e => if e.id = ent then { e with val := some v, poison := poison } else e }

/-- Remember which write a read returned (R320). -/
def noteRead (c : Ctx) (piece : Nat) (w : Option Nat) : Ctx :=
  match w with
  | some id => { c with view := { c.view with lastRead := put piece id c.view.lastRead } }
  | none => c

/-- The task an agent's access belongs to, with its domain. -/
def agentTask (s : State) (agent : Nat) : Option (Nat × Task) :=
  match (s.ctx agent).task with
  | some r => (s.taskOf (s.ctx agent)).map fun t => (r.dom, t)
  | none => none

/-- A speculative load's lines enter the read set in the act that performs it (R412). -/
def noteLines (s : State) (agent : Nat) (p : Part) : State :=
  match agentTask s agent with
  | some (d, t) =>
    if speculative (s.ctx agent) then
      s.updTask d t.seq fun u => { u with rset := (linesOf p.pa p.len).foldl (fun l x => if l.contains x then l else x :: l) u.rset }
    else s
  | none => s

/-- A frontier task's direct write passes the line watch (R414, R416). -/
def watchDirect (s : State) (g : GOp) (p : Part) : State :=
  match g.task with
  | some (d, q) => (match (s.dom d).bind fun x => x.task q with
    | some t => watchWrite s d t (linesOf p.pa p.len)
    | none => s)
  | none => s

/-- Whether a part reads poison: of its bytes those that a task's own buffer supplies do not count (R412). -/
def readsPoison (s : State) (g : GOp) (p : Part) : Bool :=
  let own (i : Nat) : Bool := g.overlay.any fun x => x.1 = (if p.sh then g.data.length else 0) + p.off + i
  (List.range p.len).any fun i => !own i && physPoison s (p.pa + i) 1

/-- A piece of a load is read: the machine and the access after it. -/
def readStep (s : State) (g : GOp) (i : Nat) (p : Part) (pick : Nat) : State × GOp :=
  let r := readPart s g p pick
  let g1 := { g with
    parts := g.parts.eraseIdx i
    data := if p.sh then g.data else putBytes g.data p.off r.1
    cnts := if p.sh then putBytes g.cnts p.off r.1 else g.cnts
    poison := g.poison || readsPoison s g p }
  let s1 := noteLines (s.updCtx g.agent fun c => noteRead c (p.pa / 16) r.2) g.agent p
  ({ (noteCorrected s1 g.agent p.pa p.len) with fresh := s1.fresh + 1 }, g1)

/-- A piece of a load is performed. -/
def performRead (s : State) (g : GOp) (i : Nat) (p : Part) (pick : Nat) : State :=
  let r := readStep s g i p pick
  let s2 := r.1
  let g1 := r.2
  if g1.parts.isEmpty then
    match loadValue s2 g1 with
    | some (ent, v) =>
      { logDatum s2 g.agent .access g.id (.entry v g1.poison) with gops := s2.gops.filter fun x => x.id != g.id, fresh := s2.fresh + 1 }.updCtx g.agent
        fun c => fillEntry c ent v g1.poison
    | none => s2
  else { s2 with gops := s2.gops.map fun x => if x.id = g.id then g1 else x }

/-- The bytes of one part of a store are written: one write in the total order (R207, R208). -/
def writePart (s : State) (g : GOp) (p : Part) (bytes : List Byte) (mask : List Bool) : State :=
  let b := ((if p.sh then g.shBytes else bytes).drop p.off).take p.len
  let m := ((if p.sh then g.shMask else mask).drop p.off).take p.len
  watchDirect (pieceWrite s g.id g.agent g.vf p.pa b m p.key false) g p
/-- A piece of a store is performed. -/
def performWrite (s : State) (g : GOp) (i : Nat) (p : Part) (bytes : List Byte) (mask : List Bool) : State :=
  let s1 := writePart s g p bytes mask
  let rest := g.parts.eraseIdx i
  { s1 with gops :=
      if rest.isEmpty then s1.gops.filter fun x => x.id != g.id
      else s1.gops.map fun x => if x.id = g.id then { g with parts := rest } else x }

/-- The bytes that an atomic leaves where `old` stood. -/
def atomicNew (k : Nat) (sgn wide : Bool) (x cmp : Word) (old : Nat) : List Byte :=
  let w := if wide then 64 else 32
  leBytes (w / 8) (atomNew k sgn w old (x.toNat % 2 ^ w) (cmp.toNat % 2 ^ w))

/-- What a replay's access does in place of being performed (19 R469): a load takes its entry from the log, an atomic the value it found,
and an atomic's element joins the signature; nothing is read or written. -/
def replayTake (s : State) (a : Audit) (g : GOp) : State × Option (LdVal × Bool) :=
  match g.kind with
  | .store _ _ => (s, none)
  | .atomic k sgn wide x cmp _ =>
    (match takeDatum s a g.agent .access with
     | (t, some (.old w v bad)) => (auditAdd t g.agent [(g.va, atomicNew k sgn wide x cmp w)], some (.scalar v, bad))
     | (t, _) => (t, none))
  | _ =>
    (match takeDatum s a g.agent .access with
     | (t, some (.entry v bad)) => (t, some (v, bad))
     | (t, _) => (t, none))
/-- Whether an access of a replay is the oldest of its context: it takes the log's data in the order of issue. -/
def oldestAccess (s : State) (g : GOp) : Bool := !(s.gops.any fun x => x.agent = g.agent && decide (x.id < g.id))
/-- The load entry an access fills. -/
def GOp.entry (g : GOp) : Option Nat :=
  match g.kind with
  | .loadRow e _ => some e
  | .loadScalar e _ _ => some e
  | .atomic _ _ _ _ _ e => e
  | .store _ _ => none
/-- The next access of a replay's context. -/
def replayAccess (s : State) (a : Audit) (g : GOp) : State :=
  if !oldestAccess s g then s
  else
    let r := replayTake s a g
    let t := { r.1 with gops := r.1.gops.filter fun x => x.id != g.id }
    match g.entry, r.2 with
    | some e, some (v, bad) => t.updCtx g.agent fun c => fillEntry c e v bad
    | _, _ => t

/-- GLOBAL_ACCESS_PERFORMED: piece `i` of access `op` is performed at its home. -/
def execGlobalAccessPerformed (op piece pick : Nat) (s : State) : Host.Outcome State Fault Refusal :=
  match s.gops.find? fun g => g.id = op with
  | none => evNext s
  | some g =>
    match g.parts[piece]? with
    | none => evNext s
    | some p =>
      match replayFor s g.agent with
      | some a => evNext (replayAccess s a g)
      | none =>
      if blockedBy s.gops g p || syncBefore s g p then evNext s
      else match g.kind with
      | .store bytes mask => evNext (performWrite s g piece p bytes mask)
      | .atomic .. => evNext s
      | _ => evNext (performRead s g piece p pick)

/-- What an atomic does at its home (R217 to R219): one indivisible act in the total order of the location; the machine, the
value it delivers and whether that is poisoned. -/
def atomicAct (s : State) (g : GOp) (p : Part) (k : Nat) (sgn wide : Bool) (x cmp : Word) : State × Scalar × Bool :=
  let w := if wide then 64 else 32
  let bad := physPoison s p.pa p.len
  let old := leNat (physRead s p.pa p.len p.key)
  let new := atomicNew k sgn wide x cmp old
  let shadow := g.parts.filter fun q => q.sh
  let cnt := (match shadow with
    | q :: _ => if k = 8 then ((physRead s q.pa 1 q.key).getD 0 0).toNat % 32 else 24
    | [] => (g.cnts.getD 0 24).toNat)
  let s1 := pieceWrite (noteCorrected s g.agent p.pa p.len) g.id g.agent g.vf p.pa new (allOnes p.len) p.key bad
  let s2 := shadow.foldl (fun st q =>
    pieceWrite st g.id g.agent g.vf q.pa ((g.shBytes.drop q.off).take q.len) ((g.shMask.drop q.off).take q.len) q.key false) s1
  let s3 := auditAdd (g.parts.foldl (fun st q => watchDirect st g q) s2) g.agent [(g.va, new)]
  let v : Scalar :=
    if bad then ⟨Config.freeWord s3.fresh, 0⟩
    else ⟨extend (sgn && !wide && (k = 1 || k = 2)) w old,
      if k = 8 then BitVec.ofNat 5 (clampCount 24 old cnt) else 24⟩
  ({ logDatum s3 g.agent .access g.id (.old old v bad) with fresh := s3.fresh + 1 }, v, bad)

/-- A task that has ended finishes with its last atomic (17 R424). -/
def lastAtom (s : State) (cid : Nat) : State :=
  if (s.ctx cid).status = .blocked .atoms && !atomsLeft s cid then finishTask s cid else s

/-- ATOMIC_AT_HOME. -/
def execAtomicAtHome (op : Nat) (s : State) : Host.Outcome State Fault Refusal :=
  match s.gops.find? fun g => g.id = op with
  | none => evNext s
  | some g =>
    match g.kind with
    | .atomic k sgn wide x cmp ent =>
      match replayFor s g.agent with
      | some a => evNext (replayAccess s a g)
      | none =>
      if g.parts.any fun p => blockedBy s.gops g p || syncBefore s g p then evNext s
      else match g.parts.filter fun p => !p.sh with
      | [] => evNext s
      | p :: _ =>
        let r := atomicAct s g p k sgn wide x cmp
        let s4 := { r.1 with gops := r.1.gops.filter fun y => y.id != g.id }
        match ent with
        | some e => evNext (lastAtom (s4.updCtx g.agent fun c => fillEntry c e (.scalar r.2.1) r.2.2) g.agent)
        | none => evNext (lastAtom s4 g.agent)
    | _ => evNext s

/-! ### Accesses performed together with an answered operation (11 R290, 12 R317) -/

/-- All pieces of a load. -/
def readAll : Nat → State → GOp → State × GOp
  | 0, s, g => (s, g)
  | n + 1, s, g =>
    match g.parts with
    | [] => (s, g)
    | p :: _ =>
      let r := readStep s g 0 p 0
      readAll n r.1 r.2

/-- An access of slot L or W performed whole, just before the answered operation of its bundle. -/
def performAlong (s : State) (a : Along) : State × Went :=
  match a with
  | .spad l =>
    let r := l.perform (fun _ => true) s.spad
    ({ (if l.mask.isEmpty then s else settleSpad s l.keys) with spad := r.1 }, ⟨a, none, r.2⟩)
  | .glob g =>
    match replayFor s g.agent with
    | some x => (let r := replayTake s x g
                 (r.1, ⟨a, r.2, []⟩))
    | none =>
    match g.kind with
    | .store bytes mask => (g.parts.foldl (fun st p => writePart st g p bytes mask) s, ⟨a, none, []⟩)
    | .atomic k sgn wide x cmp _ =>
      (match g.parts.filter fun p => !p.sh with
       | [] => (s, ⟨a, none, []⟩)
       | p :: _ =>
         let r := atomicAct s g p k sgn wide x cmp
         (r.1, ⟨a, some (.scalar r.2.1, r.2.2), []⟩))
    | _ =>
      let r := readAll g.parts.length s g
      let v := (loadValue r.1 r.2).map fun v => (v.2, r.2.poison)
      let t := match v with
        | some x => logDatum r.1 g.agent .access g.id (.entry x.1 x.2)
        | none => r.1
      ({ t with fresh := r.1.fresh + 1 }, ⟨a, v, []⟩)
/-- All of them, in their order. -/
def performAll (s : State) : List Along → State × List Went
  | [] => (s, [])
  | a :: r =>
    let x := performAlong s a
    let y := performAll x.1 r
    (y.1, x.2 :: y.2)

/-- Whether an earlier access of the same context keeps such an access from being performed (R208, R290). -/
def alongWaits (s : State) (a : Along) : Bool :=
  match a with
  | .glob g => if isReplay s g.agent then !oldestAccess s g else g.parts.any fun p => blockedBy s.gops g p || syncBefore s g p
  | .spad _ => false
/-- Whether such an access touches a sync word at a place. -/
def Along.onWord (a : Along) (word : Nat) : Bool :=
  match a with
  | .glob g => g.parts.any fun p => p.touches word 16
  | .spad l => l.keys.any fun k => word ≤ spadPlace k && spadPlace k < word + 16
/-- The writes of global memory among such accesses, as releases carry them. -/
def alongRefs (l : List Along) : List WRef :=
  l.filterMap fun a => match a with
    | .glob g => if g.writes then some g.ref else none
    | .spad _ => none

/-! ### Load entries return in push order (R200) -/

/-- The oldest entry that has not returned returns, if its data has come. -/
def returnEntry : List LdEntry → List LdEntry
  | [] => []
  | e :: r => if e.returned then e :: returnEntry r else if e.val.isSome then { e with returned := true } :: r else e :: r

/-- LOAD_ENTRY_RETURN. -/
def execLoadEntryReturn (c : Nat) (s : State) : Host.Outcome State Fault Refusal :=
  evNext (s.updCtx c fun x => { x with ldq := returnEntry x.ldq })

/-! ### Walks (R435 to R437) -/

/-- PAGE_WALK_COMPLETE: a translation found is cached, a fault is kept for those that wait for it (log 12). -/
def execPageWalkComplete (w : Nat) (s : State) : Host.Outcome State Fault Refusal :=
  match s.walks.find? fun x => x.id = w with
  | none => evNext s
  | some x =>
    if !x.started then evNext s
    else
      let left := s.walks.filter fun y => y.id != w
      let s1 := { s with walks := startFree ((left.filter Walk.started).map Walk.die) left, fresh := s.fresh + 1 }
      match walkPage s x.vf x.page with
      | .ok (level, e) =>
        let t : TlbEntry := ⟨x.vf, x.page / 2 ^ (9 * level), level, e⟩
        evNext { s1 with tlb := if s1.tlb.contains t then s1.tlb else t :: s1.tlb }
      | .error sub => evNext { s1 with walkFaults := x.waiters.map (fun a => ⟨a, x.vf, x.page, sub⟩) ++ s1.walkFaults }

end Sys2Proof.Machine
end

