-- ==== Sys2Proof/Machine/SyncHome.lean ====
section
/-!
DEFINITION. What happens to sync and queue operations at their homes (11 R289 to R305, 12 R325, 16 R386 to R391, R519):
the arrival of an operation, registrations served in order, answers, sector posts.
-/
namespace Sys2Proof.Machine

/-! ### Answers (R291, R293) -/

/-- An answer's number: 0 false, 1 success, 2 sync kind, 3 scratchpad target, 4 scope rejection, 7 translation (its SUB and
address in the data). A peer is sent the number, the data and the row's bytes. -/
def answerOp (s : State) (o : SOp) (code data : Nat) (row : Option Row) (acq : Option Acq) : State :=
  { s with
    sops := s.sops.filter fun x => x.id != o.id
    syncRegs := s.syncRegs.filter fun x => x.id != o.id
    dev := if o.answered && isPeer o.cid then
        { s.dev with reply := some (BitVec.ofNat 8 code :: (leBytes 8 data ++ (match row with
          | some r => leBytes 256 r.val.toNat
          | none => [])), false) } else s.dev
    answers := if o.answered && o.cid < 2 ^ 64 then s.answers ++ [⟨o.id, o.cid, code, data, row, acq, []⟩] else s.answers }

/-- What a successful acquire on the word brings its context (R316, R318). -/
def acqOf (s : State) (o : SOp) : Acq := acquired s o.cid o.anchor (relsOf s o.word)
/-- A success that acquires. -/
def succeed (s : State) (o : SOp) : State := answerOp s o 1 0 none (some (acqOf s o))

/-- A misuse is counted in STICKY7 of the issuing context (R293). -/
def misuse (s : State) (cid : Nat) : State := if cid < 2 ^ 64 then s.updCtx cid fun c => bumpCount c 7 1 else s

/-- A posting operation is discarded, an answered one answered with a fault (R293). -/
def misfit (s : State) (o : SOp) (code : Nat) : State :=
  if o.answered then answerOp s o code 0 none none else misuse (answerOp s o code 0 none none) o.cid

/-! ### Queue rings (R384, R388, R519) -/

/-- Outcome of reaching a ring entry. -/
inductive RingRes where
  | ok (s : State) (bytes : List Byte) (bad : Bool)
  | miss (s : State)
  | fault (sub addr : Nat)
  | target
  deriving DecidableEq, Repr

/-- The scratchpad bytes of an entry, which wrap in the run that holds the word (R384): `none` for a global ring, an empty
list where no allocation holds the word. -/
def ringSpad (s : State) (o : SOp) (off n : Nat) : Option (List Nat) :=
  match parseLoc o.loc with
  | .here a => some ((List.range n).map fun i => spadKey (tileOf o.cid) ((s.ctx o.cid).spadOff (a + off + i)))
  | .remote t a => some (if targetOk s o.cid t a 16 then (List.range n).map fun i => ringKey s t a (off + i) else [])
  | _ => none

/-- The global address of an entry. -/
def ringVa (o : SOp) (off : Nat) : Nat := (clearLow4 o.loc).toNat + off

/-- Carry a translation failure of the entry to the operation. -/
def ringErr (s : State) (o : SOp) (e : VErr) : RingRes :=
  match e with
  | .fault sub addr => .fault sub addr
  | .miss page => .miss (startWalk s o.cid o.vf page (dieOf o.cid % 8))

/-- Read an entry, with R and W required; a peer's translation is its own device's. -/
def ringRead (s : State) (o : SOp) (off n : Nat) : RingRes :=
  match ringSpad s o off n with
  | some [] => .target
  | some l => .ok s (l.map fun k => memByte s.spad k) false
  | none =>
    if isPeer o.cid then .ok s (physRead s (o.word + off) n o.key) (physPoison s (o.word + off) n)
    else match trRun s o.cid o.vf .rw (ringVa o off) n with
    | .error e => ringErr s o e
    | .ok _ =>
      match readVA s o.cid o.vf (ringVa o off) n with
      | .error e => ringErr s o e
      | .ok (b, bad) => .ok s b bad

/-- Write an entry, with R and W required. -/
def ringWrite (s : State) (o : SOp) (off : Nat) (bytes : List Byte) : RingRes :=
  match ringSpad s o off bytes.length with
  | some [] => .target
  | some l => .ok { settleSpad s l with spad := (l.zip bytes).foldl (fun m x => memWrite m x.1 [x.2]) s.spad } [] false
  | none =>
    if isPeer o.cid then
      .ok (writePieces { s with uid := s.uid + 1 } s.uid o.cid o.vf o.key false bytes (allOnes bytes.length) (o.word + off)
        (piecesOf (o.word + off) bytes.length)) [] false
    else match trRun s o.cid o.vf .rw (ringVa o off) bytes.length with
    | .error e => ringErr s o e
    | .ok _ =>
      match writeVA s o.cid o.vf (ringVa o off) bytes (allOnes bytes.length) false with
      | .error e => ringErr s o e
      | .ok (s1, _) => .ok s1 [] false

/-- Put a pushed entry into the ring and the word (R388). -/
def queuePush (s : State) (o : SOp) (q : QueueW) : RingRes :=
  let i := (q.head + q.depth - q.free) % q.depth
  let data := (leBytes 256 (match o.row with
    | some r => r.val.toNat
    | none => 0)).take q.bytes
  match ringWrite s o (64 + q.bytes * i) data with
  | .ok s1 _ _ =>
    .ok (addRel (o.write s1 { q with free := q.free - 1 }.word) o.word o.carry) [] false
  | r => r

/-- Take the oldest entry out of the queue, or only read it (R388). -/
def queuePop (s : State) (o : SOp) (q : QueueW) (peek : Bool) : RingRes :=
  match ringRead s o (64 + q.bytes * q.head) q.bytes with
  | .ok s1 b bad =>
    .ok (if peek then s1 else o.write s1 { q with head := (q.head + 1) % q.depth, free := q.free + 1 }.word)
      b bad
  | r => r

/-- The tag an answered pop writes (R387). -/
def popTag (i : Instr) : Byte :=
  match i with
  | .qPop _ f => BitVec.ofNat 8 (bitsOf 20 4 f.ext.toNat)
  | .qPopTry _ f => BitVec.ofNat 8 (bitsOf 20 4 f.ext.toNat)
  | .qPeek _ f => BitVec.ofNat 8 (bitsOf 20 4 f.ext.toNat)
  | _ => 0

/-- The row a returned entry writes (R388), or unspecified data with count 0 (R519). -/
def popRow (s : State) (i : Instr) (b : List Byte) (bad : Bool) : Row :=
  if bad then loadedRow (popTag i) ((List.range b.length).map (Config.freeByte s.fresh)) fun _ => 0
  else loadedRow (popTag i) b fun _ => 24

/-- Answer an operation from what its entry gave. -/
def queueAnswer (s : State) (o : SOp) (r : RingRes) (pop : Bool) : State :=
  match r with
  | .ok s1 b bad =>
    if pop then
      answerOp { s1 with fresh := s1.fresh + 1 } o 1 (b2n bad) (some (popRow s1 o.op b bad)) (some (acqOf s1 o))
    else answerOp s1 o 1 0 none none
  | .miss s1 => s1
  | .fault sub addr => answerOp s o 7 (sub + 256 * addr) none none
  | .target => misfit s o 3

/-! ### Registered operations (R298, R299, R304, R325, R389) -/

/-- The line an operation waits in: pushes apart from everything else. -/
def lineOf (i : Instr) : Nat :=
  match i with
  | .qPush .. => 1
  | _ => 0

/-- Whether a registration may be served before older ones: on a BARRIER word (R304). -/
def overtakes (i : Instr) : Bool :=
  match i with
  | .barWait .. => true
  | _ => false

/-- The state in which a registered operation has been answered, if it can be now, or its walk started (R299, R519). -/
def serveOne (s : State) (o : SOp) : Option State :=
  let w := wordRead s o.word o.key
  match o.op with
  | .semWait .. =>
    (match parseCount w with
     | none => some (misfit s o 2)
     | some x => if o.n ≤ x.count then
         some (succeed (if o.n = 0 then s else o.write s { x with count := x.count - o.n }.word) o)
       else none)
  | .acq .. =>
    (match parseRegion w with
     | none => some (misfit s o 2)
     | some v => if (v + 2 ^ 32 - o.n % 2 ^ 32) % 2 ^ 32 < 2 ^ 31 then some (succeed s o) else none)
  | .barWait .. =>
    (match parseBar w with
     | none => some (misfit s o 2)
     | some x => if x.phase != o.n % 16 then some (succeed s o) else none)
  | .qPush .. =>
    (match parseQueue w with
     | none => some (misfit s o 2)
     | some q => if 0 < q.free then some (queueAnswer s o (queuePush s o q) false) else none)
  | .qPop .. =>
    (match parseQueue w with
     | none => some (misfit s o 2)
     | some q => if q.free < q.depth then some (queueAnswer s o (queuePop s o q false) true) else none)
  | _ => none

/-- The registrations on a word, oldest first, that may be served now: the first of each line, and every barrier wait. -/
def eligible (s : State) (o : SOp) : Bool :=
  overtakes o.op ||
    match s.syncRegs.find? fun x => x.word = o.word && lineOf x.op = lineOf o.op with
    | some x => x.id = o.id
    | none => false

/-- The accesses performed with an operation that has been answered go back with the answer. -/
def withWent (s : State) (id : Nat) (w : List Went) : State :=
  { s with answers := s.answers.map fun a => if a.id = id then { a with went := w } else a }
/-- Whether an answer brings a fault, so that its bundle does nothing (R53, R293). -/
def faultAnswer (s : State) (id : Nat) : Option Answer := s.answers.find? fun a => a.id = id && (a.answer = 2 || a.answer = 3 || a.answer = 4 || a.answer = 7)
/-- An operation meets its word after the accesses of its own bundle (R290, R317): they are performed when it is, and not at
all when it faults, waits in line, or waits for a walk, which goes on. `act` is what the operation does: a rejection counts on the
word although its bundle faults (R386). -/
def actAlong (s : State) (o : SOp) (act : State → State) : State :=
  let x := performAll s o.along
  let t := act x.1
  if t.sops.any fun y => y.id = o.id then { s with walks := t.walks, uid := max s.uid t.uid }
  else if t.syncRegs.any fun y => y.id = o.id then
    { s with
      sops := t.sops, syncRegs := t.syncRegs, walks := t.walks, uid := max s.uid t.uid }
  else match (if o.along.isEmpty then none else faultAnswer t o.id) with
    | some a => if (faultAnswer (act s) o.id).isSome then act s else answerOp s o a.answer a.data none none
    | none => withWent t o.id x.2

/-- Serve one registration of a word, if one can be answered or its walk started. -/
def serveFirst (s : State) (word : Nat) : List SOp → Option State
  | [] => none
  | o :: r =>
    if o.word = word && eligible s o then
      let t := actAlong s o fun t => (serveOne t o).getD t
      if t.syncRegs.any (fun x => x.id = o.id) && t.walks = s.walks then serveFirst s word r else some t
    else serveFirst s word r

/-- Serve a word's registrations until none can be answered. -/
def serveWord (word : Nat) : Nat → State → State
  | 0, s => s
  | n + 1, s =>
    match serveFirst s word s.syncRegs with
    | some t => serveWord word n t
    | none => s

/-! ### Arrival of an operation -/

/-- Whether the operation's word may be reached (R288): a KIND 2 word must lie in an allocation of R223. -/
def reachable (s : State) (o : SOp) : Bool :=
  match parseLoc (clearLow4 o.loc) with
  | .remote t off => targetOk s o.cid t off 16
  | _ => true

/-- The new word of a posting operation, or none when the word is malformed or of another kind (R293). -/
def posted (i : Instr) (n w : Nat) : Option Nat :=
  match i with
  | .semInit .. => some (CountW.word ⟨n % 2 ^ 32, 0, false⟩)
  | .semPost .. => (parseCount w).map fun x => (x.post n).word
  | .barInit .. => some (barInitWord n).word
  | .barArrive .. => (parseBar w).map fun x => (x.arrive n).word
  | .barExpect .. => (parseBar w).map fun x => (x.expect n).word
  | .rel .. => (parseRegion w).map fun v => regionWord (v + 1)
  | _ => none

/-- Whether a queue operation's agent lies outside the queue (R386). -/
def outsideQueue (s : State) (o : SOp) (q : QueueW) : Bool :=
  let p := s.onHw (cidOfCtxId q.owner)
  o.vf != bitsOf 24 8 q.owner || !inScope s q.scope p.cid p.bind.group o.cid

/-- An operation enters the registrations of its word. -/
def register (s : State) (o : SOp) : State :=
  { s with sops := s.sops.filter (fun x => x.id != o.id), syncRegs := s.syncRegs ++ [o] }

/-- A queue operation on a well-formed queue (R386 to R391). -/
def queueArrive (s : State) (o : SOp) (q : QueueW) : State :=
  let waits (l : Nat) : Bool := s.syncRegs.any fun x => x.word = o.word && lineOf x.op = l
  match o.op with
  | .qInfo .. => answerOp s o 1 (wordRead s o.word o.key / 2 ^ 64) none none
  | i =>
    if outsideQueue s o q then
      answerOp (o.write s { q with rej := min (q.rej + 1) 65535 }.word) o (if q.strict then 4 else 0) 0 none none
    else match i with
    | .qTry .. => if q.free = 0 || waits 1 then answerOp s o 0 0 none none else queueAnswer s o (queuePush s o q) false
    | .qPopTry .. => if q.free = q.depth || waits 0 then answerOp s o 0 0 none none else queueAnswer s o (queuePop s o q false) true
    | .qPeek .. => if q.free = q.depth then answerOp s o 0 0 none none else queueAnswer s o (queuePop s o q true) true
    | _ => register s o

/-- The operation on the word it finds. -/
def arriveAt (s : State) (o : SOp) (w : Nat) : State :=
  let isQueue (i : Instr) : Bool := match i with
    | .qPush .. => true
    | .qPop .. => true
    | .qPopTry .. => true
    | .qTry .. => true
    | .qPeek .. => true
    | .qInfo .. => true
    | _ => false
  if isQueue o.op then
    match parseQueue w with
    | some q => queueArrive s o q
    | none => misfit s o 2
  else
    match o.op with
    | .semWait .. => if (parseCount w).isSome then register s o else misfit s o 2
    | .barWait .. => if (parseBar w).isSome then register s o else misfit s o 2
    | .acq .. => if (parseRegion w).isSome then register s o else misfit s o 2
    | .semTry .. =>
      (match parseCount w with
       | none => misfit s o 2
       | some x =>
         if o.n ≤ x.count && !(s.syncRegs.any fun r => r.word = o.word) then
           succeed (o.write s { x with count := x.count - o.n }.word) o
         else answerOp s o 0 0 none none)
    | .barTest .. =>
      (match parseBar w with
       | none => misfit s o 2
       | some x => if x.phase != o.n % 16 then succeed s o else answerOp s o 0 0 none none)
    | i =>
      (match posted i o.n w with
       | none => misfit s o 2
       | some v => answerOp (addRel (o.write s v) o.word o.carry) o 1 0 none none)

/-- Whether the operation must wait for an earlier access of its context to the word (R290) or for the writes it carries
(R317). -/
def opWaits (s : State) (o : SOp) : Bool :=
  (s.sops.any fun x => x.cid = o.cid && x.word = o.word && x.id < o.id)
    || (s.gops.any fun g => g.agent = o.cid && g.id < o.id && g.parts.any fun p => p.touches o.word 16)
    || !carryDone s (o.carry.map Carry.w) || o.along.any (alongWaits s)

/-- Where the word of a remote scratchpad location is, as the allocations stand. -/
def wordPlace (s : State) (loc : Word) (word : Nat) : Nat :=
  match parseLoc (clearLow4 loc) with
  | .remote t off => spadPlace (remoteKey s t off)
  | _ => word
def SOp.rehome (o : SOp) (s : State) : SOp := { o with word := wordPlace s o.loc o.word }

/-- What a task's TRY form wrote passes the line watch (R414, R416): the lines of the writes recorded since `old`. -/
def watchSync (old s : State) (cid : Nat) : State :=
  match agentTask s cid with
  | some (d, t) => watchWrite s d t ((s.hist.take (s.hist.length - old.hist.length)).map fun w => w.piece / 4)
  | none => s

/-- What an operation of a replay's context does in place of being performed (19 R469): a posting one goes, an answered one is answered
from the log. -/
def replaySync (s : State) (a : Audit) (o : SOp) : State :=
  let s1 : State := { s with sops := s.sops.filter (fun x => x.id != o.id), syncRegs := s.syncRegs.filter fun x => x.id != o.id }
  if !o.answered then s1
  else match takeDatum s1 a o.cid .answer with
    | (t, some (.answer x)) =>
      let r := if x.answer = 0 || x.answer = 1 then performAll t o.along else (t, [])
      { r.1 with answers := r.1.answers ++ [{ x with id := o.id, cid := o.cid, went := r.2 }] }
    | (t, _) => t

/-- An operation is performed at its home, the registrations that stand before it having been examined, and they are examined
again after it (R299). -/
def performSync (s : State) (o : SOp) : State :=
  match replayFor s o.cid with
  | some a => replaySync s a o
  | none =>
  let n := s.syncRegs.length + 1
  let o := o.rehome s
  let s0 := serveWord o.word n s
  let s1 := if reachable s0 o then
      watchSync s0 (actAlong s0 o fun t => arriveAt t o (wordRead t o.word o.key)) o.cid
    else misfit s0 o 3
  serveWord o.word n s1

/-- SYNC_OP_AT_HOME and QUEUE_OP_AT_HOME: an operation on its way is performed, or a registered one examined again. -/
def syncAct (op : Nat) (s : State) : State :=
  match s.sops.find? fun x => x.id = op with
  | some o => if opWaits s o then s else performSync s o
  | none =>
    match s.syncRegs.find? fun x => x.id = op with
    | some o => serveWord o.word (s.syncRegs.length) s
    | none => s

def execSyncOpAtHome (op : Nat) (s : State) : Host.Outcome State Fault Refusal := evNext (syncAct op s)
def execQueueOpAtHome (op : Nat) (s : State) : Host.Outcome State Fault Refusal := evNext (syncAct op s)

/-! ### The answer comes back (R291) -/

/-- A context that waited becomes ready. -/
def Ctx.readyFrom (c : Ctx) (p : WaitOn → Bool) : Ctx :=
  match c.status with
  | .blocked w => if p w then { c with status := .ready } else c
  | _ => c

/-- SYNC_ANSWER. -/
def execSyncAnswer (c : Nat) (s : State) : Host.Outcome State Fault Refusal :=
  match s.answers.find? fun a => a.cid = c with
  | none => evNext s
  | some a =>
    let s1 := if (s.ctx c).wait.any fun p => p.id = a.id then logDatum s c .answer a.id (.answer { a with went := [] }) else s
    evNext ({ s1 with answers := s.answers.filter fun x => x.id != a.id }.updCtx c fun x =>
      let y := (match x.wait with
        | some p => if p.id = a.id then { x with wait := some { p with
          answer := some a.answer, data := a.data, row := a.row, acq := a.acq, went := a.went } } else x
        | none => x)
      y.readyFrom fun w => w = WaitOn.answer)

/-! ### Sector posts (R240, R302, R305) -/

/-- SECTOR_POST: a post reaches its barrier; one that finds none is discarded and counted. -/
def execSectorPost (p : Nat) (s : State) : Host.Outcome State Fault Refusal :=
  match s.posts.find? fun x => x.id = p with
  | none => evNext s
  | some y =>
    let x := { y with word := wordPlace s y.loc y.word }
    if !carryDone s (x.carry.map Carry.w) then evNext s
    else
      let s1 := { s with posts := s.posts.filter fun y => y.id != p }
      let there := (match parseLoc (clearLow4 x.loc) with
        | .remote t off => targetOk s x.cid t off 16
        | _ => true)
      let s2 := serveWord x.word s1.syncRegs.length s1
      match (if there then parseBar (wordRead s2 x.word x.key) else none) with
      | none => evNext (misuse s2 x.cid)
      | some b =>
        evNext (serveWord x.word s2.syncRegs.length
          (addRel (wordWrite s2 x.cid (s2.ctx x.cid).bind.vf x.word x.key x.shadow (b.post x.tag).word) x.word x.carry))

end Sys2Proof.Machine
end

