-- ==== Sys2Proof/Machine/Sync.lean ====
section
/-!
DEFINITION. The sync instructions at issue (11 R288 to R312): sync addresses, posting and answered operations, the group
barrier, TKWAIT and TKCLR.
-/
namespace Sys2Proof.Machine

/-! ### Sync addresses (R288) -/

/-- A checked sync address. -/
structure SyncAt where
  loc : Word
  word : Nat
  key : Option Nat
  anchor : Nat
  shadow : List (Nat × Option Nat)
  deriving DecidableEq, Repr

/-- Alignment and KIND of a sync address, without translating it; `tagged` ignores bits 3:0. -/
def syncForm (s : State) (w : Word) (tagged : Bool) : Op Loc :=
  match parseLoc (clearLow4 w) with
  | .bad => trapOp 0x02 8
  | .stream _ _ => trapOp 0x02 8
  | l =>
    match l with
    | .here _ => if s.cur.bind.banks = 0 then trapOp 0x02 8 else if !tagged && w.toNat % 16 != 0 then trapOp 0x04 0 else .ok l
    | .glob va => if !tagged && w.toNat % 16 != 0 then trapAt 0x04 0 va else .ok l
    | _ => if !tagged && w.toNat % 16 != 0 then trapOp 0x04 0 else .ok l

/-- The shadow bytes of a sync word in a SHADOW region, with their keys: a write of the word zeroes them (R122, R125). -/
def wordShadow (s : State) (x : Nat × Nat × Tr) : Op (List (Nat × Option Nat)) :=
  if twMode x.2.2.tagw = 2 then do
    let l ← shadowParts s .w x 0
    .ok (l.flatMap fun p => (List.range p.len).map fun i => (p.pa + i, p.key))
  else .ok []

/-- A sync address with its place, a global one translated before its bundle retires. -/
def syncAddr (s : State) (w : Word) (tagged : Bool) : Op SyncAt := do
  let l ← syncForm s w tagged
  let loc := if tagged then clearLow4 w else w
  let a := anchorOf s.cur loc
  match l with
  | .glob va => do
    let r ← trAccess s .rw va 16
    match r with
    | x :: _ =>
      if paRegion x.2.2.pa = 1 then trapAt 0x0A 1 va
      else do
        let sh ← wordShadow s x
        .ok ⟨loc, x.2.2.pa, x.2.2.key, a, sh⟩
    | [] => trapAt 0x07 2 va
  | .here off => .ok ⟨loc, spadPlace (spadKey (tileOf s.cur.cid) (s.cur.spadOff off)), none, a, []⟩
  | .remote t off => .ok ⟨loc, spadPlace (remoteKey s t off), none, a, []⟩
  | _ => trapOp 0x02 8

/-- The operand n of R296. -/
def syncN (s : State) (f : SYF) : Op Nat :=
  if f.ext.getLsbD 16 then do
    let b ← rdS s 1 f.sb
    .ok (b.val.toNat % 2 ^ 32)
  else .ok (bitsOf 0 16 f.ext.toNat)

/-! ### Posting and answered operations (R291, R292) -/

def anyGuard : Guard := ⟨0, false⟩

/-- The context with the writes of its bundle among its own (R317). -/
def Ctx.withAlong (c : Ctx) : Ctx := { c with view := { c.view with own := alongRefs c.iss.along ++ c.view.own } }

/-- The accesses of slots L and W that are performed with the bundle's answered operation on a word: those on the word
itself (R290), and the stores before a release (R317). -/
def alongWith (c : Ctx) (word : Nat) (rel : Bool) : List Along :=
  c.iss.along.filter fun a => a.onWord word || (rel && !a.loads)

/-- An operation on its way to its home. -/
def sopOf (s : State) (i : Instr) (a : SyncAt) (n : Nat) (row : Option Row) (rel answered : Bool) : SOp :=
  { id := s.uid, cid := s.cur.cid, pc := s.cur.pc, op := i, loc := a.loc, word := a.word, key := a.key, anchor := a.anchor,
    vf := s.cur.bind.vf, n := n, row := row,
    carry := if rel then carryOf (if answered then s.cur.withAlong else s.cur) a.anchor else [], answered := answered,
    along := if answered then alongWith s.cur a.word rel else [], shadow := a.shadow }

/-- A posting operation is sent. -/
def postSync (s : State) (i : Instr) (a : SyncAt) (n : Nat) (rel : Bool) : State :=
  { s with uid := s.uid + 1, sops := s.sops ++ [sopOf s i a n none rel false] }

/-- An answered operation is sent, and the bundle holds for the answer. -/
def sendSync (s : State) (i : Instr) (a : SyncAt) (n : Nat) (row : Option Row) (rel : Bool) : State :=
  { s with
    uid := s.uid + 1
    sops := s.sops ++ [sopOf s i a n row rel true]
    cur := { s.cur with wait := some ⟨s.uid, none, 0, none, none, []⟩ } }

/-- The faults an answer brings (R293, R386, R519). -/
def answerFault (p : Pending) (code : Nat) : Op Pending :=
  match code with
  | 2 => trapOp 0x0A 2
  | 3 => trapOp 0x0A 3
  | 4 => trapOp 0x0A 4
  | 7 => trapAt 0x07 (p.data % 256) (p.data / 256)
  | _ => .ok p

/-- The answer to the bundle's operation; without one the bundle holds, a `wait` at a switch point, else a stall. -/
def answered (s : State) (wait : Bool) (send : State → State) : Op Pending :=
  match s.cur.wait with
  | none => holdOp (send s) (.send (if wait then some .answer else none))
  | some p =>
    match p.answer with
    | none => holdOp s (if wait then .wait .answer else .stall)
    | some code => answerFault p code

/-- A success acquires what the answer brings (R294). -/
def takeAcq (s : State) (p : Pending) : State :=
  match p.acq with
  | some a => s.updCur fun c => c.acquire a
  | none => s

/-- SEM.TRY, BAR.TEST and the like wait for the commit frontier in a speculative task (R295, R390). -/
def frontierOnly (s : State) : Op Unit := if speculative s.cur then holdOp s .stall else .ok ()

/-! ### Semaphores (R296 to R299) -/

def opSemInit (f : SYF) (s : State) : Op State := do
  notInTask s
  let w ← rdS s 0 f.sa
  let b ← rdS s 1 f.sb
  let a ← syncAddr s w.val false
  .ok (postSync s (.semInit anyGuard f) a (b.val.toNat % 2 ^ 32) false)

def opSemPost (f : SYF) (s : State) : Op State := do
  notInTask s
  let w ← rdS s 0 f.sa
  let n ← syncN s f
  let a ← syncAddr s w.val false
  .ok (postSync s (.semPost anyGuard f) a n true)

def opSemWait (f : SYF) (s : State) : Op State := do
  notInTask s
  let w ← rdS s 0 f.sa
  let n ← syncN s f
  let a ← syncAddr s w.val false
  let p ← answered s true fun t => sendSync t (.semWait anyGuard f) a n none false
  .ok (takeAcq s p)

def opSemTry (f : SYF) (s : State) : Op State := do
  frontierOnly s
  let w ← rdS s 0 f.sa
  let n ← syncN s f
  let a ← syncAddr s w.val false
  let p ← answered s false fun t => sendSync t (.semTry anyGuard f) a n none false
  .ok (emitP (takeAcq s p) 14 f.pd (p.answer = some 1) 0)

/-! ### Transaction barriers (R301 to R304) -/

/-- BAR.INIT: bits 39:16 of the scalar must be zero. -/
def opBarInit (f : SYF) (s : State) : Op State := do
  notInTask s
  let w ← rdS s 0 f.sa
  let b ← rdS s 1 f.sb
  need (bitsOf 16 24 b.val.toNat = 0) 0x02 8
  let a ← syncAddr s w.val true
  .ok (postSync s (.barInit anyGuard f) a b.val.toNat false)

def opBarArrive (f : SYF) (s : State) : Op State := do
  notInTask s
  let w ← rdS s 0 f.sa
  let n ← syncN s f
  let a ← syncAddr s w.val true
  .ok (postSync s (.barArrive anyGuard f) a n true)

def opBarExpect (f : SYF) (s : State) : Op State := do
  notInTask s
  let w ← rdS s 0 f.sa
  let n ← syncN s f
  let a ← syncAddr s w.val true
  .ok (postSync s (.barExpect anyGuard f) a n false)

def opBarWait (f : SYF) (s : State) : Op State := do
  notInTask s
  let w ← rdS s 0 f.sa
  let b ← rdS s 1 f.sb
  let a ← syncAddr s w.val true
  let p ← answered s true fun t => sendSync t (.barWait anyGuard f) a (b.val.toNat % 16) none false
  .ok (takeAcq s p)

def opBarTest (f : SYF) (s : State) : Op State := do
  frontierOnly s
  let w ← rdS s 0 f.sa
  let b ← rdS s 1 f.sb
  let a ← syncAddr s w.val true
  let p ← answered s false fun t => sendSync t (.barTest anyGuard f) a (b.val.toNat % 16) none false
  .ok (emitP (takeAcq s p) 14 f.pd (p.answer = some 1) 0)

/-! ### The group barrier (R307, R308) -/

/-- The writes an arrival carries (R317, R319): those visible to the context and those of its own bundle. -/
def arrivalWrites (c : Ctx) : List WRef := carriedWrites c.withAlong

/-- Members of the group other than the context that have not retired. -/
def otherMembers (s : State) (g : Group) (cid : Nat) : List Nat :=
  g.members.filter fun m => m != cid && (s.ctx m).status != .retired

/-- Whether every other member has arrived, and the writes the arrivals carry are performed. -/
def barrierFull (s : State) (g : Group) (cid : Nat) : Bool :=
  let l := otherMembers s g cid
  l.isEmpty || (l.all (fun m => g.arrived.contains m) && carryDone s (visibleWrites s.cur ++ g.gcarry)
    && !(g.along.any (fun x => alongWaits s x.2) || s.cur.iss.along.any (alongWaits s)))

/-- The stores of the bundles that hold at a barrier are performed in the order of their arrivals: the machine, and what
each member's were (R317, R319). -/
def performArrivals (s : State) : List (Nat × Along) → State × List (Nat × Went)
  | [] => (s, [])
  | x :: r =>
    let y := performAlong s x.2
    let z := performArrivals y.1 r
    (z.1, (x.1, y.2) :: z.2)

/-- The stores of the context's bundle, where it has not arrived yet. -/
def arrivalAlong (s : State) (g : Group) (cid : Nat) : List (Nat × Along) :=
  if g.arrived.contains cid then [] else (s.cur.iss.along.filter fun a => !a.loads).map fun a => (cid, a)

/-- All arrived bits clear together; every member's held GBAR may issue. -/
def completeBarrier (s : State) (g : Group) (cid : Nat) : State :=
  let r := performArrivals s (g.along ++ arrivalAlong s g cid)
  r.1.updGroup g.id fun x => { x with
    arrived := [], gcarry := [], gknown := arrivalWrites s.cur ++ g.gcarry, pass := cid :: otherMembers s g cid, along := [], went := r.2 }

/-- The context's arrival is registered. -/
def arriveGroup (s : State) (g : Group) (cid : Nat) : State :=
  s.updGroup g.id fun x => { x with
    arrived := cid :: x.arrived, gcarry := arrivalWrites s.cur ++ x.gcarry, along := x.along ++ arrivalAlong s g cid }

/-- GBAR: the barrier's completion lets the bundle go on at once. -/
def opGbar (_f : XCF) (s : State) : Op State := do
  notInTask s
  let cid := s.cur.cid
  match s.group s.cur.bind.group with
  | none => .ok s
  | some g =>
    if g.pass.contains cid then
      .ok ((s.updGroup g.id fun x => { x with
        pass := x.pass.filter (fun m => m != cid), went := x.went.filter fun y => y.1 != cid }).updCur fun c => c.know g.gknown)
    else if (otherMembers s g cid).isEmpty then .ok s
    else if barrierFull s g cid then holdOp (completeBarrier s g cid) .again
    else if g.arrived.contains cid then holdOp s (.wait .gbar)
    else holdOp (arriveGroup s g cid) (.send (some .gbar))

/-! ### Tokens (R309 to R312) -/

/-- The tokens a TKWAIT or TKCLR names (R311). -/
def namedTokens (f : XCF) : BitVec 64 :=
  let m : BitVec 64 := (f.ext.extractLsb' 16 32).setWidth 64
  if f.ext.getLsbD 15 then m <<< 32 else m

/-- Token numbers of a set. -/
def tokenList (m : BitVec 64) : List Nat := (List.range 64).filter fun n => m.getLsbD n

/-- TKWAIT: what it acquires is what the named tokens' copies had written before its bundle. -/
def opTkwait (f : XCF) (s : State) : Op State := do
  notInTask s
  let m := namedTokens f
  if s.cur.iss.tok0 &&& m != 0 then holdOp s (.wait (.tokens m))
  else .ok (s.updCur fun c => c.know ((tokenList m).flatMap fun n => (look n c.iss.ws0).getD []))

/-- TKCLR detaches the pending tokens it names. -/
def opTkclr (f : XCF) (s : State) : Op State := do
  notInTask s
  .ok (s.updCur fun c => (tokenList (c.iss.tok0 &&& namedTokens f)).foldl
    (fun x n => { completeToken x n with tokWs := drp n x.tokWs }) c)

end Sys2Proof.Machine
end

