-- ==== Sys2Proof/Machine/Region.lean ====
section
/-!
DEFINITION. Regions (12 R322 to R327): MOOR, UNMOOR, ACQ, REL and FENCE.
-/
namespace Sys2Proof.Machine

/-- MOOR: the anchor is checked as R288 gives without translating it, the base as R323 gives. DESIGN CHOICE:
an anchor of KIND 2 whose tile number names no enabled tile is accepted, and the entry set: neither rule gives a cause for it (log 94). -/
def opMoor (f : SYF) (s : State) : Op State := do
  notInTask s
  let w ← rdS s 0 f.sa
  let b ← rdS s 1 f.sb
  let _ ← syncForm s w.val false
  need (bitsOf 56 8 b.val.toNat = 0) 0x02 8
  need (bitsOf 0 6 b.val.toNat = 0) 0x04 0
  let len := 64 * (bitsOf 0 24 f.ext.toNat + 1)
  need (b.val.toNat + len ≤ 2 ^ 56) 0x02 8
  let n := bitsOf 31 4 f.ext.toNat
  .ok (s.updCur fun c => { c.unmoored (c.moor.toList.getD n none) with
    moor := c.moor.setIfInBounds n (some ⟨w.val, b.val, len, f.ext.extractLsb' 28 3⟩) })

def opUnmoor (f : SYF) (s : State) : Op State := do
  notInTask s
  let n := bitsOf 31 4 f.ext.toNat
  .ok (s.updCur fun c =>
    if f.ext.getLsbD 30 then { c.moor.toList.foldl Ctx.unmoored c with moor := Vector.replicate 16 none }
    else { c.unmoored (c.moor.toList.getD n none) with moor := c.moor.setIfInBounds n none })

def opRel (f : SYF) (s : State) : Op State := do
  notInTask s
  let w ← rdS s 0 f.sa
  let a ← syncAddr s w.val false
  .ok (postSync s (.rel anyGuard f) a 0 true)

def opAcq (f : SYF) (s : State) : Op State := do
  notInTask s
  let w ← rdS s 0 f.sa
  let n ← syncN s f
  let a ← syncAddr s w.val false
  let p ← answered s true fun t => sendSync t (.acq anyGuard f) a n none false
  .ok (takeAcq s p)

/-- FENCE with REL: every write that is the context's own or visible to it, at the scope (R317, R326). -/
def Ctx.fenceRel (c : Ctx) (scope : Nat) : Ctx :=
  { c with view := { c.view with fencedRel := (carriedWrites c).map (fun w => (w, scope)) ++ c.view.fencedRel } }
/-- FENCE with ACQ: what has been acquired is visible to every later read (R318, R326). -/
def Ctx.fenceAcq (c : Ctx) : Ctx :=
  { c with view := { c.view with acqs := (c.view.acqs.filter (fun a => !a.fenced)).map (fun a => { a with fenced := true }) ++ c.view.acqs } }

/-- FENCE: with both, the writes it makes visible are among those it covers. -/
def opFence (f : XCF) (s : State) : Op State := do
  notInTask s
  let s1 := if f.ext.getLsbD 43 then s.updCur Ctx.fenceAcq else s
  .ok (if f.ext.getLsbD 44 then s1.updCur fun c => c.fenceRel (bitsOf 45 3 f.ext.toNat) else s1)

end Sys2Proof.Machine
end

