-- ==== Sys2Proof/Machine/Group.lean ====
section
/-!
DEFINITION. Groups at issue (14 R356 to R359, R366, 15 R377 to R380): PIPE.PUSH, PIPE.POP, PHASE, BANK.REL, HINT.SUCC,
WAITVIS and COMPLETE.
-/
namespace Sys2Proof.Machine

/-! ### Pipes (R356 to R359) -/

def State.pipe (s : State) (p : Nat) : Option Pipe := s.pipes.find? fun x => x.id = p
def State.updPipe (s : State) (p : Nat) (f : Pipe → Pipe) : State :=
  { s with pipes := s.pipes.map fun x => if x.id = p then f x else x }

/-- The pipe behind a local number, at the end the context's group has (R356, R515). -/
def pipeAt (s : State) (n : Nat) (push : Bool) : Op Pipe :=
  match look n s.cur.bind.pipes with
  | none => trapOp 0x01 0
  | some k =>
    match s.pipe k with
    | none => trapOp 0x01 0
    | some p => if (if push then p.pushG else p.popG) = s.cur.bind.group then .ok p else trapOp 0x01 0

/-- Every context of a group has retired. -/
def groupGone (s : State) (g : Nat) : Bool :=
  match s.group g with
  | none => true
  | some x => x.gone || x.members.all fun m => (s.ctx m).status = .retired

/-- The place of a context among those that wait. -/
def placeIn (q : List Nat) (cid : Nat) : Nat := q.findIdx fun x => x = cid
/-- Join the contexts that wait, once. -/
def enqueue (q : List Nat) (cid : Nat) : List Nat := if q.contains cid then q else q ++ [cid]
def leave (q : List Nat) (cid : Nat) : List Nat := q.filter fun x => x != cid

/-- Whether a context has a reservation at the pipe, and the number of it: a new one takes the next number. -/
def Pipe.reserved (p : Pipe) (cid : Nat) : Bool := p.pushQ.any fun x => x.2 = cid
def Pipe.ticketOf (p : Pipe) (cid next : Nat) : Nat := ((p.pushQ.find? fun x => x.2 = cid).map Prod.fst).getD next
/-- The reservation's place among those that wait; a slot is its own when it lies within the free ones (R357). -/
def Pipe.place (p : Pipe) (cid : Nat) : Nat := p.pushQ.findIdx fun x => x.2 = cid
/-- A reservation reaches the pipe, behind those that wait. -/
def Pipe.reserve (p : Pipe) (cid next : Nat) : Pipe := if p.reserved cid then p else { p with pushQ := p.pushQ ++ [(next, cid)] }
/-- Put a row where its reservation stands among the rows: they enter in the order of the reservations (R357, R367). -/
def insertRow (x : PipeRow) : List PipeRow → List PipeRow
  | [] => [x]
  | y :: r => if x.id < y.id then x :: y :: r else y :: insertRow x r

/-- Hold at a pipe, taking a place when the context has none. -/
def holdPipe (s : State) (p : Pipe) (push : Bool) : Op State :=
  let w : WaitOn := if push then .pipeRoom p.id else .pipeRow p.id
  if (if push then p.reserved s.cur.cid else p.popQ.contains s.cur.cid) then holdOp s (.wait w)
  else holdOp ({ s with uid := s.uid + 1 }.updPipe p.id fun x =>
      if push then x.reserve s.cur.cid s.uid else { x with popQ := enqueue x.popQ s.cur.cid })
    (.send (some w))

/-- A release on a pipe row: no mooring names a pipe (R358). -/
def pipeCarry (s : State) : List Carry := carryOf s.cur (2 ^ 81)

/-- PIPE.PUSH. -/
def opPipePush (f : SYF) (s : State) : Op State := do
  notInTask s
  let p ← pipeAt s (syPipe f) true
  let r ← rdRowSrc s 99 1 (syPipeSel f)
  if groupGone s p.popG then trapOp 0x0A 5
  else if p.place s.cur.cid < p.free then
    .ok ({ s with uid := s.uid + 1 }.updPipe p.id fun x => { x with
      free := x.free - 1
      pushQ := x.pushQ.filter fun y => y.2 != s.cur.cid
      rows := insertRow ⟨p.ticketOf s.cur.cid s.uid, s.cur.cid, r, false, pipeCarry s⟩ x.rows })
  else holdPipe s p true

/-- The row a pop of the context claims: rows are claimed in the order of the pops, and none before a reservation that has its
slot and whose row has still to enter (R357). -/
def claimable (p : Pipe) (cid : Nat) : Option PipeRow :=
  let k := placeIn p.popQ cid
  match p.rows[k]? with
  | none => none
  | some x => if (p.rows.take (k + 1)).all PipeRow.arrived && (p.pushQ.take p.free).all (fun q => x.id < q.1) then some x else none

/-- A claimed row leaves the pipe; its push synchronises with the pop (R358). -/
def takeRow (s : State) (p : Pipe) (x : PipeRow) : State :=
  (s.updPipe p.id fun y => { y with
      free := y.free + 1, popQ := leave y.popQ s.cur.cid, rows := y.rows.filter fun z => z.id != x.id }).updCur
    fun c => c.acquire (acquired s c.cid (2 ^ 81) x.carry)

/-- Whether the pipe is closed with no row left for the context (R359). -/
def pipeEmptyClosed (s : State) (p : Pipe) : Bool :=
  groupGone s p.pushG && decide (p.rows.length ≤ placeIn p.popQ s.cur.cid)

/-- PIPE.POP. -/
def opPipePop (f : SYF) (s : State) : Op State := do
  notInTask s
  let p ← pipeAt s (syPipe f) false
  let d ← dstRow s 99 (syPipeSel f)
  if pipeEmptyClosed s p then trapOp 0x0A 5
  else match claimable p s.cur.cid with
  | some x => .ok (emit (takeRow s p x) 13 [.row d x.row] .invalid 0 none)
  | none => holdPipe s p false

/-- PIPE.POP.TRY. -/
def opPipePopTry (f : SYF) (s : State) : Op State := do
  notInTask s
  let p ← pipeAt s (syPipe f) false
  let d ← dstRow s 99 (syPipeSel f)
  if pipeEmptyClosed s p then trapOp 0x0A 5
  else match claimable p s.cur.cid with
  | some x => .ok (emit (takeRow s p x) 13 [.row d x.row, .pred f.pd true] .invalid 0 none)
  | none => .ok (emitP s 13 f.pd false 0)

/-- PIPE_ROW_ARRIVE: the oldest row that has not arrived lands, once what its push carries has been performed. -/
def execPipeRowArrive (p : Nat) (s : State) : Host.Outcome State Fault Refusal :=
  match s.pipe p with
  | none => evNext s
  | some x =>
    match x.rows.find? fun r => !r.arrived with
    | none => evNext s
    | some r =>
      if !carryDone s (r.carry.map Carry.w) then evNext s
      else evNext (s.updPipe p fun y => { y with rows := y.rows.map fun z => if z.id = r.id then { z with arrived := true } else z })

/-! ### PHASE (R366) -/

def opPhase (f : XCF) (s : State) : Op State :=
  if speculative s.cur then .ok s else .ok (setAfter s (.phase (bitsOf 0 4 f.ext.toNat)))

/-! ### BANK.REL (R377) -/

/-- The banks of the run that a bound stream ring of a context lies in. -/
def ringBanks (c : Ctx) : List Nat :=
  (c.win.q.toList.filter QBind.valid).flatMap fun q => (List.range 16).map fun l => c.bankOf (q.ring * 256 + 128 * l) - c.bind.bank

/-- The contexts of the issuing group. -/
def groupCtxs (s : State) : List Ctx :=
  match s.group s.cur.bind.group with
  | some g => g.members.map s.ctx
  | none => [s.cur]

/-- Named banks become released; their ownership bits follow by BANK_FREE, once what was issued before now is performed. -/
def releaseBanks (s : State) (l : List Nat) : State :=
  let b := l.map fun i => s.cur.bind.bank + i
  { s with uid := s.uid + 1 }.updGroup s.cur.bind.group fun g =>
    let new := b.filter fun i => !g.releasing.contains i
    { g with releasing := g.releasing ++ new, relAt := (new.map fun i => (i, s.uid)) ++ g.relAt }

def opBankRel (f : XCF) (s : State) : Op State := do
  notInTask s
  let l := (List.range 32).filter fun i => f.ext.getLsbD i
  if l.any fun i => (groupCtxs s).any fun c => (ringBanks c).contains i then trapOp 0x02 8
  else .ok (releaseBanks s l)

/-! ### HINT.SUCC, WAITVIS, COMPLETE (R378 to R380) -/

def opHintSucc (_f : XCF) (s : State) : Op State := do
  notInTask s
  match s.group s.cur.bind.group with
  | none => .ok s
  | some g =>
    if g.succ || isReplay s s.cur.cid then .ok s
    else
      let t := s.updGroup g.id fun x => { x with succ := true }
      .ok (match s.launch g.launch with
        | some l => hintGiven t l
        | none => t)

/-- A predecessor that let its successors start early and completed tainted or cancelled (R398). -/
def Pred.failed (p : Pred) : Bool := p.early && (p.done.any fun v => 2 ≤ v)
/-- Whether every predecessor's record has been written and none holds the launch; where one failed, the host has released the
launch's node, which has left the table (R379, R398). -/
def Launch.visReady (l : Launch) : Bool :=
  if l.preds.any Pred.failed then l.node.isNone else l.preds.all fun p => p.done.isSome

def opWaitvis (_f : XCF) (s : State) : Op State := do
  notInTask s
  match s.launch s.cur.bind.launch with
  | none => .ok s
  | some l => if l.visReady then .ok (s.updCur fun c => c.know l.vis) else holdOp s (.wait .vis)

/-- COMPLETE: the largest value and the highest verdict are kept; VREQ 2 taints the group (R381, R382). A replay changes nothing of
its launch (19 R469). -/
def opComplete (f : SYF) (s : State) : Op State := do
  notInTask s
  let a ← rdS s 0 f.sa
  let v := bitsOf 0 2 f.ext.toNat
  if isReplay s s.cur.cid then .ok s
  else .ok ((s.updLaunch s.cur.bind.launch fun l => { l with user := max l.user a.val.toNat, vreq := max l.vreq v }).updGroup s.cur.bind.group
    fun g => { g with taint := g.taint || v = 2 })

end Sys2Proof.Machine
end

