-- ==== Sys2Proof/Machine/Queue.lean ====
section
/-!
DEFINITION. The queue instructions at issue (16 R387 to R390).
-/
namespace Sys2Proof.Machine

/-- Poison popped marks the context (R519). -/
def markPoison (s : State) (p : Pending) : State :=
  if p.data % 2 = 1 then s.updCur fun c => { c with crs := { c.crs with poisonC := true } } else s

/-- A push: its status is the answer. -/
def pushOp (i : Instr) (wait : Bool) (cls : Nat) (f : SYF) (s : State) : Op State := do
  let w ← rdS s 0 f.sa
  let r ← rdRowSrc s 99 1 (syQSel f)
  let a ← syncAddr s w.val false
  let p ← answered s wait fun t => sendSync t i a 0 (some r) true
  .ok (emitP s cls f.pd (p.answer = some 1) 0)

/-- A pop or peek: on success the entry's row and a true status, else a false status alone. -/
def popOp (i : Instr) (wait : Bool) (f : SYF) (s : State) : Op State := do
  let w ← rdS s 0 f.sa
  let d ← dstRow s 99 (syQSel f)
  let a ← syncAddr s w.val false
  let p ← answered s wait fun t => sendSync t i a 0 none false
  match p.row with
  | some r => .ok (emit (markPoison (takeAcq s p) p) 13 [.row d r, .pred f.pd true] .invalid 0 none)
  | none => .ok (emitP s 13 f.pd false 0)

def opQPush (f : SYF) (s : State) : Op State := do
  notInTask s
  pushOp (.qPush anyGuard f) true 13 f s
def opQPop (f : SYF) (s : State) : Op State := do
  notInTask s
  popOp (.qPop anyGuard f) true f s
def opQPopTry (f : SYF) (s : State) : Op State := do
  frontierOnly s
  popOp (.qPopTry anyGuard f) false f s
def opQTry (f : SYF) (s : State) : Op State := do
  frontierOnly s
  pushOp (.qTry anyGuard f) false 14 f s
def opQPeek (f : SYF) (s : State) : Op State := do
  frontierOnly s
  popOp (.qPeek anyGuard f) false f s
def opQInfo (f : SYF) (s : State) : Op State := do
  frontierOnly s
  let w ← rdS s 0 f.sa
  let a ← syncAddr s w.val false
  let p ← answered s false fun t => sendSync t (.qInfo anyGuard f) a 0 none false
  .ok (emitS s 15 (f.ext.extractLsb' 30 5) (BitVec.ofNat 64 p.data) 0)

end Sys2Proof.Machine
end

