-- ==== Sys2Proof/Machine/TaskOps.lean ====
section
/-!
DEFINITION. The task instructions SPAWN, TASK.END, TASK.ABANDON and TS.GET (17 R423, R424).
-/
namespace Sys2Proof.Machine

/-- The tile a child is placed on (R423). -/
def spawnTile (s : State) (d : Dom) (plc : Nat) (ts a0 : Word) : Nat :=
  let n := d.tiles.length
  match plc with
  | 0 => tileOf s.cur.cid
  | 1 => d.tiles.getD (ts.toNat % n) 0
  | _ => d.tiles.getD (a0.toNat % n) 0

/-- A new task of a domain, queued, with the next SEQ (R406, R422). -/
def newTask (d : Dom) (parent : Option Nat) (ts : Word) (tile entry : Nat) (a0 a1 : Word) : Task :=
  { seq := d.nextSeq, parent := parent, ts := ts, tile := tile, entry := entry, a0 := a0, a1 := a1, st := .queued,
    ctx := none, buf := [], bufAt := 0, rset := [], parked := none, aborts := 0, reex := false, spawned := 0, poison := false, corrected := false }
def Dom.addTask (d : Dom) (t : Task) : Dom := { d with tasks := d.tasks ++ [t], nextSeq := d.nextSeq + 1 }

def opSpawn (f : SYF) (s : State) : Op State := do
  let ts ← rdS s 0 f.sa
  let a0 ← rdS s 1 f.sb
  let a1 ← rdS s 2 (f.ext.extractLsb' 30 5)
  let ent := bitsOf 22 8 f.ext.toNat
  match s.cur.task, s.taskOf s.cur with
  | some r, some t =>
    (match s.dom r.dom with
     | none => trapOp 0x0C 3
     | some d =>
       if ts.val.ult r.ts then trapOp 0x0C 1
       else if d.table.length ≤ ent then trapOp 0x0C 4
       else if d.maxTask ≤ d.tasks.length || 64 ≤ t.spawned then trapOp 0x0C 5
       else
         let child := newTask d (some r.seq) ts.val (spawnTile s d (bitsOf 20 2 f.ext.toNat) ts.val a0.val) ent a0.val a1.val
         .ok (learn ((s.updDom r.dom fun x => x.addTask child).updTask r.dom r.seq fun u => { u with spawned := u.spawned + 1 }) r.dom))
  | _, _ => trapOp 0x0C 3

/-- The instruction belongs to tasks (R424). -/
def inTask (s : State) : Op Unit := need s.cur.task.isSome 0x0C 3

def opTaskEnd (_f : XCF) (s : State) : Op State := do
  inTask s
  .ok (setAfter s .taskEnd)
def opTaskAbandon (_f : XCF) (s : State) : Op State := do
  inTask s
  .ok (setAfter s .taskAbandon)

/-- TS.GET: all ones outside a task context. -/
def opTsGet (f : SYF) (s : State) : Op State :=
  let v : Word := match s.cur.task with
    | none => BitVec.allOnes 64
    | some r => (match bitsOf 28 2 f.ext.toNat with
      | 0 => r.ts
      | 1 => r.cfront
      | _ => BitVec.ofNat 64 r.seq)
  .ok (emitS s 15 (f.ext.extractLsb' 30 5) v 0)

end Sys2Proof.Machine
end

