-- ==== Sys2Proof/Machine/Engine.lean ====
section
/-!
DEFINITION. What engine operations share (09 R226 to R230, 11 R309, R310): the tokens they produce and consume, and the
reads CBLOAD and TMAP stall their bundle for (09 R242, 10 R279).
-/
namespace Sys2Proof.Machine

/-- The produced token must not be pending (R227). -/
def tokenFree (s : State) (tk : BitVec 6) : Op Unit := need (!s.cur.tok.getLsbD tk.toNat) 0x02 4

/-- The token becomes pending, bound to operation `id` (R310). -/
def bindToken (c : Ctx) (tk id : Nat) : Ctx :=
  { c with tok := c.tok ||| (1#64 <<< tk), tokBind := put tk id c.tokBind, tokWs := drp tk c.tokWs }

/-- The bindings of the tokens an operation consumes, as they stand (R33, R230). -/
def consumed (c : Ctx) (f : ENF) : List Nat :=
  let named := (if f.use.getLsbD 2 then [f.tk1.toNat] else []) ++ (if f.use.getLsbD 1 then [f.tk2.toNat] else [])
    ++ (if f.use.getLsbD 0 then [f.tk3.toNat] else [])
  named.filterMap fun t => look t c.tokBind

/-- Every consumed token has completed, or been detached (R310, R312). -/
def waitsDone (c : Ctx) (waits : List Nat) : Bool := waits.all fun w => !(c.tokBind.any fun b => b.2 = w)

/-- The token bound to operation `id` completes, with the writes a TKWAIT on it acquires (R239, R310). -/
def finishToken (c : Ctx) (id : Nat) (ws : List WRef) : Ctx :=
  c.tokBind.foldl (fun x b =>
    if b.2 = id then { completeToken x b.1 with tokWs := put b.1 ws x.tokWs } else x) c

/-- The bytes a stalled read of slot `slot` brings: from the group's scratchpad at once, from global memory once
TMAP_CBLOAD_READ_ARRIVE has performed it. -/
def slotRead (s : State) (slot va len : Nat) : Op (List Byte) :=
  match s.cur.reads.find? fun r => r.slot = slot with
  | none => do
    let _ ← trAccess s .r va len
    holdOp (s.updCur fun c => { c with reads := c.reads ++ [⟨slot, va, len, none⟩] }) .stall
  | some r =>
    match r.data with
    | some b => .ok b
    | none => holdOp s .stall

/-- Whether an earlier access of the context keeps a read from being performed: a store to its bytes (R208), or a load of one of its
pieces (R320). -/
def readWaits (s : State) (cid : Nat) (t : Tr) (n : Nat) : Bool :=
  ownStorePending s cid t.pa n || s.gops.any fun g => g.agent = cid && !g.writes && g.parts.any fun q =>
    decide (t.pa / 16 ≤ q.pa / 16) && decide (q.pa / 16 ≤ (t.pa + n - 1) / 16)
/-- A read of the newest bytes is remembered for every piece of it (R320). -/
def noteNewest (s : State) (cid : Nat) (t : Tr) (n : Nat) : State :=
  (piecesOf t.pa n).foldl (fun st p => match s.hist.find? fun w => w.piece = p.1 / 16 with
    | some w => st.updCtx cid fun c => { c with view := { c.view with lastRead := put (p.1 / 16) w.id c.view.lastRead } }
    | none => st) s

/-- TMAP_CBLOAD_READ_ARRIVE: the oldest read the context's bundle waits for is performed, after the context's own earlier
accesses that it follows (R208, R320). -/
def execTmapCbloadReadArrive (c : Nat) (s : State) : Host.Outcome State Fault Refusal :=
  let x := s.ctx c
  match x.reads.find? fun r => r.data.isNone && r.len != 0 with
  | none => evNext s
  | some r =>
    match trRun s c x.bind.vf .r r.va r.len with
    | .error _ => evNext (s.updCtx c fun y => { y with reads := y.reads.filter fun q => q.slot != r.slot })
    | .ok runs =>
      if runs.any fun t => readWaits s c t.2.2 t.2.1 then evNext s
      else
        match readVA s c x.bind.vf r.va r.len with
        | .error _ => evNext s
        | .ok (b, _) =>
          let s1 := runs.foldl (fun st t => noteNewest (noteCorrected st c t.2.2.pa t.2.1) c t.2.2 t.2.1) s
          evNext (s1.updCtx c fun y => { y with reads := y.reads.map fun q => if q.slot = r.slot then { q with data := some b } else q })

end Sys2Proof.Machine
end

