-- ==== Sys2Proof/Machine/Matrix.lean ====
section
/-!
DEFINITION. Slot M at issue (10 R261 to R284): leases, chains, MMA forms, operand latches, the codebook, accumulator access.
-/
namespace Sys2Proof.Machine

def State.myTile (s : State) : Tile := s.tile (tileOf s.cur.cid)
def State.setLease (s : State) (f : Tile → Lease) : State :=
  let t := s.myTile
  s.setTile { t with lease := f t }

/-! ### Leases (R262 to R265) -/

/-- The context asks for the lease (R262, R264). -/
def askLease (s : State) : State := s.setTile (s.myTile.request s.cur.cid s.level)

/-- The mark of a LEASE that has entered its own request. -/
def leaseMark : CtlRead := ⟨3, 0, 0, none⟩

def opLease (_f : XCF) (s : State) : Op State := do
  notInTask s
  let l := s.myTile.lease
  if l.holder = some s.cur.cid then .ok s
  else if s.cur.reads.contains leaseMark then holdOp s (.wait .lease)
  else if l.asked s.cur.cid then .ok s
  else holdOp ((askLease s).updCur fun c => { c with reads := leaseMark :: c.reads }) (.send (some .lease))

/-- LEASE.TRY. -/
def opLeaseTry (f : XCF) (s : State) : Op State := do
  notInTask s
  let t := s.myTile
  let l := t.lease
  let pd := f.ext.extractLsb' 45 3
  if l.holder = some s.cur.cid then .ok (emitP s 14 pd true 0)
  else if l.holder.isNone && l.next.isNone && l.reqs.isEmpty then
    let l1 : Lease := { l with holder := some s.cur.cid, run := 32, last := put (s.level s.cur.cid) (s.cur.cid % 16) l.last }
    .ok (emitP (s.setTile { t with lease := l1 }) 14 pd true 0)
  else .ok (emitP s 14 pd false 0)

def opUnlease (_f : XCF) (s : State) : Op State := do
  notInTask s
  need (chainOf s s.cur).isNone 0x02 6
  .ok (endLease s s.cur.cid)

/-! ### Chains (R267 to R269) -/

/-- Numbers of the bits of a block mask. -/
def maskBlocks (m : BitVec 16) : List Nat := (List.range 16).filter fun b => m.getLsbD b

/-- CHAIN.BEGIN's check that it has the lease. -/
def haveLease (s : State) : Op Unit :=
  let l := s.myTile.lease
  if l.holder = some s.cur.cid then .ok ()
  else if l.asked s.cur.cid then holdOp s (.wait .lease)
  else holdOp (askLease s) (.send (some .lease))

/-- CHAIN.BEGIN: the chain is open and the timer starts. A tile has one chain: while another context's is there, which keeps the
lease, the bundle holds (R267). -/
def opChainBegin (f : XCF) (s : State) : Op State := do
  notInTask s
  need (chainOf s s.cur).isNone 0x02 6
  haveLease s
  let m := f.ext.extractLsb' 32 16
  let i32 := f.ext.getLsbD 30
  need ((maskBlocks m).all fun b => (s.cur.block b).isI32 = i32) 0x03 0
  let t := s.myTile
  if t.chain.isSome then holdOp s .stall
  else .ok ({ s with uid := s.uid + 1 }.setTile { t with
    chain := some ⟨s.uid, s.cur.cid, m, f.ext.getLsbD 31, i32, s.cur.pc, cycNow s s.cur, false, [], [], []⟩
    gatherLat := [], bLat := [] })

def opChainEnd (_f : XCF) (s : State) : Op State := do
  notInTask s
  need (chainOf s s.cur = some false) 0x02 5
  let t := s.myTile
  .ok (s.setTile { t with chain := t.chain.map fun c => { c with ending := true } })

/-! ### MMA (R270 to R275) -/

/-- The descriptor of R271. -/
structure Desc where
  mb : Nat
  nb : Nat
  kb : Nat
  acb : Nat
  wa : Nat
  wb : Nat
  sgna : Bool
  sgnb : Bool
  deriving DecidableEq, Repr

def descOf (w : Word) : Desc :=
  let n := w.toNat
  ⟨bitsOf 0 4 n + 1, bitsOf 4 4 n + 1, bitsOf 8 8 n + 1, bitsOf 16 4 n, bitsOf 24 4 n + 1, bitsOf 28 4 n + 1,
    n.testBit 32, n.testBit 33⟩
/-- Whether a descriptor keeps R271 and names at most 16 blocks up to AC15; the PLANE fields are zero in other forms. -/
def descOk (w : Word) (plane : Bool) : Bool :=
  let d := descOf w
  bitsOf 34 30 w.toNat = 0 && bitsOf 20 4 w.toNat = 0 && (plane || bitsOf 24 10 w.toNat = 0)
    && decide (d.mb * d.nb ≤ 16) && decide (d.acb + d.mb * d.nb - 1 ≤ 15)
def Desc.blocks (d : Desc) : List Nat := (List.range (d.mb * d.nb)).map (· + d.acb)

/-- The latch contents an MMA is issued against: the newest fill of the chain (R277). DESIGN CHOICE: with none in this chain the fault is
of SUB 8, for R273 and R286 name no SUB (R336; log 100). -/
def newest (l : List OpLatch) : Op OpLatch :=
  match l with
  | x :: _ => .ok x
  | [] => trapOp 0x02 8

/-- The blocks a queued operation accesses (R260). -/
def ArrOp.blocks (o : ArrOp) : List Nat :=
  match o.op with
  | .mmaBf16 .. => (descOf (o.ops.getD 2 0)).blocks
  | .mmaCb4 .. => (descOf (o.ops.getD 2 0)).blocks
  | .mmaPlane .. => (descOf (o.ops.getD 2 0)).blocks
  | .accZero _ f => maskBlocks (f.ext.extractLsb' 5 16)
  | .accWr _ f => accBlk f :: (if accPair f then [accBlk2 f] else [])
  | _ => []

/-- An operation joins the array's queue with its token pending. -/
def queueArr (s : State) (f : ENF) (o : ArrOp) (t : Tile) : State :=
  { s with uid := s.uid + 1 }.setTile { t with arr := t.arr ++ [o] } |>.updCur fun c => bindToken c f.tkd.toNat o.id

/-- A queued operation of the context. -/
def arrOp (s : State) (i : Instr) (f : ENF) (ops : List Word) : ArrOp :=
  { id := s.uid, cid := s.cur.cid, op := i, ops := ops, cb := s.cur.cb, rows := [], waits := consumed s.cur f, tk := f.tkd.toNat,
    pc := s.cur.pc, steps := [], base := [], latA := 0, latB := 0 }

/-- The checks of R273 and the queueing of an MMA. -/
def mmaOp (i : Instr) (f : ENF) (plane cb4 : Bool) (s : State) : Op State := do
  notInTask s
  let asrc := f.ext.getLsbD 5
  let bsrc := f.ext.getLsbD 4
  let sa ← rdE s 0 (f.ext.extractLsb' 16 5)
  let sb ← rdE s 1 (f.ext.extractLsb' 11 5)
  let sg ← rdE s 2 (f.ext.extractLsb' 6 5)
  match s.myTile.chain with
  | none => trapOp 0x02 5
  | some ch => do
    need (ch.owner = s.cur.cid && !ch.ending) 0x02 5
    need (descOk sg plane) 0x02 8
    let d := descOf sg
    need (d.blocks.all fun b => decide (b < s.cur.bind.acc) && ch.mask.getLsbD b) 0x02 8
    need (ch.i32 = plane) 0x03 0
    let la ← (if asrc then newest s.myTile.gatherLat else .ok ⟨0, true, 0, d.kb, 1⟩)
    need (!asrc || (d.mb = 1 && d.kb = la.kt)) 0x02 8
    let lb ← (if bsrc then newest s.myTile.bLat else .ok ⟨0, true, 0, d.kb, d.nb⟩)
    need (d.kb = lb.kt || !bsrc) 0x02 8
    need (d.nb = lb.nt || !bsrc) 0x02 8
    need (!cb4 || s.cur.cb.valid) 0x03 0
    tokenFree s f.tkd
    let t := s.myTile
    let base := d.blocks.map fun b => (b, (look b ch.kno).getD 0)
    let ch1 := { ch with kno := d.blocks.foldl (fun l b => put b ((look b l).getD 0 + d.kb) l) ch.kno }
    let o := { arrOp s i f [sa, sb, sg] with base := base, latA := la.id, latB := lb.id }
    .ok (queueArr s f o { t with chain := some ch1, lease := { t.lease with run := t.lease.run - 1 } })

def opMmaBf16 (f : ENF) (s : State) : Op State := mmaOp (.mmaBf16 anyGuard f) f false false s
def opMmaCb4 (f : ENF) (s : State) : Op State := mmaOp (.mmaCb4 anyGuard f) f false true s
def opMmaPlane (f : ENF) (s : State) : Op State := mmaOp (.mmaPlane anyGuard f) f true false s

/-! ### Operand latches (R277, R278) -/

/-- MGATH and MLDB need an open chain (R273). -/
def openChain (s : State) : Op Unit := need (chainOf s s.cur = some false) 0x02 5

def opMgath (f : ENF) (s : State) : Op State := do
  notInTask s
  let r ← rdRowSrc s 99 1 (f.ext.extractLsb' 11 10)
  let sa ← rdE s 0 (f.ext.extractLsb' 6 5)
  let sg ← rdE s 1 (f.ext.extractLsb' 1 5)
  openChain s
  need (r.tag = tagI16) 0x03 0
  let g := sg.toNat
  let kg := bitsOf 16 8 g + 1
  need (bitsOf 0 16 g != 0 && decide (kg ≤ 32) && bitsOf 24 24 g % 64 = 0 && bitsOf 48 16 g = 0) 0x02 8
  tokenFree s f.tkd
  let t := s.myTile
  .ok (queueArr s f { arrOp s (.mgath anyGuard f) f [sa, sg] with rows := [r] }
    { t with gatherLat := ⟨s.uid, false, 0, kg, 1⟩ :: t.gatherLat })

def opMldb (f : ENF) (s : State) : Op State := do
  notInTask s
  let sb ← rdE s 0 (f.ext.extractLsb' 16 5)
  let sg ← rdE s 1 (f.ext.extractLsb' 11 5)
  openChain s
  let nl := bitsOf 4 4 sg.toNat + 1
  let kl := bitsOf 8 8 sg.toNat + 1
  need (bitsOf 0 4 sg.toNat = 0 && bitsOf 16 48 sg.toNat = 0 && decide (kl * nl ≤ 32)) 0x02 8
  tokenFree s f.tkd
  let t := s.myTile
  .ok (queueArr s f (arrOp s (.mldb anyGuard f) f [sb, sg]) { t with bLat := ⟨s.uid, false, 0, kl, nl⟩ :: t.bLat })

/-! ### CBLOAD (R90, R279) -/

/-- A codebook table in memory, or none when it is malformed. -/
def parseCodebook (b : List Byte) : Option Codebook :=
  let tr := (b.getD 32 0).toNat
  if 8 < tr || (b.drop 33).any fun x => x != 0 then none
  else some ⟨Vector.ofFn fun i : Fin 16 => BitVec.ofNat 16 (leNat ((b.drop (2 * i.val)).take 2)), tr, true⟩

def opCbload (f : ENF) (s : State) : Op State := do
  notInTask s
  let sa ← rdE s 0 (f.ext.extractLsb' 16 5)
  tokenFree s f.tkd
  let b ← (match parseLoc sa with
    | .here off =>
      if s.cur.bind.banks = 0 then trapOp 0x02 8
      else if off % 64 != 0 then trapOp 0x04 0
      else .ok (localRead s s.cur off 64)
    | .glob va => if va % 64 != 0 then trapAt 0x04 0 va else slotRead s 3 va 64
    | _ => trapOp 0x02 8)
  match parseCodebook b with
  | none => trapOp 0x0B 3
  | some cb => .ok (s.updCur fun c => { c with cb := cb, tokWs := drp f.tkd.toNat c.tokWs })

/-! ### Accumulator access (R281 to R284) -/

/-- Blocks whose bank belongs to the context's open chain (R284). -/
def inChainBank (s : State) (l : List Nat) : Bool :=
  match s.myTile.chain with
  | some ch => ch.owner = s.cur.cid && l.any fun b => (maskBlocks ch.mask).any fun m => m / 4 = b / 4
  | none => false

/-- The blocks named must lie in `.acc`, and in no bank of the open chain. -/
def accFree (s : State) (l : List Nat) : Op Unit := do
  need (l.all fun b => decide (b < s.cur.bind.acc)) 0x01 0
  need (!(inChainBank s l && chainOf s s.cur = some false)) 0x02 6

def opAccZero (f : ENF) (s : State) : Op State := do
  notInTask s
  accFree s (maskBlocks (f.ext.extractLsb' 5 16))
  tokenFree s f.tkd
  .ok (queueArr s f (arrOp s (.accZero anyGuard f) f []) s.myTile)

/-- The tag of FMT (R282). -/
def accTag (f : ENF) : Byte := if accFmt f = 0 then tagF32 else if accFmt f = 1 then tagBF16 else tagI32
/-- A row an ACC.WR reads. -/
def accRow (s : State) (n : Nat) : Op Row := if waitsFor s.cur (isRowW n) then holdOp s .stall else .ok (s.cur.regs.row n)
/-- Its rows, block by block. -/
def accRowsOf (s : State) : List Nat → Op (List Row)
  | [] => .ok []
  | n :: r => do
    let x ← accRow s n
    let rest ← accRowsOf s r
    .ok (x :: rest)

/-- The rows of an ACC.WR: at re-injection those captured at its issue (R54). -/
def accWrRows (s : State) (ns : List Nat) : Op (List Row) :=
  match s.cur.iss.cap with
  | some e => if e.side.rows.length = ns.length then .ok e.side.rows else accRowsOf s ns
  | none => accRowsOf s ns

def opAccWr (f : ENF) (s : State) : Op State := do
  notInTask s
  accFree s ((accPlaces f).map Prod.fst)
  let rows ← accWrRows s (accRowNos f)
  need (rows.all fun r => r.tag = accTag f) 0x03 0
  tokenFree s f.tkd
  .ok (queueArr s f { arrOp s (.accWr anyGuard f) f [] with rows := rows } s.myTile)

/-- Whether an access of R260 to one of the blocks is still queued. -/
def arrBefore (l : List ArrOp) (cid : Nat) (bs : List Nat) : Bool :=
  l.any fun o => o.cid = cid && o.blocks.any fun b => bs.contains b

/-- The rows one block drains into, with their lanes' counts for the floor and the flags (R283). -/
def drainBlock (f : ENF) (b : AccBlock) (row0 : Nat) : List (Nat × Row × List Lane) :=
  let per := if accFmt f = 1 then 128 else 64
  let lane (x : Elem) : Lane :=
    if accFmt f = 1 then
      let r := fToF 8 (f.ext.extractLsb' 2 2) (fDec 24 x.bits)
      ⟨r.bits, cntCvt 8 r ⟨fDec 24 x.bits, x.t, 24⟩, r.flags⟩
    else ⟨x.bits, x.t, 0⟩
  let l := b.elems.map lane
  (List.range (accHeight f)).map fun i =>
    let part := (l.drop (per * i)).take per
    (row0 + i, rowOfLanes (accTag f) part, part)

/-- The newest result in flight completes operation `id` when it becomes visible. -/
def tieLast (id : Nat) : List Flight → List Flight
  | [] => []
  | [e] => [{ e with tkop := some id }]
  | e :: r => e :: tieLast id r

/-- The lowest lane of any row below the floor (R134, R283). -/
def lowestBelow (c : Ctx) (p : Nat) (rows : List (Nat × Row × List Lane)) : Option Nat :=
  rows.foldl (fun b r => match b, belowFloor c p ((numbered 0 r.2.2).map fun x => (x.1, x.2.cnt)) with
    | some x, some y => some (min x y)
    | none, y => y
    | x, none => x) none

def opAccRd (f : ENF) (s : State) : Op State := do
  notInTask s
  let bs := (accPlaces f).map Prod.fst
  accFree s bs
  if !waitsDone s.cur (consumed s.cur f) || arrBefore s.myTile.arr s.cur.cid bs || inChainBank s bs then holdOp s .token
  else do
    tokenFree s f.tkd
    need (bs.all fun b => (s.cur.block b).isI32 = (accFmt f = 2)) 0x03 0
    let rows := (accPlaces f).flatMap fun p => drainBlock f (s.cur.block p.1) p.2
    let p := fmtPrec (tagFmt (accTag f))
    let below := if p = 0 then none else lowestBelow s.cur p rows
    let fl := rows.foldl (fun a r => a ||| orFlags r.2.2) 0
    let s1 := emit s 11 (rows.map fun r => .row r.1 r.2.1) .invalid fl below
    let id := s.uid
    .ok ({ s1 with uid := id + 1 }.updCur fun c => bindToken { c with fl := tieLast id c.fl } f.tkd.toNat id)

end Sys2Proof.Machine
end

