-- ==== Sys2Proof/Machine/ArrayEvents.lean ====
section
/-!
DEFINITION. What happens in a tile's matrix array after issue (10 R260 to R285): grants, steps, latch fills, accumulator
operations, the completion and the overrun of a chain.
-/
namespace Sys2Proof.Machine

/-! ### Grants (R263, R265) -/

/-- LEASE_GRANT. -/
def execLeaseGrant (t : Nat) (s : State) : Host.Outcome State Fault Refusal :=
  let x := s.tile t
  match x.lease.next with
  | none => evNext s
  | some w => evNext ((s.setTile { x with lease := x.lease.grant }).updCtx w fun c => c.readyFrom fun h => h = WaitOn.lease)

/-! ### Queue positions (R260) -/

/-- The operations queued before operation `id`. -/
def arrUpTo (l : List ArrOp) (id : Nat) : List ArrOp := l.takeWhile fun o => o.id != id
/-- Whether an earlier queued access of the context to the blocks is still to be performed. -/
def arrBlocked (t : Tile) (o : ArrOp) (bs : List Nat) : Bool := arrBefore (arrUpTo t.arr o.id) o.cid bs
def Tile.dropArr (t : Tile) (id : Nat) : Tile := { t with arr := t.arr.filter fun o => o.id != id }
def Tile.setArr (t : Tile) (o : ArrOp) : Tile := { t with arr := t.arr.map fun x => if x.id = o.id then o else x }

/-! ### Steps (R274, R275) -/

def fillOf (l : List OpLatch) (id : Nat) : Option OpLatch := l.find? fun x => x.id = id

/-- Bytes of a panel tile of `n` bytes, tile number `i` of the panel at scalar `w`, or of the latch, as operation `id` reads
them. -/
def panelTile (s : State) (c : Ctx) (id : Nat) (lat : Option OpLatch) (w : Word) (n i : Nat) : List Byte :=
  match lat with
  | some l => leBytes n (l.data >>> (8 * n * i))
  | none => opRead s c id (w.toNat - w.toNat % 128 + n * i) n

/-- The places of those bytes: none where they come from the latch. -/
def panelKeys (c : Ctx) (lat : Option OpLatch) (w : Word) (n i : Nat) : List Nat :=
  if lat.isSome then [] else spadKeys c (w.toNat - w.toNat % 128 + n * i) n

/-- The form of an MMA: 0 BF16, 1 CB4, 2 PLANE. -/
def mmaForm (i : Instr) : Nat :=
  match i with
  | .mmaCb4 .. => 1
  | .mmaPlane .. => 2
  | _ => 0
/-- The ext field of an MMA. -/
def mmaExt (i : Instr) : BitVec 21 :=
  match i with
  | .mmaBf16 _ f => f.ext
  | .mmaCb4 _ f => f.ext
  | .mmaPlane _ f => f.ext
  | _ => 0

/-- −0 with count 24, the start of O (R102, R116). -/
def oddStart : AccBlock := blockFill false ⟨2 ^ 31, 24⟩

/-- A floating-point step applied to the context's block or to O. -/
def applyFloat (s : State) (t : Tile) (ch : Chain) (o : ArrOp) (blk par : Nat) (a b : List Byte) : State :=
  let c := s.ctx o.cid
  let rows := (List.range 32).map fun r => if mmaForm o.op = 1 then cb4Row o.cb a r else bf16Row a r
  let cols := (List.range 32).map (bf16Col b)
  let odd := ch.split && par % 2 = 1
  let cur := if odd then (look blk ch.o).getD oddStart else c.block blk
  let r := floatStep (!ch.split) rows cols cur.elems
  let nb := blockOf false r.1
  if odd then
    (s.setTile { t with chain := some { ch with o := put blk nb ch.o } }).updCtx o.cid fun x => recordFlags x 3 r.2 o.pc
  else (s.setTile t).updCtx o.cid fun x => recordFlags (x.setBlock blk nb) 3 r.2 o.pc

/-- A plane step: the block modulo 2^32, the exact sums beside it. -/
def applyPlane (s : State) (t : Tile) (ch : Chain) (o : ArrOp) (d : Desc) (blk : Nat) (a b : List Byte) : State :=
  let c := s.ctx o.cid
  let old := (c.block blk).elems.map Elem.bits
  let ex := (look blk ch.exact).getD (old.map (sextN 32))
  let dots := (List.range 1024).map fun i => planeDot a b d.wa d.wb d.sgna d.sgnb (i / 32) (i % 32)
  let ch1 := { ch with exact := put blk ((ex.zip dots).map fun x => x.1 + x.2) ch.exact }
  let nb := blockOf true ((old.zip dots).map fun x => ⟨wrapN 32 ((x.1 : Int) + x.2), 0⟩)
  (s.setTile { t with chain := some ch1 }).updCtx o.cid fun x => x.setBlock blk nb

/-- Whether the chain's timer has reached its limit: the array then takes no further step of it, and it overruns (R268, R269). -/
def Chain.late (ch : Chain) (s : State) (t : Tile) : Bool := decide (ch.start + (s.ctx ch.owner).bind.chainMax ≤ t.cyc)

/-- Sizes of an A tile and a B tile (R272). -/
def sizeA (form : Nat) (d : Desc) : Nat := if form = 0 then 2048 else if form = 1 then 512 else 8192 * d.wa
def sizeB (form : Nat) (d : Desc) : Nat := if form = 2 then 8192 * d.wb else 2048

/-- Whether an operation's consumed tokens and latches are ready. -/
def arrReady (s : State) (t : Tile) (o : ArrOp) : Bool :=
  let filled (l : List OpLatch) (id : Nat) : Bool := (fillOf l id).any OpLatch.filled
  waitsDone (s.ctx o.cid) o.waits
    && (!(mmaExt o.op).getLsbD 5 || filled t.gatherLat o.latA) && (!(mmaExt o.op).getLsbD 4 || filled t.bLat o.latB)

/-- MMA_STEP: step (i, j, k) of operation `op`. -/
def execMmaStep (t op i j k : Nat) (s : State) : Host.Outcome State Fault Refusal :=
  let x := s.tile t
  match x.arr.find? (fun o => o.id = op), x.chain with
  | some o, some ch =>
    let d := descOf (o.ops.getD 2 0)
    let form := mmaForm o.op
    let blk := d.acb + i * d.nb + j
    let n := (i * d.nb + j) * d.kb + k
    let mma : Bool := match o.op with
      | .mmaBf16 .. => true
      | .mmaCb4 .. => true
      | .mmaPlane .. => true
      | _ => false
    if !mma || d.mb ≤ i || d.nb ≤ j || d.kb ≤ k || o.steps.contains n || ch.owner != o.cid || !arrReady s x o
        || arrBlocked x o [blk] || ch.late s x then evNext s
    else
      let c := s.ctx o.cid
      let la := if (mmaExt o.op).getLsbD 5 then fillOf x.gatherLat o.latA else none
      let lb := if (mmaExt o.op).getLsbD 4 then fillOf x.bLat o.latB else none
      let a := panelTile s c o.id la (o.ops.getD 0 0) (sizeA form d) (i * d.kb + k)
      let b := panelTile s c o.id lb (o.ops.getD 1 0) (sizeB form d) (k * d.nb + j)
      let x := ((bankServed s 5 (panelKeys c la (o.ops.getD 0 0) (sizeA form d) (i * d.kb + k)
        ++ panelKeys c lb (o.ops.getD 1 0) (sizeB form d) (k * d.nb + j)))).tile t
      let done := o.steps.length + 1 = d.mb * d.nb * d.kb
      let x1 := if done then x.dropArr op else x.setArr { o with steps := n :: o.steps }
      let s1 := if form = 2 then applyPlane s x1 ch o d blk a b
        else applyFloat s x1 ch o blk ((look blk o.base).getD 0 + k) a b
      evNext (if done then s1.updCtx o.cid fun y => finishToken y op [] else s1)
  | _, _ => evNext s

/-! ### Latch fills (R277, R278) -/

/-- Where the gather lens reads row `v` of tile `k`: as a row access it ignores bits 3:0 (R197). -/
def gatherAt (sa pitch v k : Nat) : Nat := sa - sa % 16 + v * pitch + 64 * k
/-- The data of the gather latch: row r of tile k at 2048k + 64r; and how many indices were out of range. -/
def gatherData (s : State) (c : Ctx) (id : Nat) (idx : List Nat) (sa nrows kg pitch : Nat) : List Byte × Nat :=
  let row (k r : Nat) : List Byte :=
    let v := idx.getD r 0
    if nrows ≤ v then List.replicate 64 0 else opRead s c id (gatherAt sa pitch v k) 64
  ((List.range kg).flatMap fun k => (List.range 32).flatMap fun r => row k r,
    (idx.filter fun v => v != 0xFFFF && decide (nrows ≤ v)).length)

/-- Whether a tile's chain has reached its limit. -/
def lateIn (s : State) (t : Tile) : Bool := t.chain.any fun ch => ch.late s t

/-- Put a fill into the latch list. -/
def fillLatch (l : List OpLatch) (id data : Nat) : List OpLatch :=
  l.map fun x => if x.id = id then { x with filled := true, data := data } else x

/-- MGATH_FILL. -/
def execMgathFill (t op : Nat) (s : State) : Host.Outcome State Fault Refusal :=
  let x := s.tile t
  match x.arr.find? fun o => o.id = op with
  | none => evNext s
  | some o =>
    match o.op with
    | .mgath .. =>
      if !waitsDone (s.ctx o.cid) o.waits || lateIn s x then evNext s
      else
        let sg := (o.ops.getD 1 0).toNat
        let idx := (List.range 32).map fun r => laneN 16 r (o.rows.getD 0 Row.zero).val.toNat
        let g := gatherData s (s.ctx o.cid) o.id idx (o.ops.getD 0 0).toNat (bitsOf 0 16 sg) (bitsOf 16 8 sg + 1) (bitsOf 24 24 sg)
        let used := (idx.filter fun v => v < bitsOf 0 16 sg).flatMap fun v => (List.range (bitsOf 16 8 sg + 1)).flatMap fun k =>
          spadKeys (s.ctx o.cid) (gatherAt (o.ops.getD 0 0).toNat (bitsOf 24 24 sg) v k) 64
        let x := (bankServed s 5 used).tile t
        evNext ((s.setTile { x.dropArr op with gatherLat := fillLatch x.gatherLat op (leNat g.1) }).updCtx o.cid
          fun c => finishToken (if g.2 = 0 then c else bumpCount c 3 g.2) op [])
    | _ => evNext s

/-- MLDB_LOAD. -/
def execMldbLoad (t op : Nat) (s : State) : Host.Outcome State Fault Refusal :=
  let x := s.tile t
  match x.arr.find? fun o => o.id = op with
  | none => evNext s
  | some o =>
    match o.op with
    | .mldb .. =>
      if !waitsDone (s.ctx o.cid) o.waits || lateIn s x then evNext s
      else
        let sg := (o.ops.getD 1 0).toNat
        let n := 2048 * ((bitsOf 4 4 sg + 1) * (bitsOf 8 8 sg + 1))
        let sb := (o.ops.getD 0 0).toNat
        let data := leNat (opRead s (s.ctx o.cid) o.id (sb - sb % 128) n)
        let x := (bankServed s 5 (spadKeys (s.ctx o.cid) (sb - sb % 128) n)).tile t
        evNext ((s.setTile { x.dropArr op with bLat := fillLatch x.bLat op data }).updCtx o.cid fun c => finishToken c op [])
    | _ => evNext s

/-! ### ACC.ZERO and ACC.WR (R281 to R284) -/

/-- The block ACC.WR writes from its rows (R282, R283). DEDUCED: "widened exactly" is taken of a BF16 NaN as of every other
value, so that its payload stays; R87's conversion would make it canonical (log 70). -/
def writtenBlock (f : ENF) (rows : List Row) : AccBlock :=
  let lanes := rows.flatMap rowLanes
  blockOf (accFmt f = 2) (lanes.map fun l =>
    if accFmt f = 1 then ⟨l.val * 2 ^ 16, l.cnt⟩ else ⟨l.val, l.cnt⟩)

/-- Each named block with what its rows bring. -/
def accWrBlocks (f : ENF) (rows : List Row) : List (Nat × AccBlock) :=
  (accPlaces f).mapIdx fun i p => (p.1, writtenBlock f ((rows.drop (accHeight f * i)).take (accHeight f)))

/-- Whether an accumulator operation waits for the context's chain: it was issued while that was ending, and names a block in one
of its banks (R260, R284). -/
def afterChain (t : Tile) (o : ArrOp) : Bool :=
  t.chain.any fun ch => ch.owner = o.cid && ch.id < o.id && o.blocks.any fun b => (maskBlocks ch.mask).any fun m => m / 4 = b / 4

/-- ACC_OP_PERFORMED. Blocks that a chain begun after the operation has overrun keep what the overrun left. -/
def execAccOpPerformed (t op : Nat) (s : State) : Host.Outcome State Fault Refusal :=
  let x := s.tile t
  match x.arr.find? fun o => o.id = op with
  | none => evNext s
  | some o =>
    let put (l : List (Nat × AccBlock)) : Host.Outcome State Fault Refusal :=
      evNext ((s.setTile (x.dropArr op)).updCtx o.cid fun c =>
        finishToken ((l.filter fun b => !(o.steps.contains b.1)).foldl (fun y b => y.setBlock b.1 b.2) c) op [])
    if afterChain x o || !waitsDone (s.ctx o.cid) o.waits || arrBlocked x o o.blocks then evNext s
    else match o.op with
    | .accZero _ f => put (o.blocks.map fun b => (b, AccBlock.fresh (f.ext.getLsbD 4)))
    | .accWr _ f => put (accWrBlocks f o.rows)
    | _ => evNext s

/-! ### The end of a chain (R267 to R269) -/

/-- Operations that belong to a chain. -/
def chainOp (o : ArrOp) : Bool :=
  match o.op with
  | .accZero .. => false
  | .accWr .. => false
  | _ => true

/-- E + O of SPLIT mode for one block, with its flags (R102, R116). -/
def joinBlock (e o : AccBlock) : AccBlock × Flags :=
  let r := (e.elems.zip o.elems).map fun x => arrAdd x.1 x.2
  (blockOf false (r.map Prod.fst), r.foldl (fun f x => f ||| x.2) 0)

/-- A context after its chain's last additions: E + O, and OF where an exact plane sum left the range (R275). -/
def closeChain (ch : Chain) (c : Ctx) : Ctx :=
  let c1 := (maskBlocks ch.mask).foldl (fun x b =>
    if ch.split then
      let r := joinBlock (x.block b) ((look b ch.o).getD oddStart)
      recordFlags (x.setBlock b r.1) 3 r.2 ch.pc
    else x) c
  if ch.exact.any fun l => l.2.any fun v => v < -(2 ^ 31) || 2 ^ 31 ≤ v then recordFlags c1 3 flOF ch.pc else c1

/-- The array is free of the chain: latches invalid, the lease arbitrated. -/
def Tile.endChain (t : Tile) (lvl : Nat → Nat) : Tile :=
  { t with chain := none, gatherLat := [], bLat := [], lease := t.lease.afterChain lvl }

/-- CHAIN_COMPLETE, within the limit. In SPLIT mode the last additions come after every access issued before the chain (R260). -/
def execChainComplete (t : Nat) (s : State) : Host.Outcome State Fault Refusal :=
  let x := s.tile t
  match x.chain with
  | none => evNext s
  | some ch =>
    if !ch.ending || ch.late s x || (x.arr.any fun o => o.cid = ch.owner && chainOp o)
        || (ch.split && arrBefore (x.arr.filter fun o => o.id < ch.id) ch.owner (maskBlocks ch.mask)) then evNext s
    else evNext ((s.setTile (x.endChain s.level)).updCtx ch.owner (closeChain ch))

/-- Every element of the chain's blocks after an overrun (R269). -/
def spoil (ch : Chain) (c : Ctx) : Ctx :=
  (maskBlocks ch.mask).foldl (fun x b => x.setBlock b (blockFill ch.i32 ⟨if ch.i32 then 0 else fQNaN 24, 0⟩)) c

/-- CHAIN_OVERRUN: the timer has reached its limit. -/
def execChainOverrun (t : Nat) (s : State) : Host.Outcome State Fault Refusal :=
  let x := s.tile t
  match x.chain with
  | none => evNext s
  | some ch =>
    if !ch.late s x then evNext s
    else
      let gone := (x.arr.filter fun o => o.cid = ch.owner && chainOp o).map ArrOp.id
      let bs := maskBlocks ch.mask
      let cut (o : ArrOp) : ArrOp := if o.cid = ch.owner && o.id < ch.id then { o with steps := bs ++ o.steps } else o
      let x1 := { x.endChain s.level with arr := (x.arr.filter fun o => !(gone.contains o.id)).map cut }
      evNext ((s.setTile x1).updCtx ch.owner fun y =>
        let z := gone.foldl (fun v id => finishToken v id []) (spoil ch y)
        { z with pends := z.pends ++ [{ cls := 0x20, addr := ch.pc.toNat }] })

end Sys2Proof.Machine
end

