-- ==== Sys2Proof/Machine/Msi.lean ====
section
/-!
DEFINITION. MSI-X (20 R477), and the fencing and the waking of a tile (19 R449, R450, R461).
-/
namespace Sys2Proof.Machine

/-- An event of vector `v` of a function: the message goes out when the host has unmasked the vector, else its pending bit
is set (log 16). -/
def raiseMsi (s : State) (fn v : Nat) : State :=
  let f := s.fn fn
  if (f.msix.toList.getD v 0).getLsbD 96 then s.setFn fn { f with pba := f.pba ||| (1#32 <<< v) }
  else { s with dev := { s.dev with msi := s.dev.msi ++ [(fn, v)] } }

/-- The functions whose PART mask holds a tile. -/
def ownersOf (s : State) (t : Nat) : List Nat := (List.range 65).filter fun f => (s.fn f).part.getLsbD t

/-- A degradation event about a tile: on the PF, and on every function that holds it (R477). -/
def degrade (s : State) (t : Nat) : State := (0 :: (ownersOf s t).filter fun f => f != 0).foldl (fun st f => raiseMsi st f 2) s

def State.updSvc (s : State) (t : Nat) (f : Svc → Svc) : State :=
  let x := s.tile t
  s.setTile { x with svc := f x.svc }

/-- A tile wakes; a wake within a break-even hold counts (19 R461). -/
def wakeTile (s : State) (t : Nat) : State :=
  if (s.tile t).svc.pst = .run then s
  else s.updSvc t fun v => { v with
    pst := .run, since := s.htime, sinceCyc := (s.tile t).cyc, hold := 0, holdab := if s.htime < v.hold then (v.holdab + 1) % 2 ^ 32 else v.holdab }

/-- A fence cause other than a hard failure: an enabled tile drains (R449). -/
def fenceTile (s : State) (t : Nat) : State :=
  if (s.tile t).svc.st = .enabled then degrade (s.updSvc t fun v => { v with st := .draining }) t else s

end Sys2Proof.Machine
end

