-- ==== Sys2Proof/Machine/ContextEvents.lean ====
section
/-!
DEFINITION. What happens to a context between its bundles (02 R40, 11 R312, 13 R330, R335, R343, R344): results become
visible, a pending trap is taken, a wait for tokens or for a deadline ends, a pre-emption is requested.
-/
namespace Sys2Proof.Machine

/-- Whether a context of that number exists. -/
def State.hasCtx (s : State) (c : Nat) : Bool := s.cur.cid = c || s.others.any fun x => x.cid = c

/-- Whether some context of a context's core is running. -/
def coreBusy (s : State) (cid : Nat) : Bool :=
  s.allCtx.any fun x => x.cid != cid && hwOf x.cid / 4 = hwOf cid / 4 && x.status = .running

/-- A context that enters its handler while another one runs on its core waits to be chosen (R330, R332). -/
def yieldCore (s : State) : State :=
  if s.cur.status = .running && coreBusy s s.cur.cid then { s with cur := { s.cur with status := .ready } } else s

/-- RESULT_VISIBLE: every result of the context that may become visible does, or the trust-floor trap is taken (R136). -/
def execResultVisible (c : Nat) (s : State) : Host.Outcome State Fault Refusal :=
  if s.hasCtx c && !(dueNow s (s.ctx c)).isEmpty then evNext (yieldCore (showDue (s.focus c))) else evNext s

/-- The pending trap that is taken next: the lowest class, the earliest raised among equals (R335). -/
def lowestCause : List Cause → Option Cause
  | [] => none
  | k :: r => match lowestCause r with
    | some j => if j.cls < k.cls then some j else some k
    | none => some k

/-- Whether a pending trap is taken before the context's next bundle. -/
def trapDue (s : State) (c : Ctx) : Bool := !c.pends.isEmpty && !c.crs.intrap && c.reinj.isNone && !performed s c

/-- TRAP_ENTRY: the running context takes its pending trap. -/
def execTrapEntry (c : Nat) (s : State) : Host.Outcome State Fault Refusal :=
  if s.hasCtx c && (s.ctx c).status = .running && trapDue s (s.ctx c) && (dueNow s (s.ctx c)).isEmpty then
    let t := s.focus c
    match lowestCause t.cur.pends with
    | some k => evNext (trapBetween { t with cur := { t.cur with pends := t.cur.pends.erase k } } k)
    | none => evNext s
  else evNext s

/-- TOKEN_WAIT_RELEASE: the tokens a blocked TKWAIT names are complete. -/
def execTokenWaitRelease (c : Nat) (s : State) : Host.Outcome State Fault Refusal :=
  let x := s.ctx c
  evNext (s.updCtx c fun y => y.readyFrom fun w => match w with
    | .tokens m => x.tok &&& m = 0
    | _ => false)

/-- SLEEP_DEADLINE. -/
def execSleepDeadline (c : Nat) (s : State) : Host.Outcome State Fault Refusal :=
  match (s.ctx c).sleepTill with
  | some d =>
    if d ≤ tileTime s (tileOf c) then evNext (s.updCtx c fun y => { y with sleepTill := none }.readyFrom fun w => w = WaitOn.sleep)
    else evNext s
  | none => evNext s

/-- Whether a context stands on its core. -/
def Ctx.onCore (c : Ctx) : Bool :=
  match c.status with
  | .ready => true
  | .running => true
  | .blocked _ => true
  | _ => false

/-- PREEMPT_REQUEST: the request stays pending until it can be taken. None is made of a domain's contexts (17 R405). -/
def execPreemptRequest (c : Nat) (s : State) : Host.Outcome State Fault Refusal :=
  if s.doms.any fun d => d.ctxs.contains c then evNext s
  else evNext (s.updCtx c fun y => if y.onCore then { y with preempt := true } else y)

end Sys2Proof.Machine
end

