-- ==== Sys2Proof/Machine/Copy.lean ====
section
/-!
DEFINITION. Slot C at issue (09 R222 to R250, R254 to R256): the checks of a copy command, the window, stream bindings,
tensor maps, polling and cancelling.
-/
namespace Sys2Proof.Machine

/-- The malformed-copy fault of R227. -/
def malformed {α : Type} : Op α := trapOp 0x0B 1
def needCopy (b : Bool) : Op Unit := need b 0x0B 1

/-! ### Tensor maps (R241) -/

def mapEsize (m : BitVec 768) : Nat := 2 ^ bitsOf 60 2 m.toNat
def mapBase (m : BitVec 768) : Nat := bitsOf 0 56 m.toNat
def mapFill (m : BitVec 768) : Nat := bitsOf 64 64 m.toNat
/-- Dimension record `d`: it stands at byte 16 + 12d. -/
def mapRec (m : BitVec 768) (d : Nat) : Nat := bitsOf (128 + 96 * d) 96 m.toNat
def mapExt (m : BitVec 768) (d : Nat) : Nat := bitsOf 0 32 (mapRec m d)
def mapStep (m : BitVec 768) (d : Nat) : Int := sextN 40 (bitsOf 32 40 (mapRec m d))
def mapBox (m : BitVec 768) (d : Nat) : Nat := bitsOf 72 16 (mapRec m d)
/-- Elements of the box. -/
def boxElems (m : BitVec 768) : Nat := (List.range (mapNdim m)).foldl (fun a d => a * mapBox m d) 1
def boxBytes (m : BitVec 768) : Nat := mapEsize m * boxElems m

/-- Whether a map breaks R241 or R9. -/
def mapBad (m : BitVec 768) : Bool :=
  let n := m.toNat
  let nd := mapNdim m
  bitsOf 62 2 n != 0 || bitsOf 59 1 n != 0 || nd = 0 || nd = 7 || mapBase m % mapEsize m != 0
    || (mapEsize m < 8 && 2 ^ (8 * mapEsize m) ≤ mapFill m) || bitsOf 704 64 n != 0
    || (List.range 6).any (fun d => if d < nd then bitsOf 88 8 (mapRec m d) != 0 || mapBox m d = 0 || mapExt m d = 0 else mapRec m d != 0)
    || boxBytes m % 32 != 0 || 1048576 < boxBytes m

/-- The byte at `pa` once the stores of the bundle in issue have been made to what stood there before. -/
def alongByte (l : List Along) (pa : Nat) (b0 : Byte) : Byte :=
  l.foldl (fun b a => match a with
    | .glob g =>
      (match g.kind with
       | .store bytes mask => g.parts.foldl (fun b p =>
          let i := p.off + (pa - p.pa)
          if p.pa ≤ pa && decide (pa < p.pa + p.len) && (if p.sh then g.shMask else mask).getD i false
          then (if p.sh then g.shBytes else bytes).getD i b else b) b
       | _ => b)
    | .spad _ => b) b0
/-- What the context reads at `va` behind the slot W store of the bundle in issue (R29, R208). DESIGN CHOICE: of an atomic in slot W,
which is performed only after the bundle has issued, the read finds the value before it (log 89). -/
def behindStores (s : State) (va : Nat) (b : List Byte) : List Byte :=
  match trRun s s.cur.cid s.cur.bind.vf .r va b.length with
  | .error _ => b
  | .ok runs => b.zipIdx.map fun x =>
    match runs.find? fun t => t.1 ≤ va + x.2 && decide (va + x.2 < t.1 + t.2.1) with
    | some t => alongByte s.cur.iss.along (t.2.2.pa + (va + x.2 - t.1)) x.1
    | none => x.1

/-- TMAP (R242): the read follows the context's own earlier stores, that of its bundle's slot W among them (R29). -/
def opTmap (f : XCF) (s : State) : Op State := do
  notInTask s
  let a ← rdE s 0 (f.ext.extractLsb' 43 5)
  if bitsOf 56 8 a.toNat != 0 then trapAt 0x07 1 a.toNat
  else if a.toNat % 32 != 0 then trapAt 0x04 0 a.toNat
  else do
    let b ← slotRead s 6 a.toNat 96
    let m := BitVec.ofNat 768 (leNat (behindStores s a.toNat b))
    if mapBad m then trapOp 0x0B 2
    else .ok (s.updCur fun c => { c with maps := c.maps.setIfInBounds (bitsOf 40 3 f.ext.toNat) (some m) })

/-- The map a copy command captures: from the replay entry when it is re-injected, else its slot (R229, R339). -/
def copyMap (s : State) (i : Instr) : Op (BitVec 768) :=
  match s.cur.iss.cap with
  | some e => if e.b1.tag = illegalTag then malformed else .ok (e.b1.val.setWidth 768)
  | none => (match s.cur.mapOf i with
    | some m => .ok m
    | none => malformed)

/-! ### Locations of a command (R222, R223) -/

/-- A location word of a source or destination, checked against the kinds allowed; a KIND 1 word needs an allocation, a KIND 2
word an enabled tile (R15), a KIND 3 word a tag that rows can carry (R95). -/
def copyLoc (s : State) (w : Word) (glob here remote stream : Bool) : Op Loc :=
  match parseLoc w with
  | .glob va => if glob then .ok (.glob va) else malformed
  | .here off => if here && s.cur.bind.banks != 0 && off % 32 = 0 then .ok (.here off) else malformed
  | .remote t off => if remote && off % 32 = 0 && siteEnabled s t then .ok (.remote t off) else malformed
  | .stream q tag => if stream && tagOk tag then .ok (.stream q tag) else malformed
  | .bad => malformed

/-- A flat global location must be 16-byte aligned (R248). -/
def flatLoc (s : State) (w : Word) (glob here remote stream : Bool) : Op Loc := do
  let l ← copyLoc s w glob here remote stream
  match l with
  | .glob va => if va % 16 = 0 then .ok l else malformed
  | _ => .ok l

def Loc.isHere : Loc → Bool
  | .here _ => true
  | _ => false
def Loc.isSpad : Loc → Bool
  | .here _ => true
  | .remote _ _ => true
  | _ => false
def Loc.isStream : Loc → Bool
  | .stream _ _ => true
  | _ => false

/-- A length scalar (R248), with its bits 63:32 in `hi`. -/
def copyLen (w : Word) (hi : Nat) : Op Nat := do
  let n := bitsOf 0 32 w.toNat
  needCopy (bitsOf 32 32 w.toNat = hi && n % 32 = 0 && decide (32 ≤ n) && decide (n ≤ 1048576))
  .ok n

/-- The barrier of a command: none when its field is 0 (R224, R227, R301). -/
def copyBar (s : State) (sbr : BitVec 5) (w : Word) : Op (Option CopyBar) :=
  if sbr = 0 then .ok none
  else do
    let a ← syncAddr s w true
    .ok (some ⟨a.loc, a.word, a.key, a.shadow, w.toNat % 16, 0⟩)
/-- The scalar of the barrier field as engine operand `pos`; SBR 0 names none (R224, R233). -/
def rdBar (s : State) (pos : Nat) (sbr : BitVec 5) : Op Word := if sbr = 0 then .ok 0 else rdE s pos sbr

/-! ### The window (R226, R228) -/

/-- Rows a command delivers to a stream register take their ring positions in issue order (R251). -/
def assignRows (c : Ctx) (q rows : Nat) : Ctx × Option Nat :=
  match c.win.q.toList[q]? with
  | some b =>
    if b.valid then
      ({ c with win := { c.win with q := c.win.q.setIfInBounds q { b with wr := (b.wr + rows) % 16, assigned := b.assigned + rows } } },
        some b.assigned)
    else (c, none)
  | none => (c, none)

/-- A store of a tensor box (R244). -/
def CopyCmd.isTenStore (x : CopyCmd) : Bool :=
  match x.op with
  | .cpyTen _ f => f.ext.getLsbD 1
  | _ => false
def CopyCmd.isScat (x : CopyCmd) : Bool :=
  match x.op with
  | .cpyScat .. => true
  | _ => false
/-- The location word of the flat destination, where there is one. -/
def CopyCmd.dstWord (x : CopyCmd) : Word :=
  match x.op with
  | .cpyTen .. => x.ops.getD ((mapNdim x.map - 1) / 2 + 1) 0
  | .cpyGath .. => x.ops.getD 2 0
  | .cpyFill .. => x.ops.getD 0 0
  | _ => x.ops.getD 1 0
/-- The stream register a command delivers to. -/
def CopyCmd.streamDst (x : CopyCmd) : Option Nat :=
  if x.isTenStore || x.isScat then none
  else match parseLoc x.dstWord with
  | .stream q _ => some q
  | _ => none

/-- Commands that were issued while Qn was unbound take their positions once it is bound, before every later one (R251). -/
def lateAssign (c : Ctx) (q : Nat) : Ctx :=
  (List.range 16).foldl (fun y n =>
    let e := (y.win.head + n) % 16
    match look e y.win.cmds with
    | none => y
    | some x =>
      if x.ringPos.isNone && x.streamDst = some q && decide (1 ≤ x.state) && decide (x.state ≤ 3) then
        let r := assignRows y q (x.total / 8)
        { r.1 with win := { r.1.win with cmds := put e { x with ringPos := r.2 } r.1.win.cmds } }
      else y) c

def Window.full (w : Window) : Bool := (w.tail + 32 - w.head) % 32 = 16

/-- The command takes the entry at the tail (R226, R231). -/
def takeEntry (s : State) (i : Instr) (f : ENF) (ops : List Word) (bytes : Nat) (map : BitVec 768) (dst : Loc)
    (bar : Option CopyBar) : Op State := do
  tokenFree s f.tkd
  if s.cur.win.full then
    if s.cur.win.strict then trapOp 0x23 0
    else if s.cur.reads.contains stallMark then holdOp s (.wait .window)
    else holdOp (s.updCur fun c => { c.countStall with reads := stallMark :: c.reads }) (.wait .window)
  else
    let c := s.cur
    let r := match dst with
      | .stream q _ => assignRows (lateAssign c q) q (bytes / 256)
      | _ => (c, none)
    let x : CopyCmd := {
      id := s.uid, op := (decodeSlot 6 c.iss.rep.slotw).getD i, state := 1, ops := ops, total := bytes / 32, cursor := 0, done := [], fault := 0, map := map,
      waits := consumed c f, tk := f.tkd.toNat, ringPos := r.2, entries := [], badEntries := [], part := [], pc := c.pc
      bar := bar.map fun b => { b with cmd := s.uid }
      nAcq := c.view.acqs.length, nKnown := c.view.known.length, moors := c.moorings, ws := [], ord := c.seq }
    let w := r.1.win
    .ok { s with
      uid := s.uid + 1
      cur := bindToken { r.1 with win := { w with tail := (w.tail + 1) % 32, cmds := put (w.tail % 16) x w.cmds } } f.tkd.toNat s.uid }

/-! ### Flat copies (R248, R249) -/

def opCpyRow (f : ENF) (s : State) : Op State := do
  notInTask s
  let ss ← rdE s 0 (f.ext.extractLsb' 16 5)
  let sd ← rdE s 1 (f.ext.extractLsb' 11 5)
  let sb ← rdBar s 2 (f.ext.extractLsb' 6 5)
  let tag := f.ext.getLsbD 1
  let src ← flatLoc s ss true true false false
  let dst ← flatLoc s sd true true true true
  needCopy (!(src.isHere && dst.isHere) && !(tag && (src.isSpad || dst.isSpad)))
  let bar ← copyBar s (f.ext.extractLsb' 6 5) sb
  takeEntry s (.cpyRow anyGuard f) f [ss, sd, sb] (256 * (bitsOf 2 4 f.ext.toNat + 1)) 0 dst bar

def opCpySpad (f : ENF) (s : State) : Op State := do
  notInTask s
  let ss ← rdE s 0 (f.ext.extractLsb' 16 5)
  let sd ← rdE s 1 (f.ext.extractLsb' 11 5)
  let sl ← rdE s 2 (f.ext.extractLsb' 6 5)
  let sb ← rdBar s 3 (f.ext.extractLsb' 1 5)
  let _ ← flatLoc s ss false true false false
  let dst ← flatLoc s sd false true true false
  let n ← copyLen sl 0
  let bar ← copyBar s (f.ext.extractLsb' 1 5) sb
  takeEntry s (.cpySpad anyGuard f) f [ss, sd, sl, sb] n 0 dst bar

def opCpyFill (f : ENF) (s : State) : Op State := do
  notInTask s
  let sd ← rdE s 0 (f.ext.extractLsb' 16 5)
  let sl ← rdE s 1 (f.ext.extractLsb' 11 5)
  let sv ← rdE s 2 (f.ext.extractLsb' 6 5)
  let sb ← rdBar s 3 (f.ext.extractLsb' 1 5)
  let dst ← flatLoc s sd true true true false
  let n ← copyLen sl 0
  let bar ← copyBar s (f.ext.extractLsb' 1 5) sb
  takeEntry s (.cpyFill anyGuard f) f [sd, sl, sv, sb] n 0 dst bar

def opCpyRed (f : ENF) (s : State) : Op State := do
  notInTask s
  let ss ← rdE s 0 (f.ext.extractLsb' 16 5)
  let sd ← rdE s 1 (f.ext.extractLsb' 11 5)
  let sl ← rdE s 2 (f.ext.extractLsb' 6 5)
  let sb ← rdBar s 3 (f.ext.extractLsb' 1 5)
  let tag := f.ext.getLsbD 0
  let src ← flatLoc s ss true true false false
  let dst ← flatLoc s sd true false true false
  needCopy (!(tag && (src.isSpad || dst.isSpad)))
  let rc := bitsOf 32 32 sl.toNat
  needCopy (rc ≤ 7)
  let n ← copyLen sl rc
  let bar ← copyBar s (f.ext.extractLsb' 1 5) sb
  takeEntry s (.cpyRed anyGuard f) f [ss, sd, sl, sb] n 0 dst bar

/-! ### Tensor, gather and scatter copies (R244 to R247) -/

/-- The captured coordinate scalars, from SCO up. -/
def readCoords (s : State) (sco : Nat) : Nat → Nat → Op (List Word)
  | _, 0 => .ok []
  | k, n + 1 => do
    let x ← rdE s k (BitVec.ofNat 5 (sco + k))
    let r ← readCoords s sco (k + 1) n
    .ok (x :: r)

def opCpyTen (f : ENF) (s : State) : Op State := do
  notInTask s
  let m ← copyMap s (.cpyTen anyGuard f)
  let nc := (mapNdim m - 1) / 2 + 1
  let sco := bitsOf 13 5 f.ext.toNat
  needCopy (sco + nc ≤ 32)
  let cs ← readCoords s sco 0 nc
  let sl ← rdE s nc (f.ext.extractLsb' 8 5)
  let sb ← rdBar s (nc + 1) (f.ext.extractLsb' 3 5)
  let st := f.ext.getLsbD 1
  let l ← copyLoc s sl false true (!st) (!st)
  needCopy (!(f.ext.getLsbD 2 && l.isSpad) && !(l.isStream && boxBytes m % 256 != 0))
  let bar ← copyBar s (f.ext.extractLsb' 3 5) sb
  takeEntry s (.cpyTen anyGuard f) f (cs ++ [sl, sb]) (boxBytes m) m (if st then .glob 0 else l) bar

/-- What gather and scatter share: the map, the list, the count and the row size (R245). -/
def listCopy (s : State) (i : Instr) (si : Nat) (w n : Word) : Op (BitVec 768 × Nat) := do
  let m ← copyMap s i
  needCopy (si ≤ 30)
  needCopy (mapNdim m = 2 && mapBox m 1 = 1)
  let r := mapBox m 0 * mapEsize m
  match parseLoc w with
  | .glob va => needCopy (va % 2 = 0)
  | .here off => needCopy (off % 2 = 0 && s.cur.bind.banks != 0)
  | _ => malformed
  needCopy (r % 32 = 0 && decide (1 ≤ n.toNat) && decide (n.toNat ≤ 65536) && decide (n.toNat * r ≤ 1048576))
  .ok (m, n.toNat * r)

def opCpyGath (f : ENF) (s : State) : Op State := do
  notInTask s
  let si := bitsOf 13 5 f.ext.toNat
  let w ← rdE s 0 (f.ext.extractLsb' 13 5)
  let n ← rdE s 1 (BitVec.ofNat 5 (si + 1))
  let sd ← rdE s 2 (f.ext.extractLsb' 8 5)
  let sb ← rdBar s 3 (f.ext.extractLsb' 3 5)
  let x ← listCopy s (.cpyGath anyGuard f) si w n
  let l ← copyLoc s sd false true true true
  needCopy (!(f.ext.getLsbD 2 && l.isSpad) && !(l.isStream && (mapBox x.1 0 * mapEsize x.1) % 256 != 0))
  let bar ← copyBar s (f.ext.extractLsb' 3 5) sb
  takeEntry s (.cpyGath anyGuard f) f [w, n, sd, sb] x.2 x.1 l bar

def opCpyScat (f : ENF) (s : State) : Op State := do
  notInTask s
  let si := bitsOf 13 5 f.ext.toNat
  let w ← rdE s 0 (f.ext.extractLsb' 13 5)
  let n ← rdE s 1 (BitVec.ofNat 5 (si + 1))
  let ss ← rdE s 2 (f.ext.extractLsb' 8 5)
  let sb ← rdBar s 3 (f.ext.extractLsb' 3 5)
  let x ← listCopy s (.cpyScat anyGuard f) si w n
  let _ ← copyLoc s ss false true false false
  let bar ← copyBar s (f.ext.extractLsb' 3 5) sb
  takeEntry s (.cpyScat anyGuard f) f [w, n, ss, sb] x.2 x.1 (.glob 0) bar

/-! ### Stream bindings (R250) -/

/-- The binding of a stream register with a row still assigned to it must not change. DESIGN CHOICE: the fault's SUB is 8, which R250
does not name (log 72). -/
def drained (s : State) (q : Nat) : Op Unit :=
  let b := s.cur.win.q.toList.getD q QBind.none
  need (b.wr = b.rd) 0x02 8

def setQ (s : State) (q : Nat) (b : QBind) : State :=
  s.updCur fun c => { c with win := { c.win with q := c.win.q.setIfInBounds q b } }

def opCpyBind (f : ENF) (s : State) : Op State := do
  notInTask s
  let w ← rdE s 0 (f.ext.extractLsb' 16 5)
  let l ← copyLoc s w false true false false
  let q := bitsOf 13 3 f.ext.toNat
  match l with
  | .here off => do
    needCopy (off % 256 = 0)
    drained s q
    tokenFree s f.tkd
    .ok (setQ s q { QBind.none with valid := true, ring := off / 256 % 2 ^ 15 })
  | _ => malformed

def opCpyBindOff (f : ENF) (s : State) : Op State := do
  notInTask s
  let q := bitsOf 13 3 f.ext.toNat
  drained s q
  tokenFree s f.tkd
  .ok (setQ s q { (s.cur.win.q.toList.getD q QBind.none) with valid := false })

/-! ### Berths, polling, cancelling (R254 to R256) -/

def opBerthSet (f : XCF) (s : State) : Op State := do
  notInTask s
  .ok (s.updCur fun c => { c with win := { c.win with bmax := bitsOf 41 7 f.ext.toNat } })

/-- CPY.POLL: true when the token is complete at issue. -/
def opCpyPoll (f : XCF) (s : State) : Op State :=
  .ok (emitP s 14 (f.ext.extractLsb' 45 3) (!s.cur.iss.tok0.getLsbD (bitsOf 39 6 f.ext.toNat)) 0)
/-- CPY.POLL.WIN. -/
def opCpyPollWin (f : XCF) (s : State) : Op State := .ok (emitP s 14 (f.ext.extractLsb' 45 3) (!s.cur.win.full) 0)

/-- Entries at the head that are done or cancelled leave the window (R226, R231). -/
def trimWindow : Nat → Window → Window
  | 0, w => w
  | n + 1, w =>
    if w.head = w.tail then w
    else match look (w.head % 16) w.cmds with
    | some x => if 4 ≤ x.state then trimWindow n { w with head := (w.head + 1) % 32, cmds := drp (w.head % 16) w.cmds } else w
    | none => trimWindow n { w with head := (w.head + 1) % 32 }

/-- Whether a row of the command has landed whole and has not arrived (R251, R256). -/
def Window.rowInFlight (w : Window) (id : Nat) : Bool :=
  w.q.toList.any fun b => b.rowsIn.any fun r => r.2.cmd = id && r.2.landed = 8 && !b.arr.getLsbD r.1
/-- A cancelled command starts nothing new; its token completes once nothing of it is in flight, which between sectors is only
a row that has landed and not arrived (R256). DESIGN CHOICE: the copy-fault trap of a stopped command that is cancelled before
the trap is taken is withdrawn (log 99). -/
def cancelIn (c : Ctx) (p : CopyCmd → Bool) : Ctx :=
  let hit := (c.win.cmds.filter fun x => p x.2 && 1 ≤ x.2.state && x.2.state ≤ 3 && !c.win.rowInFlight x.2.id).map fun x => (x.2.id, x.2.ws)
  let c1 := { c with win := trimWindow 16 { c.win with cmds := c.win.cmds.map fun x => if p x.2 then (x.1, cancelCmd x.2) else x } }
  { hit.foldl (fun y h => finishToken y h.1 h.2) c1 with
    pends := c1.pends.filter fun k => !(k.cls = 0x21 && c.win.cmds.any fun x => p x.2 && x.2.state = 3 && k.info = 256 * x.1 + 65536 * x.2.tk) }

/-! ### Berths (R253) -/


/-- The location word of the flat source, where there is one. -/
def CopyCmd.srcWord (x : CopyCmd) : Word :=
  match x.op with
  | .cpyTen .. => x.ops.getD ((mapNdim x.map - 1) / 2 + 1) 0
  | .cpyScat .. => x.ops.getD 2 0
  | _ => x.ops.getD 0 0
/-- Whether the command reads global memory (R253). -/
def CopyCmd.readsGlobal (x : CopyCmd) : Bool :=
  match x.op with
  | .cpyTen .. => !x.isTenStore
  | .cpyGath .. => true
  | .cpyScat .. => bitsOf 62 2 (x.ops.getD 0 0).toNat = 0
  | .cpyRow .. => bitsOf 62 2 x.srcWord.toNat = 0
  | .cpyRed .. => bitsOf 62 2 x.srcWord.toNat = 0
  | _ => false

/-- Whether the command runs and has reads that need berths. -/
def CopyCmd.wantsBerths (x : CopyCmd) : Bool := x.state = 2 && decide (x.cursor < x.total) && x.readsGlobal
/-- Berths of a context without a running read are returned (R253). -/
def returnBerths (s : State) (cid : Nat) : State :=
  if (s.ctx cid).win.cmds.any fun y => y.2.wantsBerths then s
  else
    let t := s.tile (tileOf cid)
    s.setTile { t with berths := drp cid t.berths }

def opCpyCancel (f : XCF) (s : State) : Op State := do
  notInTask s
  .ok (returnBerths ((dropWaits s (engineOf s.cur.cid)).updCur fun c => match look (bitsOf 42 6 f.ext.toNat) c.tokBind with
    | some id => cancelIn c fun x => x.id = id
    | none => c) s.cur.cid)
def opCpyCancelAll (_f : XCF) (s : State) : Op State := do
  notInTask s
  .ok (returnBerths ((dropWaits s (engineOf s.cur.cid)).updCur fun c => cancelIn c fun _ => true) s.cur.cid)

end Sys2Proof.Machine
end

