-- ==== Sys2Proof/Machine/Record.lean ====
section
/-!
DEFINITION. The virtual engine queue record (09 R232 to R234): the copy window as bytes of the save area, and back.
-/
namespace Sys2Proof.Machine

/-- `n` scalars of 8 bytes, zero past the end. -/
def wordsBytes (n : Nat) (l : List Word) : List Byte := (List.range n).flatMap fun i => leBytes 8 (l.getD i 0).toNat

/-- Bit j of DONE: sector CURSOR + 1 + j is complete. -/
def CopyCmd.doneBits (x : CopyCmd) : Nat :=
  (x.done.filter fun k => x.cursor < k && k ≤ x.cursor + 256).foldl (fun n k => n ||| 2 ^ (k - x.cursor - 1)) 0

/-- A window entry in 256 bytes (R233). -/
def cmdBytes (x : CopyCmd) : List Byte :=
  leBytes 8 ((encodeSlot x.op).toNat + x.state * 2 ^ 60) ++ wordsBytes 6 x.ops ++ leBytes 8 (x.cursor + x.total * 2 ^ 32)
    ++ leBytes 32 x.doneBits ++ leBytes 8 x.fault.toNat ++ zeros 24 ++ leBytes 96 x.map.toNat ++ zeros 32

/-- A binding in 4 bytes (R232). -/
def bindWord (b : QBind) : Nat :=
  (if b.valid then 2 ^ 31 else 0) + b.arr.toNat * 2 ^ 23 + b.ring * 2 ^ 8 + b.rd * 2 ^ 4 + b.wr

/-- The record in 4,160 bytes. -/
def windowBytes (w : Window) : List Byte :=
  leBytes 8 (w.stalls.toNat * 2 ^ 32 + (if w.strict then 2 ^ 24 else 0) + w.bmax * 2 ^ 16 + w.head * 2 ^ 8 + w.tail)
    ++ zeros 8 ++ (w.q.toList.flatMap fun b => leBytes 4 (bindWord b)) ++ zeros 16
    ++ (List.range 16).flatMap fun i => match look i w.cmds with
      | some x => cmdBytes x
      | none => zeros 256

/-- A command that only the record knows: it waits for no token. -/
def CopyCmd.blank (i : Instr) : CopyCmd :=
  { id := 0, op := i, state := 0, ops := [], total := 0, cursor := 0, done := [], fault := 0, map := 0, waits := [],
    tk := 0, ringPos := none, entries := [], badEntries := [], part := [], pc := 0, bar := none, nAcq := 0, nKnown := 0, moors := [], ws := [], ord := 0 }

/-- The token a command's slot bits name. -/
def cmdToken (i : Instr) : Nat := ((tokenOf i).map BitVec.toNat).getD 0

/-- An entry read back over what the engine remembers of it: `some none` for a free one, none for a malformed one (R234). -/
def cmdOf (old : Option CopyCmd) (l : List Byte) : Option (Option CopyCmd) :=
  let w := numAt l 0 8
  let st := bitsOf 60 3 w
  let map := BitVec.ofNat 768 (numAt l 128 96)
  if bitsOf 63 1 w != 0 || 5 < st || !zeroAt l 104 24 || !zeroAt l 224 32 || (map != 0 && mapBad map) then none
  else if st = 0 then some none
  else match decodeSlot 6 (BitVec.ofNat 60 w) with
    | none => none
    | some i =>
      let x := old.getD (CopyCmd.blank i)
      let cur := numAt l 56 4
      some (some { x with
        op := i, state := st, ops := (List.range (if old.isSome then x.ops.length else 6)).map fun k => wordAt l (8 + 8 * k)
        cursor := cur, total := numAt l 60 4
        done := (List.range 256).filterMap fun j => if bitsOf j 1 (numAt l 64 32) = 1 then some (cur + 1 + j) else none
        fault := wordAt l 96, tk := cmdToken i, map := map })

/-- A binding read back over what the engine remembers of its rows. -/
def bindOf (old : QBind) (w : Nat) : QBind :=
  { old with valid := bitsOf 31 1 w = 1, arr := BitVec.ofNat 8 (bitsOf 23 8 w), ring := bitsOf 8 15 w, rd := bitsOf 4 4 w, wr := bitsOf 0 4 w }

/-- The record read back; none when a reserved field is not zero (R234). -/
def windowOf (old : Window) (l : List Byte) : Option Window :=
  let h := numAt l 0 8
  if bitsOf 25 7 h != 0 || bitsOf 13 3 h != 0 || bitsOf 5 3 h != 0 || !zeroAt l 8 8 || !zeroAt l 48 16 then none
  else
    match allSome ((List.range 16).map fun i => (cmdOf (look i old.cmds) ((l.drop (64 + 256 * i)).take 256)).map fun x => (i, x)) with
    | none => none
    | some cs => some {
        stalls := BitVec.ofNat 32 (h / 2 ^ 32), strict := bitsOf 24 1 h = 1, bmax := bitsOf 16 8 h, head := bitsOf 8 5 h,
        tail := bitsOf 0 5 h
        q := Vector.ofFn fun i => bindOf (old.q.toList.getD i.val QBind.none) (numAt l (16 + 4 * i.val) 4)
        cmds := cs.filterMap fun x => x.2.map fun y => (x.1, y) }

/-- Where the record lies (R346). -/
def recordBase (c : Ctx) : Nat := c.crs.sabase.toNat + 0x0C00

/-- Where the token states lie (R346; log 14). -/
def tokenBase (c : Ctx) : Nat := c.crs.sabase.toNat + 0x40 + 730

/-- A part of the area rewritten; a write that faults leaves it. -/
def rewrite (s : State) (c : Ctx) (va : Nat) (bytes : List Byte) : State :=
  match devWrite s (devAgent c.bind.vf) c.bind.vf va bytes with
  | .ok (t, _) => t
  | .error _ => s

/-- From its context's save until it is restored the engine keeps the record in memory up to date (R234), with the states of the
tokens its commands complete (R309). -/
def updRecord (s : State) (cid : Nat) : State :=
  let c := s.ctx cid
  if c.status = .saved || c.status = .restoring then
    rewrite (rewrite s c (recordBase c) (windowBytes c.win)) c (tokenBase c) (leBytes 8 c.tok.toNat)
  else s

/-- The outcome of an event on a context's copy window. -/
def evCopy (s : State) (cid : Nat) : Host.Outcome State Fault Refusal := evNext (updRecord s cid)

end Sys2Proof.Machine
end

