-- ==== Sys2Proof/Machine/CopyEvents.lean ====
section
/-!
DEFINITION. What the copy engine does after issue (09 R230, R231, R235 to R253, 05 R128): start, berths, sectors, rows of
stream registers, completion, stops.
-/
namespace Sys2Proof.Machine

/-! ### What a command is -/

/-- The ext field of a copy command. -/
def copyExt (i : Instr) : BitVec 21 :=
  match i with
  | .cpyTen _ f => f.ext
  | .cpyRow _ f => f.ext
  | .cpyGath _ f => f.ext
  | .cpyScat _ f => f.ext
  | .cpySpad _ f => f.ext
  | .cpyRed _ f => f.ext
  | .cpyFill _ f => f.ext
  | _ => 0

/-- TAG (R224). -/
def CopyCmd.tagged (x : CopyCmd) : Bool :=
  match x.op with
  | .cpyTen _ f => f.ext.getLsbD 2
  | .cpyRow _ f => f.ext.getLsbD 1
  | .cpyGath _ f => f.ext.getLsbD 2
  | .cpyRed _ f => f.ext.getLsbD 0
  | _ => false

/-- Captured scalars of the box coordinates (R244). -/
def CopyCmd.coords (x : CopyCmd) : List Word := x.ops.take ((mapNdim x.map - 1) / 2 + 1)
def CopyCmd.coord (x : CopyCmd) (d : Nat) : Int := sextN 32 (bitsOf (32 * (d % 2)) 32 (x.ops.getD (d / 2) 0).toNat)
/-- Row size of gather and scatter (R245). -/
def CopyCmd.rowSize (x : CopyCmd) : Nat := mapBox x.map 0 * mapEsize x.map


/-! ### Bytes -/

/-- Where a byte of the box comes from, and where it goes. -/
inductive CByte where
  | imm (b : Byte)
  | glob (va : Nat)
  | spad (k : Nat)
  | skip
  deriving DecidableEq, Repr

/-- Why a sector is not performed now. -/
inductive CErr where
  | fault (cls sub addr : Nat)
  | wait
  | miss (page : Nat)
  deriving DecidableEq, Repr

/-- Element number `n` of the dense box along dimension `d` (R244). -/
def boxIndex (m : BitVec 768) (n d : Nat) : Nat :=
  (n / (List.range d).foldl (fun a k => a * mapBox m k) 1) % mapBox m d

/-- Whether box element `n` lies inside the tensor, and its address (R241, R244). -/
def boxElem (x : CopyCmd) (n : Nat) : Bool × Nat :=
  let ds := List.range (mapNdim x.map)
  let pos (d : Nat) : Int := x.coord d + boxIndex x.map n d
  let inside := ds.all fun d => decide (0 ≤ pos d) && decide (pos d < mapExt x.map d)
  let sum := ds.foldl (fun a d => a + pos d * mapStep x.map d) (0 : Int)
  (inside, wrapN 64 ((mapBase x.map : Int) + mapEsize x.map * sum))

/-- Byte `b` of the fill element (R241). -/
def fillByte (m : BitVec 768) (b : Nat) : Byte := BitVec.ofNat 8 (mapFill m >>> (8 * (b % mapEsize m)))

/-- Byte `o` of a flat location of the command's context. -/
def flatByte (s : State) (c : Ctx) (w : Word) (o : Nat) : CByte :=
  match parseLoc w with
  | .glob va => .glob (va + o)
  | .here off => .spad (spadKey (tileOf c.cid) (c.spadOff (off + o)))
  | .remote t off => .spad (remoteKey s t (off + o))
  | _ => .skip

/-- Byte `o` of row `v` of the tensor of a gather or scatter (R245): `none` at or beyond extent 0. -/
def rowByte (x : CopyCmd) (v o : Nat) : Option Nat :=
  let es := mapEsize x.map
  let i := o % x.rowSize / es
  if i < mapExt x.map 0 then
    some (wrapN 64 ((mapBase x.map : Int) + es * (i * mapStep x.map 0 + v * mapStep x.map 1)) + o % es)
  else none

/-- Source of byte `o`; `v` is the entry's index value in a gather. -/
def srcByte (s : State) (c : Ctx) (x : CopyCmd) (v o : Nat) : CByte :=
  match x.op with
  | .cpyFill .. => .imm (BitVec.ofNat 8 ((x.ops.getD 2 0).toNat >>> (8 * (o % 8))))
  | .cpyTen .. =>
    if x.isTenStore then flatByte s c x.srcWord o
    else
      let es := mapEsize x.map
      let e := boxElem x (o / es)
      if e.1 then .glob (e.2 + o % es) else .imm (fillByte x.map o)
  | .cpyGath .. =>
    if v = 0xFFFF || mapExt x.map 1 ≤ v then .imm (fillByte x.map o)
    else match rowByte x v o with
      | some va => .glob va
      | none => .imm (fillByte x.map o)
  | _ => flatByte s c x.srcWord o

/-- Destination of byte `o`; `skip` where nothing is written. -/
def dstByte (s : State) (c : Ctx) (x : CopyCmd) (v o : Nat) : CByte :=
  match x.op with
  | .cpyTen .. =>
    if x.isTenStore then
      let es := mapEsize x.map
      let e := boxElem x (o / es)
      if e.1 then .glob (e.2 + o % es) else .skip
    else flatByte s c x.dstWord o
  | .cpyScat .. =>
    if v = 0xFFFF || mapExt x.map 1 ≤ v then .skip
    else match rowByte x v o with
      | some va => .glob va
      | none => .skip
  | _ => flatByte s c x.dstWord o

/-! ### Translation and reading -/

def trCopy (s : State) (c : Ctx) (need : Need) (va : Nat) : Except CErr Tr :=
  match translate s (engineOf c.cid) c.bind.vf need (BitVec.ofNat 64 va) with
  | .ok t => .ok t
  | .fault sub => .error (.fault 0x07 sub va)
  | .miss p => .error (.miss p)

/-- What an engine's read of a piece returns: the piece's bytes and the write's identity (R237, R320). It goes back past no
write of its context, of its own or visible in one of the bytes `peers` read of the piece, and not behind its previous read. -/
def engPiece (s : State) (c : Ctx) (x : CopyCmd) (t : Tr) (va pick : Nat) (peers : List Nat) : List Byte × Option Nat :=
  let piece := t.pa / 16
  let last := look piece c.view.lastEng
  let mine := va :: peers.filter fun a => a / 16 = va / 16
  let lo := mine.foldl (fun m a => min m (a % 16 / 4 * 4)) 12
  let hi := mine.foldl (fun m a => max m (a % 16 / 4 * 4 + 4)) 4
  let stop (w : WRec) : Bool :=
    w.agent = c.cid || w.agent = engineOf c.cid || last = some w.id
      || mine.any fun a => visibleTo c.view x.nAcq x.nKnown x.moors c.bind.vf a 1 w.id
  goBack piece c.bind.vf t.key lo (hi - lo) stop (physRead s (16 * piece) 16 t.key) pick s.hist
/-- A byte read from global memory: the context's own earlier stores come first (R208). -/
def globByte (s : State) (c : Ctx) (x : CopyCmd) (t : Tr) (va pick : Nat) (peers : List Nat) : Except CErr Byte :=
  if s.gops.any fun g => g.agent = c.cid && g.id < x.id && g.writes && g.parts.any fun p => p.touches t.pa 1 then .error .wait
  else .ok ((engPiece s c x t va pick peers).1.getD (t.pa % 16) 0)
/-- What an engine's read of a piece of a scratchpad returns: a copy's write that is neither its own nor visible to it may be missing
(R320). -/
def engSpad (s : State) (c : Ctx) (x : CopyCmd) (k pick : Nat) : List Byte × Option Nat :=
  let at_ := 16 * (k / 16)
  let stop (w : WRec) : Bool := w.agent = engineOf c.cid || look (spadPiece k) c.view.lastEng = some w.id
    || visibleTo c.view x.nAcq x.nKnown x.moors c.bind.vf (spadVa at_) 16 w.id
  goBack (spadPiece k) c.bind.vf none 0 16 stop (memRead s.spad at_ 16) pick s.hist
/-- Remember which writes an engine's reads at these addresses and places returned (R320). -/
def noteEng (s : State) (cid : Nat) (x : CopyCmd) (pick : Nat) (vas : List Nat) (ks : List Nat) : State :=
  let c := s.ctx cid
  let here := (ks.filter fun k => s.hist.any fun w => w.piece = spadPiece k).filterMap fun k =>
    ((engSpad s c x k pick).2).map fun w => (spadPiece k, w)
  let got := here ++ vas.filterMap fun va => match trCopy s c .r va with
    | .ok t => ((engPiece s c x t va pick vas).2).map fun w => (t.pa / 16, w)
    | .error _ => none
  s.updCtx cid fun y => { y with view := { y.view with lastEng := got.foldl (fun l g => put g.1 g.2 l) y.view.lastEng } }

/-- The float element of `esz` bytes that a piece holds at a place. -/
def elemAt (piece : List Byte) (pa esz : Nat) : Nat := leNat ((piece.drop (pa % 16 - pa % 16 % esz)).take esz)
/-- The count of the float element of `esz` bytes at `va`, of value `v` (R105, R121 to R123, R128); 0 where counts are not
carried from a shadow. -/
def srcCount (s : State) (c : Ctx) (t : Tr) (va esz p v : Nat) (tagged : Bool) : Except CErr Nat :=
  match twMode t.tagw with
  | 0 => .ok (clampCount p v p)
  | 1 => .ok (clampCount p v (twFix t.tagw))
  | _ =>
    if !tagged then .ok 0
    else if twSize t.tagw != esz then .error (.fault 0x08 0 va)
    else
      let sv := twBase t.tagw + (va - t.base) / esz
      match trCopy s c .r sv with
      | .error e => .error e
      | .ok u => .ok (clampCount p v (((physRead s u.pa 1 u.key).getD 0 0).toNat % 32))

/-- A byte of a sector as read: its value, whether poisoned, the count of its element. -/
structure RByte where
  val : Byte
  bad : Bool
  cnt : Nat
  deriving DecidableEq, Repr

/-- Whether the context's group has released the bank of a scratchpad place of its own tile (R377). -/
def spadReleased (s : State) (c : Ctx) (k : Nat) : Bool := k / 2 ^ 23 = tileOf c.cid && groupReleased s c (k % 2 ^ 23 / 2 ^ 18)

/-- Whether the elements whose counts a command carries are judged where they are used, the lanes of a delivered row and the
operands of a reduction (R105, R249, R252). -/
def CopyCmd.judgedLater (x : CopyCmd) : Bool :=
  match x.op with
  | .cpyRed .. => true
  | _ => (parseLoc x.dstWord).isStream

/-- The byte at a scratchpad place as command `x` reads it (R377). -/
def spadByteFor (s : State) (c : Ctx) (x : CopyCmd) (pick k : Nat) : Byte :=
  if k / 2 ^ 23 = tileOf c.cid && releasedTo s c (k % 2 ^ 23 / 2 ^ 18) x.id then 0
  else if s.hist.any fun w => w.piece = spadPiece k then (engSpad s c x k pick).1.getD (k % 16) 0 else memByte s.spad k

/-- Where byte `o` of a command stands in the order of an audit's log. -/
def CopyCmd.logKey (x : CopyCmd) (o : Nat) : Nat := x.ord * 2 ^ 64 + o
/-- The byte that a replay's copy takes from the log (19 R469). -/
def loggedByte (s : State) (c : Ctx) (x : CopyCmd) (kind : DatumKind) (o : Nat) : Option RByte :=
  match (replayFor s c.cid).bind fun a => a.at_ c.cid kind (x.logKey o) with
  | some (.byte b bad n) => some ⟨b, bad, n⟩
  | _ => none
/-- Whether a byte lies outside the context's allocation (19 R468). -/
def CByte.outside (c : Ctx) : CByte → Bool
  | .glob _ => true
  | .spad k => k / 2 ^ 23 != tileOf c.cid
  | _ => false

/-- Read byte `o`: `esz` and `p` are the size and precision of the float elements whose counts are carried, 0 for none. -/
def readByte (s : State) (c : Ctx) (x : CopyCmd) (v esz p pick : Nat) (peers : List Nat) (o : Nat) : Except CErr RByte :=
  match loggedByte s c x .copy o with
  | some b => .ok b
  | none =>
  match srcByte s c x v o with
  | .imm b => .ok ⟨b, false, p⟩
  | .skip => .ok ⟨0, false, p⟩
  | .spad k => .ok ⟨spadByteFor s c x pick k, false, p⟩
  | .glob va =>
    match trCopy s c .r va with
    | .error e => .error e
    | .ok t =>
      match globByte s c x t va pick peers with
      | .error e => .error e
      | .ok b =>
        if esz = 0 then .ok ⟨b, physPoison s t.pa 1, 0⟩
        else match srcCount s c t va esz p
            (if x.judgedLater then 0 else elemAt (engPiece s c x t va pick peers).1 t.pa esz) x.tagged with
        | .error e => .error e
        | .ok n => .ok ⟨b, physPoison s t.pa 1, n⟩
/-- The global addresses a unit reads. -/
def srcAddrs (s : State) (c : Ctx) (x : CopyCmd) (v : Nat) (os : List Nat) : List Nat :=
  os.filterMap fun o => match srcByte s c x v o with
    | .glob va => some va
    | _ => none

/-- The scratchpad places a unit reads. -/
def srcPlaces (s : State) (c : Ctx) (x : CopyCmd) (v : Nat) (os : List Nat) : List Nat :=
  os.filterMap fun o => match srcByte s c x v o with
    | .spad k => some k
    | _ => none

/-- All of a list, or the first error. -/
def gatherAll {α : Type} : List (Except CErr α) → Except CErr (List α)
  | [] => .ok []
  | x :: r =>
    match x with
    | .error e => .error e
    | .ok a => match gatherAll r with
      | .error e => .error e
      | .ok l => .ok (a :: l)

/-! ### Index entries (R245 to R247) -/

/-- Value of index entry `i`, read when it is first needed, and whether it was poisoned: then the value is free (R209, R236). -/
def readEntry (s : State) (c : Ctx) (x : CopyCmd) (i pick : Nat) : Except CErr (Nat × Bool) :=
  match look i x.entries with
  | some v => .ok (v, x.badEntries.contains i)
  | none =>
    match flatByte s c (x.ops.getD 0 0) (2 * i), flatByte s c (x.ops.getD 0 0) (2 * i + 1) with
    | .spad k, .spad l =>
      .ok (leNat ([k, l].map (spadByteFor s c x pick)), false)
    | .glob a, .glob _ =>
      (match trCopy s c .r a with
       | .error e => .error e
       | .ok t =>
         match globByte s c x t a pick [a + 1] with
         | .error e => .error e
         | .ok _ =>
           .ok (leNat (((engPiece s c x t a pick [a + 1]).1.drop (t.pa % 16)).take 2), physPoison s t.pa 2))
    | _, _ => .ok (0, false)

/-- The global addresses of an index entry that is still to be read. -/
def entryAddrs (s : State) (c : Ctx) (x : CopyCmd) (i : Nat) : List Nat :=
  if (look i x.entries).isSome then []
  else [2 * i, 2 * i + 1].filterMap fun o => match flatByte s c (x.ops.getD 0 0) o with
    | .glob a => some a
    | _ => none
/-- The scratchpad places of an index entry that is still to be read. -/
def entryPlaces (s : State) (c : Ctx) (x : CopyCmd) (i : Nat) : List Nat :=
  if (look i x.entries).isSome then []
  else [2 * i, 2 * i + 1].filterMap fun o => match flatByte s c (x.ops.getD 0 0) o with
    | .spad k => some k
    | _ => none
/-- Reading an index entry: what the read of a piece returned is remembered (R320), and a corrected error is noted (R381). -/
def noteEntry (s : State) (cid : Nat) (x : CopyCmd) (i pick : Nat) : State :=
  let c := s.ctx cid
  let l := entryAddrs s c x i
  let hit := l.any fun a => match trCopy s c .r a with
    | .ok t => correctedAt s t.pa 1
    | .error _ => false
  noteEng (if hit then readCorrected s cid else s) cid x pick l (entryPlaces s c x i)

def CopyCmd.isList (x : CopyCmd) : Bool :=
  match x.op with
  | .cpyGath .. => true
  | .cpyScat .. => true
  | _ => false

/-- Whether sector `j` has been performed (R233). -/
def CopyCmd.has (x : CopyCmd) (j : Nat) : Bool := decide (j < x.cursor) || x.done.contains j
/-- Mark a sector performed: CURSOR counts those in order (R233). -/
def bumpCursor : Nat → Nat → List Nat → Nat × List Nat
  | 0, c, l => (c, l)
  | n + 1, c, l => if l.contains c then bumpCursor n (c + 1) (l.filter fun k => k != c) else (c, l)
def CopyCmd.mark (x : CopyCmd) (j : Nat) : CopyCmd :=
  let r := bumpCursor (x.done.length + 2) x.cursor (j :: x.done)
  { x with cursor := r.1, done := r.2 }

/-- In a scatter, the sectors of earlier entries that name the same row come first (R247). -/
def scatterWaits (x : CopyCmd) (i v j : Nat) : Bool :=
  let per := x.rowSize / 32
  (List.range i).any fun k => match look k x.entries with
    | none => true
    | some u => u = v && !x.has (k * per + j % per)

/-! ### Units: what one act performs of a sector (R207, R237, R238) -/

/-- The 16-byte piece of a destination byte; none where nothing is written. -/
def CByte.piece : CByte → Option Nat
  | .glob va => some (va / 16)
  | .spad k => some (2 ^ 64 + k / 16)
  | _ => none
/-- The bytes of sector `j` that have still to be written. -/
def leftOf (s : State) (c : Ctx) (x : CopyCmd) (v j : Nat) : List Nat :=
  ((List.range 32).map (· + 32 * j)).filter fun o =>
    !((look j x.part).getD []).contains o && (dstByte s c x v o).piece.isSome
/-- The bytes one act performs: all that are left, or of choice `k` those of one destination piece. -/
def unitOf (s : State) (c : Ctx) (x : CopyCmd) (v j k : Nat) : List Nat :=
  let l := leftOf s c x v j
  let ps := (l.filterMap fun o => (dstByte s c x v o).piece).eraseDups
  match k, ps[(k - 1) % max 1 ps.length]? with
  | _ + 1, some p => l.filter fun o => (dstByte s c x v o).piece = some p
  | _, _ => l

/-! ### Overlaps (R248) -/

/-- Which offset of an allocation of `n` banks from `bank` lies at byte `q` of the tile's scratchpad. -/
def logOff (bank n q : Nat) : Nat := (q % 2 ^ 18 / 128 * n + (q / 2 ^ 18 - bank)) * 128 + q % 128
/-- Whether a destination byte of CPY.ROW or CPY.SPAD is a source byte too: it ends with unspecified data. -/
def overlaps (s : State) (c : Ctx) (x : CopyCmd) (d : CByte) : Bool :=
  let flat := match x.op with
    | .cpyRow .. => true
    | .cpySpad .. => true
    | _ => false
  flat && match parseLoc x.srcWord, d with
    | .glob va, .glob da =>
      (match trCopy s c .w da with
       | .error _ => false
       | .ok t => (pagesOf va (32 * x.total)).any fun p => match trCopy s c .r p.1 with
         | .ok u => u.pa ≤ t.pa && t.pa < u.pa + p.2
         | .error _ => false)
    | .here off, .spad k =>
      let q := k % 2 ^ 23
      let size := c.bind.banks * 2 ^ 18
      k / 2 ^ 23 = tileOf c.cid && c.bind.bank * 2 ^ 18 ≤ q && q < (c.bind.bank + c.bind.banks) * 2 ^ 18
        && (logOff c.bind.bank c.bind.banks q + size - off % size) % size < 32 * x.total
    | _, _ => false

/-! ### Writing -/

/-- Bytes put into global memory: pieces of one write, poisoned where a byte of the piece is among `bad`, with the shadow it
zeroes or carries (R125, R128). Acts on one sector of a command are one write of it (R444). -/
def writeBuf (s : State) (w id agent vf : Nat) (bad : List Nat) (b : List BufByte) : State :=
  (bufPieces b).foldl (fun st p =>
    let at_ := (List.range 16).map (· + 16 * p.1)
    let mask := at_.map fun a => (b.any fun x => x.pa = a && x.key = p.2)
    pieceWriteOf st w id agent vf (16 * p.1) (at_.map fun a => (bufByte b a).getD 0) mask p.2 (at_.any fun a => bad.contains a)) s

/-- The shadow bytes a written byte touches: the count it carries, or 0 (R125, R128). -/
def shadowFor (s : State) (c : Ctx) (t : Tr) (va cnt : Nat) (tagged : Bool) : Except CErr (List BufByte) :=
  if twMode t.tagw = 2 then
    match trCopy s c .w (twBase t.tagw + (va - t.base) / twSize t.tagw) with
    | .error e => .error e
    | .ok u => .ok [⟨u.pa, if tagged then BitVec.ofNat 8 cnt else 0, u.key⟩]
  else if tagged then .error (.fault 0x0B 1 va)
  else .ok []

/-- Global bytes of a unit ready to be written, with their shadow and the places that become poisoned. -/
def globWrites (s : State) (c : Ctx) (tagged : Bool) (l : List (Nat × RByte)) : Except CErr (List BufByte × List BufByte × List Nat) :=
  l.foldr (fun x acc =>
    match acc with
    | .error e => .error e
    | .ok (d, sh, bad) =>
      match trCopy s c .w x.1 with
      | .error e => .error e
      | .ok t =>
        match shadowFor s c t x.1 x.2.cnt tagged with
        | .error e => .error e
        | .ok q => .ok (⟨t.pa, x.2.val, t.key⟩ :: d, q ++ sh, if x.2.bad then t.pa :: bad else bad)) (.ok ([], [], []))

/-- The global addresses among the destinations of a unit. -/
def globOf (l : List (CByte × RByte)) : List (Nat × RByte) :=
  l.filterMap fun x => match x.1 with
    | .glob va => some (va, x.2)
    | _ => none
def spadOf (l : List (CByte × RByte)) : List (Nat × Byte) :=
  l.filterMap fun x => match x.1 with
    | .spad k => some (k, x.2.val)
    | _ => none
/-- A list of addresses as runs of neighbours. -/
def addrRuns : List Nat → List (Nat × Nat)
  | [] => []
  | a :: r =>
    match addrRuns r with
    | (b, n) :: t => if b = a + 1 then (a, n + 1) :: t else (a, 1) :: (b, n) :: t
    | [] => [(a, 1)]

/-- Bytes of a unit that overlap the source, or that a poisoned entry or byte leaves unspecified in a scratchpad, are free
values (R236, R248). -/
def freeUnit (s : State) (c : Ctx) (x : CopyCmd) (l : List (CByte × RByte)) : List (CByte × RByte) :=
  let bad := l.any fun b => b.2.bad
  l.zipIdx.map fun y =>
    let local_ := (spadOf [y.1]).isEmpty
    if overlaps s c x y.1.1 || (bad && !local_) then (y.1.1, { y.1.2 with val := Config.freeByte s.fresh y.2 }) else y.1

/-- A unit's bytes of sector `j` written: the state and the writes made (R236, R238). A replay writes its own tile's scratchpad alone
(19 R469). -/
def writeUnit (s : State) (c : Ctx) (x : CopyCmd) (j : Nat) (l0 : List (CByte × RByte)) : Except CErr (State × List WRef) :=
  let l := freeUnit s c x l0
  let g := globOf l
  let poisons := l.any (fun b => b.2.bad) && !(spadOf l).isEmpty
  match globWrites s c x.tagged g with
  | .error e => .error e
  | .ok (d, sh, bad) =>
    let id := s.uid
    let vf := c.bind.vf
    let w := 2 ^ 64 * (j + 1) + x.id
    let twin := isReplay s c.cid
    let s0 : State := { s with uid := id + 1, fresh := s.fresh + 1 }
    let s1 := if twin then s0 else writeBuf (writeBuf s0 w id (engineOf c.cid) vf bad d) w id (engineOf c.cid) vf [] sh
    let ks := (spadOf l).filter fun b => !spadReleased s c b.1 && (!twin || b.1 / 2 ^ 23 = tileOf c.cid)
    let s2 := spadCopy s1 id (engineOf c.cid) vf ks
    let s3 := if poisons then s2.updCtx c.cid fun y => { y with crs := { y.crs with poisonC := true } } else s2
    let out := (g.map fun b => (b.1, b.2.val)) ++ (spadOf l).filter fun b => b.1 / 2 ^ 23 != tileOf c.cid
    .ok (auditAdd s3 c.cid (out.map fun b => (b.1, [b.2])), (addrRuns ((if twin then [] else g.map Prod.fst) ++ ks.map fun b => spadVa b.1)).map fun b => ⟨id, vf, b.1, b.2⟩)

/-! ### Reductions (R249) -/

/-- Size of the elements of code RC. -/
def redSize (rc : Nat) : Nat := if rc = 1 then 2 else if rc = 3 then 8 else 4

/-- An element combined: bits and count (R109, R249). DEDUCED: an integer element, for which R109 gives no count, carries none, and a
missing count arrives as 0 (R128; log 96). -/
def redElem (rc : Nat) (old new : Elem) : Elem :=
  let fl (p : Nat) (r : FRes) : Elem := ⟨r.bits, cntAdd p r [⟨fDec p old.bits, old.t, p⟩, ⟨fDec p new.bits, new.t, p⟩]⟩
  let mm (mx : Bool) : Elem :=
    let r := fMinMax 24 mx old.bits old.t new.bits new.t
    fl 24 ⟨r.1, 0, true⟩
  match rc with
  | 0 => fl 24 (fAdd 24 0 (fDec 24 old.bits) (fDec 24 new.bits))
  | 1 => fl 8 (fAdd 8 0 (fDec 8 old.bits) (fDec 8 new.bits))
  | 2 => ⟨(old.bits + new.bits) % 2 ^ 32, 0⟩
  | 3 => ⟨(old.bits + new.bits) % 2 ^ 64, 0⟩
  | 4 => mm false
  | 5 => mm true
  | 6 => if sextN 32 new.bits < sextN 32 old.bits then ⟨new.bits, 0⟩ else ⟨old.bits, 0⟩
  | _ => if sextN 32 old.bits < sextN 32 new.bits then ⟨new.bits, 0⟩ else ⟨old.bits, 0⟩

/-- What stands at a destination byte of a reduction: the latest value, for the update is one act with it (R249). -/
def oldByte (s : State) (c : Ctx) (x : CopyCmd) (esz p o : Nat) (d : CByte) : Except CErr RByte :=
  match loggedByte s c x .reduce o with
  | some b => .ok b
  | none =>
  match d with
  | .spad k => .ok ⟨memByte s.spad k, false, p⟩
  | .glob va =>
    (match trCopy s c .rw va with
     | .error e => .error e
     | .ok t =>
       match (if x.tagged then srcCount s c t va esz p 0 true else .ok 0) with
       | .error e => .error e
       | .ok n => .ok ⟨(physRead s t.pa 1 t.key).getD 0 0, physPoison s t.pa 1, n⟩)
  | _ => .ok ⟨0, false, p⟩

/-- A unit of a reduction: the bytes to write. -/
def redUnit (rc : Nat) (old new : List RByte) : List RByte :=
  let n := redSize rc
  (List.range (new.length / n)).flatMap fun e =>
    let part (l : List RByte) : List RByte := (l.drop (n * e)).take n
    let el (l : List RByte) : Elem :=
      let v := leNat ((part l).map RByte.val)
      let t := ((part l).map RByte.cnt).getD 0 0
      ⟨v, if n = 8 then t else clampCount (if n = 2 then 8 else 24) v t⟩
    let r := redElem rc (el old) (el new)
    let bad := (part old ++ part new).any RByte.bad
    (leBytes n r.bits).map fun b => ⟨b, bad, r.t⟩

/-! ### Rows of a stream register (R251, R252) -/

/-- Put a sector of a row into its ring slot. -/
def deliverSector (s : State) (c : Ctx) (x : CopyCmd) (q : Nat) (tag : Byte) (pos j : Nat) (l : List RByte) : State :=
  let b := c.win.q.toList.getD q QBind.none
  let sl := pos % 8
  let at_ := b.ring * 256 + 256 * sl + 32 * (j % 8)
  let s1 := localWrite s c at_ (l.map RByte.val) (allOnes 32)
  let r0 := (look sl b.rowsIn).getD ⟨tag, 0, false, 0, x.id, x.pc, x.bar⟩
  let esz := rowEsz tag
  let sh := if esz = 2 then 4 else 8
  let add := if esz = 0 then 0 else
    packN sh ((List.range (32 / esz)).map fun e => ((l.getD (esz * e) ⟨0, false, 0⟩).cnt)) * 2 ^ (sh * (32 / esz) * (j % 8))
  let r : RingRow := { r0 with
    tag := tag, plane := r0.plane ||| BitVec.ofNat 512 add, poison := r0.poison || l.any RByte.bad
    landed := r0.landed + 1, cmd := x.id, pc := x.pc, bar := x.bar }
  s1.updCtx c.cid fun y => { y with win := { y.win with q := y.win.q.setIfInBounds q { b with rowsIn := put sl r b.rowsIn } } }

/-- Lanes of a delivered row that are infinities or NaNs count 0 (R105). -/
def fixRow (s : State) (c : Ctx) (b : QBind) (sl : Nat) (r : RingRow) : RingRow :=
  let bytes := localRead s c (b.ring * 256 + 256 * sl) 256
  let p := fmtPrec (tagFmt r.tag)
  { r with plane := (loadedRow r.tag bytes fun j => planeCnt p r.plane j).trust }

/-! ### Stops, posts, completion (R230, R235, R239, R240) -/

def updCmd (s : State) (cid e : Nat) (f : CopyCmd → CopyCmd) : State :=
  s.updCtx cid fun c => match look e c.win.cmds with
    | some x => { c with win := { c.win with cmds := put e (f x) c.win.cmds } }
    | none => c

/-- Index entries whose rows are partly complete are read again on restart (R235). -/
def CopyCmd.forget (x : CopyCmd) : CopyCmd :=
  let per := max 1 (x.rowSize / 32)
  let done (n : Nat) : Bool := (List.range per).all fun k => x.has (n * per + k)
  let begun (n : Nat) : Bool := (List.range per).any fun k => x.has (n * per + k) || (look (n * per + k) x.part).isSome
  if x.isList then
    let l := x.entries.filter fun n => done n.1 || !begun n.1
    { x with entries := l, badEntries := x.badEntries.filter fun i => (look i l).isSome }
  else x

/-- The cause of FAULT: SUB of a translation fault (18 R440), else the class. -/
def copyCause (cls sub : Nat) : Nat := if cls = 7 then sub else cls
/-- The command stops: its fault is recorded and the context's trap is pending (R231, R233, R235). -/
def stopCmd (s : State) (cid e : Nat) (x : CopyCmd) (cls sub addr : Nat) : State :=
  let s1 := updCmd (dropWalkFaults s (engineOf cid)) cid e fun y =>
    { y.forget with state := 3, fault := BitVec.ofNat 64 (copyCause cls sub + addr % 2 ^ 56 * 256) }
  returnBerths (s1.updCtx cid fun c => { c with pends := c.pends ++ [{ cls := 0x21, sub := cls, addr := addr, info := 256 * e + 65536 * x.tk }] }) cid

/-- Posts on their way to a barrier; `carry` goes with the last of them. A replay posts nothing (19 R469). -/
def sendPosts (s : State) (cid : Nat) (pc : Word) (bar : Option CopyBar) (n : Nat) (carry : List Carry) : State :=
  match (if isReplay s cid then none else bar) with
  | none => s
  | some b =>
    let mk (i : Nat) : Post := ⟨s.uid + i, b.loc, b.word, b.key, b.tag, cid, pc, if i + 1 = n then carry else [], b.shadow, b.cmd⟩
    { s with uid := s.uid + n, posts := s.posts ++ (List.range n).map mk }
/-- The final landing releases every write of the command, to all agents, and needs neither mooring nor fence (R239, R319). -/
def landCarry (s : State) (cid : Nat) (ws : List WRef) : List Carry := ws.map fun w => ⟨w, 6, cid, (s.ctx cid).bind.group, true⟩

/-- A running command is done once its last sector has landed: the token completes, the window is trimmed. -/
def finishCmd (s : State) (cid e : Nat) (x : CopyCmd) : State :=
  returnBerths ((updCmd s cid e fun y => { y with state := if y.state = 2 then 4 else y.state }).updCtx cid fun c =>
    let c1 := finishToken c x.id x.ws
    { c1 with win := trimWindow 16 c1.win, status := match c1.status with
      | .blocked .window => .ready
      | st => st }) cid

/-! ### The events -/

/-- Whether the context is being saved or is saved: deliveries to a stream register pause (R234). -/
def Ctx.away (c : Ctx) : Bool := c.status = .saving || c.status = .saved || c.status = .restoring
def pausedFor (c : Ctx) (x : CopyCmd) : Bool := (parseLoc x.dstWord).isStream && c.away

/-- COPY_START (R230, R231). -/
def execCopyStart (c e : Nat) (s : State) : Host.Outcome State Fault Refusal :=
  let x := s.ctx c
  match look e x.win.cmds with
  | some y => if y.state = 1 && waitsDone x y.waits && !pausedFor x y then evCopy (updCmd s c e fun z => { z with state := 2 }) c else evNext s
  | none => evNext s

/-- Berths a context holds: each takes 64 sectors. -/
def berthsOf (t : Tile) (c : Nat) : Nat := ((look c t.berths).getD 0 + 63) / 64
/-- Whether a context has a running read and may be granted another berth (R253, R254). -/
def wantsBerth (s : State) (t : Tile) (c : Nat) : Bool :=
  let x := s.ctx c
  decide (berthsOf t c < x.win.bmax) && x.win.cmds.any fun y => y.2.wantsBerths

/-- BERTH_GRANT: round-robin over the tile's contexts. -/
def execBerthGrant (t : Nat) (s : State) : Host.Outcome State Fault Refusal :=
  let x := s.tile t
  let held := x.berths.foldl (fun n b => n + (b.2 + 63) / 64) 0
  let want := (s.allCtx.filter fun c => tileOf c.cid = t && wantsBerth s x c.cid).map Ctx.cid
  match roundRobin ((x.berthNext + 15) % 16) want with
  | none => evNext s
  | some c =>
    if 64 ≤ held then evNext s
    else evNext (s.setTile { x with berths := put c ((look c x.berths).getD 0 + 64) x.berths, berthNext := (c % 16 + 1) % 16 })

/-- A sector that read global memory drains its place in a berth. -/
def drainBerth (s : State) (c : Nat) (reads : Bool) : State :=
  let x := s.tile (tileOf c)
  let n := (look c x.berths).getD 0 - (if reads then 1 else 0)
  s.setTile { x with berths := if n = 0 then drp c x.berths else put c n x.berths }

/-- The elements whose counts a sector carries: their size and precision (R128). -/
def carriedSize (x : CopyCmd) (dst : Loc) : Nat × Nat :=
  match x.op with
  | .cpyRed .. => if x.tagged then (if redSize (bitsOf 32 32 (x.ops.getD 2 0).toNat) = 2 then (2, 8) else (4, 24)) else (0, 0)
  | _ =>
    match dst with
    | .stream _ tag => (rowEsz tag, fmtPrec (tagFmt tag))
    | .glob _ => if x.tagged then (1, 24) else (0, 0)
    | _ => (0, 0)

/-- The element size of the destination's shadow, for a tagged global copy (R128). -/
def shadowSize (s : State) (c : Ctx) (va : Nat) : Nat × Nat :=
  match trCopy s c .w va with
  | .ok t => if twSize t.tagw = 2 then (2, 8) else (4, 24)
  | .error _ => (4, 24)

/-- The size and precision of the elements whose counts a unit carries. -/
def unitSize (s : State) (c : Ctx) (x : CopyCmd) (v : Nat) (os : List Nat) : Nat × Nat :=
  match carriedSize x (parseLoc x.dstWord), dstByte s c x v (os.headD 0) with
  | (1, _), .glob va => shadowSize s c va
  | z, _ => z

/-- The bytes `os` of a command with their destinations, ready to be written. -/
def unitBytes (s : State) (c : Ctx) (x : CopyCmd) (v pick : Nat) (os : List Nat) : Except CErr (List (CByte × RByte)) :=
  let sz := unitSize s c x v os
  match gatherAll (os.map (readByte s c x v sz.1 sz.2 pick (srcAddrs s c x v os))) with
  | .error e => .error e
  | .ok new =>
    match x.op with
    | .cpyRed .. =>
      (match gatherAll (os.map fun o => oldByte s c x sz.1 sz.2 o (dstByte s c x v o)) with
       | .error e => .error e
       | .ok old => .ok ((os.map (dstByte s c x v)).zip (redUnit (bitsOf 32 32 (x.ops.getD 2 0).toNat) old new)))
    | _ => .ok ((os.map (dstByte s c x v)).zip new)

/-- What a unit of an audited group's copy takes from outside enters the log (19 R468): the bytes that it lands in rows or in the
allocation, and, of a reduction, what stands at a destination outside (log 26). -/
def logUnit (s : State) (c : Ctx) (x : CopyCmd) (v pick : Nat) (os : List Nat) : State :=
  if (auditOf s c.cid).isNone then s
  else
    let sz := unitSize s c x v os
    let put (kind : DatumKind) (o : Nat) (r : Except CErr RByte) (st : State) : State := match r with
      | .ok b => logDatum st c.cid kind (x.logKey o) (.byte b.val b.bad b.cnt)
      | .error _ => st
    let red := match x.op with
      | .cpyRed .. => true
      | _ => false
    os.foldl (fun st o =>
      let d := dstByte s c x v o
      let st1 := if (srcByte s c x v o).outside c && !(CByte.outside c d) then
          put .copy o (readByte s c x v sz.1 sz.2 pick (srcAddrs s c x v os) o) st else st
      if red && CByte.outside c d then put .reduce o (oldByte s c x sz.1 sz.2 o d) st1 else st1) s

/-- A remote scratchpad destination must lie in an allocation of R223. -/
def remoteOk (s : State) (c : Ctx) (x : CopyCmd) : Bool :=
  match x.isTenStore, x.isScat, parseLoc x.dstWord with
  | false, false, .remote t off => targetOk s c.cid t off (32 * x.total)
  | _, _, _ => true

/-- What becomes of an error. -/
def sectorErr (s : State) (cid e : Nat) (x : CopyCmd) (k : CErr) : State :=
  match k with
  | .fault cls sub addr => stopCmd s cid e x cls sub addr
  | .wait => s
  | .miss page => startWalk s (engineOf cid) (s.ctx cid).bind.vf page (dieOf cid)

/-- After a unit has been written: a sector with nothing left is marked, counted and posted; the last one ends the command. -/
def landUnit (s : State) (cid e : Nat) (x : CopyCmd) (v j : Nat) (os : List Nat) (ws : List WRef) (post reads : Bool) : State :=
  let y := { x with part := put j (os ++ (look j x.part).getD []) x.part, ws := ws ++ x.ws }
  let known := s.updCtx cid fun c => { c with view := { c.view with eng := ws ++ c.view.eng } }
  if !(leftOf s (s.ctx cid) y v j).isEmpty then updCmd known cid e fun _ => y
  else
    let z : CopyCmd := { y.mark j with part := drp j y.part }
    let whole : Bool := z.cursor = z.total
    let s1 := drainBerth (updCmd known cid e fun _ => z) cid reads
    let s2 := if post then sendPosts s1 cid z.pc z.bar 1 (if whole then landCarry s cid z.ws else []) else s1
    if whole && post then finishCmd s2 cid e z else s2

/-- Whether memory corrected a byte a unit's read takes: of its source, and of a reduction's destination (R381, R444). -/
def unitCorrected (s : State) (c : Ctx) (x : CopyCmd) (v : Nat) (os : List Nat) : Bool :=
  let hit (b : CByte) : Bool := match b with
    | .glob va => (match trCopy s c .r va with
      | .ok t => correctedAt s t.pa 1
      | .error _ => false)
    | _ => false
  let red := match x.op with
    | .cpyRed .. => true
    | _ => false
  !s.dev.quar.isEmpty && os.any fun o => hit (srcByte s c x v o) || (red && hit (dstByte s c x v o))

/-- The scratchpad places a unit reads and writes: the copy engine is served by their banks (R198). -/
def unitPlaces (s : State) (c : Ctx) (x : CopyCmd) (v : Nat) (os : List Nat) : List Nat :=
  (os.flatMap fun o => [srcByte s c x v o, dstByte s c x v o]).filterMap fun b => match b with
    | .spad k => some k
    | _ => none

/-- A copy that lands in a tile's scratchpad wakes the tile (19 R461). -/
def wakeLanded (s : State) (c : Ctx) (x : CopyCmd) (v : Nat) (os : List Nat) : State :=
  ((os.filterMap fun o => match dstByte s c x v o with
    | .spad k => some (k / 2 ^ 23)
    | _ => none).eraseDups).foldl wakeTile s

/-- A command that was issued while its stream register was unbound takes its ring positions now, with those before it (R251). -/
def lateRows (s : State) (cid e : Nat) (x : CopyCmd) (q : Nat) : State × CopyCmd :=
  let s1 := if x.ringPos.isSome then s else s.updCtx cid fun c => lateAssign c q
  (s1, (look e (s1.ctx cid).win.cmds).getD x)

/-- One act of a command on sector `j`, whose index value is `v`; `bad` says that the index entry was poisoned. -/
def runSector (s00 : State) (cid e : Nat) (x0 : CopyCmd) (v j pick : Nat) (bad reads : Bool) : State :=
  match x0.isTenStore, x0.isScat, parseLoc x0.dstWord with
  | false, false, .stream q tag =>
    let r := lateRows s00 cid e x0 q
    let s0 := r.1
    let x := r.2
    let c := s0.ctx cid
    let b := c.win.q.toList.getD q QBind.none
    let os := (List.range 32).map (· + 32 * j)
    (match x.ringPos with
     | none => stopCmd s0 cid e x 0x0B 1 0
     | some p =>
       if !b.valid then stopCmd s0 cid e x 0x0B 1 0
       else if b.popped + 8 ≤ p + j / 8 then s0
       else match unitBytes s0 c x v (pick / 64) os with
         | .error k => sectorErr s0 cid e x k
         | .ok l =>
           let sl := logUnit s0 c x v (pick / 64) os
           let s := noteEng (if unitCorrected s0 c x v os then readCorrected sl cid else sl) cid x (pick / 64) (srcAddrs s0 c x v os) (srcPlaces s0 c x v os)
           let rows := l.map fun y => { y.2 with bad := y.2.bad || bad }
           let s2 := wakeTile (bankServed (deliverSector s c x q tag (p + j / 8) j rows) 4 (unitPlaces s0 c x v os)) (tileOf cid)
           landUnit s2 cid e x v j os [] false reads)
  | _, _, _ =>
    let c := s00.ctx cid
    let os := unitOf s00 c x0 v j (pick % 64)
    match unitBytes s00 c x0 v (pick / 64) os with
    | .error k => sectorErr s00 cid e x0 k
    | .ok l =>
      let sl := logUnit s00 c x0 v (pick / 64) os
      let s := noteEng (if unitCorrected s00 c x0 v os then readCorrected sl cid else sl) cid x0 (pick / 64) (srcAddrs s00 c x0 v os) (srcPlaces s00 c x0 v os)
      match writeUnit s c x0 j (l.map fun y => (y.1, { y.2 with bad := y.2.bad || bad })) with
      | .error k => sectorErr s cid e x0 k
      | .ok (s1, ws) =>
        landUnit (bankServed (wakeLanded s1 c x0 v os) 4 (unitPlaces s00 c x0 v os)) cid e x0 v j os ws true reads

/-- COPY_SECTOR: an act on sector `j` of the command in entry `e` of context `c` (R233, R235, R240, R246): `pick` chooses the
piece it performs (0: all that is left) and how far its reads go back. -/
def execCopySector (c e j pick : Nat) (s : State) : Host.Outcome State Fault Refusal :=
  let cx := s.ctx c
  match look e cx.win.cmds with
  | none => evNext s
  | some x =>
    let i := 32 * j / x.rowSize
    let reads := if x.isScat then x.readsGlobal && (look i x.entries).isNone else x.readsGlobal
    if x.state != 2 || x.total ≤ j || x.has j || x.cursor + 256 ≤ j || pausedFor cx x
        || (reads && (look c (s.tile (tileOf c)).berths).getD 0 = 0) then evNext s
    else if !remoteOk s cx x then evCopy (stopCmd s c e x 0x0A 3 0) c
    else if x.isList then
      match readEntry s cx x i (pick / 64) with
      | .error k => evCopy (sectorErr s c e x k) c
      | .ok (v0, bad) =>
        let v := if bad && (look i x.entries).isNone then Config.freeNat s.fresh % 65536 else v0
        let sn := noteEntry s c x i (pick / 64)
        let s0 := if bad then { sn with fresh := sn.fresh + 1 } else sn
        let x1 := { x with entries := put i v x.entries, badEntries := if bad then i :: x.badEntries else x.badEntries }
        if x.isScat && scatterWaits x1 i v j then evNext s
        else
          let per := x.rowSize / 32
          let first := !(List.range per).any fun k => x.has (i * per + k) || (look (i * per + k) x.part).isSome
          let s1 := if first && v != 0xFFFF && decide (mapExt x.map 1 ≤ v) && !(look i x.entries).isSome then
              s0.updCtx c fun y => bumpCount y 6 1 else s0
          evCopy (runSector (updCmd s1 c e fun _ => x1) c e x1 v j pick bad reads) c
    else evCopy (runSector s c e x 0 j pick false reads) c

/-- STREAM_ROW_ARRIVE: a row whose 256 bytes have landed arrives; its 8 sectors are posted, and the command that delivered
its last row is done, or if it was cancelled its token completes (R240, R251, R256). -/
def execStreamRowArrive (c q slot : Nat) (s : State) : Host.Outcome State Fault Refusal :=
  let cx := s.ctx c
  let b := cx.win.q.toList.getD q QBind.none
  match look slot b.rowsIn with
  | none => evNext s
  | some r =>
    if r.landed != 8 || b.arr.getLsbD slot || !b.valid || cx.away then evNext s
    else
      let b1 := { b with arr := b.arr ||| (1#8 <<< slot), rowsIn := put slot (fixRow s cx b slot r) b.rowsIn }
      let s1 := s.updCtx c fun y => { y with win := { y.win with q := y.win.q.setIfInBounds q b1 } }.readyFrom fun w => w = WaitOn.stream q
      let lastRow := !(s1.ctx c).win.rowInFlight r.cmd
      let s2 := sendPosts s1 c r.pc r.bar 8 []
      match (s1.ctx c).win.cmds.find? fun x => x.2.id = r.cmd with
      | some (e, x) =>
        evCopy (if lastRow && x.cursor = x.total then finishCmd s2 c e x
          else if lastRow && x.state = 5 then s2.updCtx c fun y => finishToken y r.cmd x.ws else s2) c
      | none => evCopy (if lastRow then s2.updCtx c fun y => finishToken y r.cmd [] else s2) c

end Sys2Proof.Machine
end

