-- ==== Sys2Proof/Machine/SaveArea.lean ====
section
/-!
DEFINITION. The save area (13 R346): a context as bytes and back. Fields the table only lists stand one after the other in
the order it lists them (log 14).
-/
namespace Sys2Proof.Machine

/-- A string cut or filled with zeros to `n` bytes. -/
def padTo (n : Nat) (l : List Byte) : List Byte := l.take n ++ zeros (n - l.length)

/-- SIZE (R346). -/
def saveSize (c : Ctx) : Nat := 61440 + 320 * c.bind.rows + 5120 * c.bind.acc

/-- The header word with its VALID bit. -/
def headerWord (c : Ctx) (valid : Bool) : Nat :=
  (if valid then 2 ^ 63 else 0) + (if c.crs.intrap then 2 ^ 62 else 0) + (if c.held.isSome then 2 ^ 61 else 0)
    + saveSize c / 64 * 2 ^ 32 + 2 ^ 24 + c.bind.acc * 2 ^ 16 + c.bind.rows

/-- The control registers of the area, 8 bytes each, in the table's order. -/
def crWords (c : Ctx) : List Nat :=
  let r := c.crs
  [c.nexti.toNat, r.sigfloor.toNat, r.planew.toNat] ++ r.lpad.toList.map BitVec.toNat ++ [r.lilk.toNat, r.tvec.toNat, r.codebase.toNat,
    (if r.intrap then 1 else 0) + (if r.poisonC then 2 else 0)] ++ r.sticky.toList.map BitVec.toNat ++ r.sigrec.toList.map BitVec.toNat
    ++ [r.tfpc.toNat, r.tfcause.toNat, r.tfaddr.toNat, r.tfinfo.toNat]

/-- The codebook's table (R90) and its valid byte. -/
def codebookBytes (b : Codebook) : List Byte :=
  (b.entries.toList.flatMap fun x => leBytes 2 x.toNat) ++ [BitVec.ofNat 8 b.trust] ++ zeros 31 ++ [if b.valid then 1 else 0]

/-- A mooring entry in 32 bytes: anchor, base, length, scope, valid (log 14). -/
def mooringBytes (m : Option Mooring) : List Byte :=
  match m with
  | none => zeros 32
  | some x => leBytes 8 x.anchor.toNat ++ leBytes 8 x.base.toNat ++ leBytes 8 x.len ++ [BitVec.ofNat 8 x.scope.toNat, 1] ++ zeros 6

/-- Bytes 0x0040 to 0x07FF, K0 and P0 as they read (R34); the fence state is a word the spec leaves open (log 14). -/
def regBytes (c : Ctx) (fence : Word) : List Byte :=
  padTo 1984 ((c.regs.s.toList.flatMap fun x => leBytes 8 x.val.toNat) ++ (c.regs.s.toList.map fun x => x.cnt.setWidth 8)
    ++ ((List.range 8).flatMap fun i => leBytes 16 (c.regs.mask (BitVec.ofNat 3 i)).toNat) ++ [c.regs.p ||| 1] ++ (crWords c).flatMap (leBytes 8)
    ++ codebookBytes c.cb ++ leBytes 8 c.tok.toNat ++ (c.moor.toList.flatMap mooringBytes) ++ leBytes 8 fence.toNat)

/-- A tensor-map slot in 128 bytes. -/
def mapBytes (m : Option (BitVec 768)) : List Byte :=
  match m with
  | none => zeros 128
  | some x => leBytes 96 x.toNat ++ [1] ++ zeros 31

/-- A load entry laid out as a latch. -/
def ldBytes (e : LdEntry) : List Byte :=
  latchBytes (match e.val with
    | some (.row r) => .row r
    | some (.scalar x) => .scalar x
    | none => .invalid)

/-- A block: values, then counts with the type in bit 7 of the first. -/
def accBytes (b : AccBlock) : List Byte :=
  leBytes 4096 b.val.toNat ++ leBytes 1024 ((if b.isI32 then b.cnt ||| 0x80 else b.cnt &&& ~~~0x80).toNat)

/-- Everything of the area behind the header word, the trap frame apart. -/
def saveHead (c : Ctx) (now : Nat) : List Byte := leBytes 8 c.pc.toNat ++ leBytes 8 now ++ zeros 40
def saveLow (c : Ctx) (fence : Word) : List Byte :=
  regBytes c fence ++ (c.maps.toList.flatMap mapBytes) ++ windowBytes c.win ++ c.regs.lat.toList.flatMap latchBytes
def saveHigh (c : Ctx) : List Byte :=
  padTo 12288 (c.ldq.flatMap ldBytes) ++ padTo 384 ((List.range c.bind.rows).map fun i => (c.regs.row i).tag)
    ++ ((List.range c.bind.rows).flatMap fun i => blockBytes (c.regs.row i))
    ++ (List.range c.bind.acc).flatMap fun i => accBytes (c.block i)

/-! ### Reading back (R349) -/

/-- Whether control register words have their reserved bits zero (R9, R337): REPI, SIGFLOOR, PLANEW, LPAD, LILK, CTXST, STICKY,
SIGREC, TFCAUSE and TFINFO. -/
def crReserved (w : Nat → Word) : Bool :=
  w 0 &&& ~~~0xFFFF = 0 && w 1 &&& ~~~0x30F1F = 0 && w 2 &&& ~~~0x11F = 0
    && (List.range 4).all (fun i => w (3 + i) &&& ~~~0xFFFFFFFF = 0) && w 7 &&& ~~~0xFFFF = 0 && w 10 &&& ~~~3 = 0
    && (List.range 8).all (fun i => w (11 + i) &&& 0x7E0000FFE0 = 0 && w (19 + i) &&& 0xFFFF = 0)
    && w 28 &&& 0xF800000000 = 0 && w 30 &&& ~~~0x3F1F1F = 0
/-- Whether a tensor-map slot's reserved fields are zero (R241). -/
def mapReserved (l : List Byte) : Bool := zeroAt l 97 31 && (byteAt l 96 = 0 || !mapBad (BitVec.ofNat 768 (numAt l 0 96)))
/-- Whether the reserved fields of the area are zero (R9), and its rows' tags such as a row can have (R95). -/
def areaReserved (c : Ctx) (l : List Byte) : Bool :=
  crReserved (fun k => wordAt l (0x40 + 417 + 8 * k)) && bitsOf 4 4 (numAt l (0x40 + 665 + 32) 1) = 0
    && (List.range c.bind.rows).all (fun i => tagOk (byteAt l (0xEE80 + i))) &&
  bitsOf 48 13 (numAt l 0 8) = 0 && bitsOf 9 7 (numAt l 0 8) = 0 && zeroAt l 24 40 && zeroAt l (0x40 + 1258) 726
    && (List.range 8).all (fun i => mapReserved ((l.drop (0x800 + 128 * i)).take 128)) && zeroAt l (0x40 + 417 + 248 + 33) 31

/-- The header against the context's creation: VALID, SIZE, version, rows, acc. -/
def headerFits (c : Ctx) (h : Nat) : Bool :=
  bitsOf 63 1 h = 1 && bitsOf 32 16 h = saveSize c / 64 && bitsOf 24 8 h = 1 && bitsOf 0 9 h = c.bind.rows && bitsOf 16 8 h = c.bind.acc

/-- Event counts that fell due while the context was saved are added (R333). -/
def addCounts (saved : Crs) (c : Ctx) : Ctx :=
  let cnt (n : Nat) : Nat := bitsOf 16 16 (c.crs.sticky.toList.getD n 0).toNat
  (List.range 8).foldl (fun x n => if cnt n = 0 then x else bumpCount x n (cnt n)) { c with crs := saved }

/-- The control registers as the area holds them; SABASE and what the loader alone sets stay, and poison that a copy has
consumed meanwhile (R236). CCLR is no bit that reads back (R8, R333). -/
def crsOf (c : Ctx) (w : Nat → Word) : Crs :=
  { c.crs with
    repi := (w 0).setWidth 16, sigfloor := (w 1).setWidth 32, planew := (w 2).setWidth 32
    lpad := Vector.ofFn fun i => (w (3 + i.val)).setWidth 32, lilk := (w 7).setWidth 32, tvec := w 8, codebase := w 9
    intrap := (w 10).getLsbD 0, poisonC := (w 10).getLsbD 1 || c.crs.poisonC
    sticky := Vector.ofFn fun i => w (11 + i.val) &&& ~~~0x100000000, sigrec := Vector.ofFn fun i => w (19 + i.val)
    tfpc := w 27, tfcause := w 28, tfaddr := w 29, tfinfo := w 30 }

/-- A mooring read back. -/
def mooringOf (l : List Byte) : Option Mooring :=
  if byteAt l 25 = 0 then none else some ⟨wordAt l 0, wordAt l 8, numAt l 16 8, BitVec.ofNat 3 (numAt l 24 1)⟩

/-- Load entries read back over the engine's marks. -/
def ldOf (old : List LdEntry) (l : List Latch) : List LdEntry :=
  ((l.takeWhile fun x => x != .invalid).zipIdx).map fun x =>
    let e := old.getD x.2 ⟨0, true, none, true, false⟩
    match x.1 with
    | .row r => { e with isRow := true, val := some (.row r), returned := true }
    | .scalar v => { e with isRow := false, val := some (.scalar v), returned := true }
    | _ => e

/-- The registers of a context as the area holds them. -/
def regsOf (c : Ctx) (l : List Byte) (lat : List Latch) : Regs :=
  let b := 0x40
  let rows := (List.range c.bind.rows).filterMap fun i =>
    let r := rowAt l (0xF000 + 320 * i) (byteAt l (0xEE80 + i))
    if r = Row.zero then none else some (i, r)
  ({ c.regs with
    s := Vector.ofFn fun i => ⟨wordAt l (b + 8 * i.val), countOf (byteAt l (b + 256 + i.val))⟩
    k := Vector.ofFn fun i => if i.val = 0 then 0 else BitVec.ofNat 128 (numAt l (b + 288 + 16 * i.val) 16)
    p := byteAt l (b + 416) &&& ~~~1
    rows := rows }).setLatches lat

/-- The counts of an FP32 block read back, clamped, none beside an infinity or a NaN (R105). -/
def accCounts (val cnt : Nat) : Nat :=
  packN 8 ((List.range 1024).map fun j => clampCount 24 (laneN 32 j val) (laneN 8 j cnt % 128))
/-- A block read back; one of I32 has no counts. -/
def accOf (l : List Byte) (i : Nat) : AccBlock :=
  let cnt := numAt l (i + 4096) 1024
  let val := numAt l i 4096
  let i32 := bitsOf 7 1 cnt = 1
  ⟨BitVec.ofNat 32768 val, if i32 then 0 else BitVec.ofNat 8192 (accCounts val cnt), i32⟩

/-- The tokens whose operation has still to complete: a copy that has finished meanwhile has completed its own (R230, R309). -/
def boundTokens (c : Ctx) : BitVec 64 := c.tokBind.foldl (fun m x => m ||| (1#64 <<< x.1)) 0

/-- A location word that delivers to a stream register carries a tag that rows can have (R95, R222). -/
def locTagOk (w : Word) : Bool :=
  match parseLoc w with
  | .stream _ t => tagOk t
  | _ => true

/-- The state a restored context comes back in (R330, R349): blocked where it was blocked, but where the deadline of a SLEEP has
passed meanwhile. -/
def statusBack (c : Ctx) (blocked : Bool) : CtxStatus :=
  match (if blocked then c.held else none) with
  | some .sleep => if c.sleepTill.isSome then .blocked .sleep else .ready
  | some k => .blocked k
  | none => .ready

/-- A context reloaded from its area; none when the area is malformed. DESIGN CHOICE: no check is given for bits 5:0 of the PC and
TFPC of the area, which are loaded as they stand (log 14). -/
def restoreOf (c : Ctx) (l : List Byte) : Option Ctx :=
  let h := numAt l 0 8
  if !headerFits c h || !areaReserved c l then none
  else
    match windowOf c.win ((l.drop 0x0C00).take 4160),
        allSome ((List.range 12).map fun i => latchOf ((l.drop (0x1C40 + 384 * i)).take 384)),
        allSome ((List.range 32).map fun i => latchOf ((l.drop (0xBE80 + 384 * i)).take 384)) with
    | some w, some lat, some ld =>
      if w.cmds.any fun x => !locTagOk x.2.dstWord then none else
      let b := 0x40
      let cb := b + 665
      let at_ := 0xF000 + 320 * c.bind.rows
      let c1 : Ctx := { c with
        pc := wordAt l 8
        regs := regsOf c l lat
        cb := ⟨Vector.ofFn fun i => BitVec.ofNat 16 (numAt l (cb + 2 * i.val) 2), min (numAt l (cb + 32) 1) 8, byteAt l (cb + 64) != 0⟩
        tok := wordAt l (b + 730) &&& boundTokens c
        moor := Vector.ofFn fun i => mooringOf ((l.drop (b + 738 + 32 * i.val)).take 32)
        maps := Vector.ofFn fun i =>
          if byteAt l (0x800 + 128 * i.val + 96) = 0 then none else some (BitVec.ofNat 768 (numAt l (0x800 + 128 * i.val) 96))
        win := w
        ldq := ldOf c.ldq ld
        acc := (List.range c.bind.acc).map fun i => (i, accOf l (at_ + 5120 * i))
        status := statusBack c (bitsOf 61 1 h = 1)
        held := none }
      some (addCounts (crsOf c fun k => wordAt l (b + 417 + 8 * k)) c1)
    | _, _, _ => none

end Sys2Proof.Machine
end

