-- ==== Sys2Proof/Machine/SaveEvents.lean ====
section
/-!
DEFINITION. Pre-emption, save and restore (13 R344 to R349, 14 R362, R363).
-/
namespace Sys2Proof.Machine

/-! ### Which hardware contexts and blocks are taken -/

/-- Whether a group holds its hardware contexts and accumulator blocks (R362): a saved one does not. -/
def Group.holdsHw (g : Group) : Bool :=
  match g.st with
  | .saved => false
  | .completing => false
  | .retired => false
  | _ => true

/-- Whether hardware context `h` is free for new work. -/
def hwFree (s : State) (h : Nat) : Bool :=
  !(s.groups.any fun g => g.holdsHw && g.members.any fun m => hwOf m = h) && !(s.doms.any fun d => d.ctxs.any fun m => hwOf m = h)

/-- The kernel of a group. -/
def State.kernelOf (s : State) (fn handle k : Nat) : Option Kernel :=
  match s.objs.find? fun o => o.handle = handle && o.fn = fn with
  | some o => o.kernels[k]?
  | none => none
def State.groupKernel (s : State) (g : Group) : Option Kernel :=
  match s.launch g.launch with
  | some l => s.kernelOf l.fn l.handle (l.kidx.getD g.gmem 0)
  | none => none
def accNeed (k : Option Kernel) : Nat := (k.map Kernel.acc).getD 0

/-- Accumulator blocks taken on core `k` (tile × 4 + core) (R259, R351). -/
def accUsed (s : State) (k : Nat) : Nat :=
  let onCore (l : List Nat) : Nat := (l.filter fun m => hwOf m / 4 = k).length
  ((s.groups.filter Group.holdsHw).map fun g => onCore g.members * accNeed (s.groupKernel g)).sum
    + (s.doms.map fun d => onCore d.ctxs * accNeed (s.kernelOf d.vf d.handle d.kidx)).sum

/-! ### Save (R344 to R348) -/

/-- Whether a pre-emption can be taken now (R344): the context is blocked, or its last bundle was a switch point and no
other has come up; it has no chain open and no re-injection to make; and no answer has come for the bundle it holds. -/
def takeable (s : State) (c : Ctx) : Bool :=
  (match c.status with
   | .blocked _ => true
   | .ready => c.atSwp
   | .running => c.atSwp
   | _ => false)
    && chainOf s c != some false && c.reinj.isNone && !performed s c

/-- What a blocked context waits for. -/
def Ctx.waitOn (c : Ctx) : Option WaitOn :=
  match c.status with
  | .blocked w => some w
  | _ => none

/-- Step 1: results become visible; no bundle issues any more. A trust-floor trap comes first. -/
def beginSave (s0 : State) (c : Nat) : State :=
  let s := (flushCore s0 (hwOf c / 4)).focus c
  let u := s.updCur Ctx.comeDue
  let t := showDue u
  if (firstBelow (dueNow u u.cur)).isSome then yieldCore t
  else t.updCtx c fun x => { x with status := .saving, held := x.waitOn, atSwp := false }

/-- Step 2: the chain that was ending has completed, and nothing is owed any more to the context's rows, blocks and load
entries. -/
def saveDrained (s : State) (c : Ctx) : Bool :=
  (chainOf s c).isNone && !((s.tile (tileOf c.cid)).arr.any fun o => o.cid = c.cid) && c.ldq.all (fun e => e.returned)
    && c.fl.isEmpty

/-- Step 3: lease and registrations withdrawn, but for an operation that its home has performed meanwhile (R292). The arrival
at the group barrier stays. -/
def withdrawSaved (s : State) (c : Nat) : State :=
  let mine := (s.syncRegs ++ s.sops).filter fun o => o.cid = c && o.answered
  let t := withdraw (endLease s c) c
  { t with
    parked := t.parked ++ mine
    answers := if performed s (s.ctx c) then s.answers else t.answers }.updCtx c
      fun x => { x with reads := x.reads.filter fun r => r = stallMark }

/-- The trap frame of the area, which lies where trap entry writes it: the save writes it as it stands (log 14). -/
def frameNow (s : State) (a : Nat) (c : Ctx) : List Byte :=
  match readVA s a c.bind.vf (tfBase c).toNat frameSize with
  | .ok (b, _) => b
  | .error _ => zeros frameSize

/-- Steps 4 and 5: the area, then the header word; none when a write faults, with nothing written (log 15). -/
def writeArea (s : State) (c : Ctx) : Option State :=
  let vf := c.bind.vf
  let a := devAgent vf
  let at_ := c.crs.sabase.toNat
  let t := { warmW s a vf at_ (saveSize c) with fresh := s.fresh + 1 }
  match trRun t a vf .w at_ (saveSize c) with
  | .ok _ =>
    (match devWrite t a vf (at_ + 8)
        (saveHead c (tileTime s (tileOf c.cid)) ++ saveLow c (Config.freeWord s.fresh) ++ frameNow t a c ++ saveHigh c) with
     | .error _ => none
     | .ok (t1, _) => match devWrite t1 a vf at_ (leBytes 8 (headerWord c true)) with
       | .error _ => none
       | .ok (t2, _) => some t2)
  | _ => none

/-- A context whose save has faulted is ready again; what it had registered it registers anew (R348). -/
def Ctx.unsaved (c : Ctx) (done : Bool) : Ctx :=
  { c with status := .ready, wait := if done then c.wait else none, held := none, preempt := false }

/-- A context whose save has ended: saved, or, when its pre-emption has been taken back meanwhile, to be restored at once (R363). -/
def Ctx.savedNow (c : Ctx) : Ctx :=
  { c with
    status := if c.preempt then .saved else .restoring
    preempt := false
    crs := { c.crs with sticky := c.crs.sticky.map fun w => w &&& ~~~0xFFFF0000#64 } }

/-- Restore is requested of the saved contexts of groups. -/
def askRestore (s0 : State) (gs : List Nat) : State :=
  let mine := s0.allCtx.filter fun c => gs.contains c.bind.group && c.status = .saved
  let s := (mine.map fun c => hwOf c.cid / 4).eraseDups.foldl flushCore s0
  let up (c : Ctx) : Ctx := if gs.contains c.bind.group && c.status = .saved then { c with status := .restoring } else c
  { s with cur := up s.cur, others := s.others.map up }

/-- A save fault: the victim is abandoned and not chosen again for its ticket; its saved contexts are restored, and of the others no
pre-emption is asked any more (R363). -/
def abandonVictim (s : State) (g : Group) : State :=
  let gs := gangOf s g
  let s1 := askRestore s gs
  let up (c : Ctx) : Ctx := if gs.contains c.bind.group then { c with preempt := false } else c
  { s1 with
    cur := up s1.cur
    others := s1.others.map up
    tickets := s1.tickets.map fun t => if g.victim = some t.id then { t with spared := gs ++ t.spared } else t
    groups := s1.groups.map fun x => if gs.contains x.id then { x with victim := none } else x }

/-- The end of a save: steps 3 to 5. -/
def endSave (s0 : State) (c : Nat) : State :=
  let s := flushCore (withdrawSaved s0 c) (hwOf c / 4)
  let x := s.ctx c
  match writeArea s x, s.group x.bind.group with
  | some t, some g => groupSaved (t.updCtx c Ctx.savedNow) g
  | some t, none => t.updCtx c Ctx.savedNow
  | none, og =>
    let t := { s with parked := s.parked.filter fun o => o.cid != c }.updCtx c fun y => y.unsaved (performed s x)
    match og with
    | some g => abandonVictim t g
    | none => t

/-- CONTEXT_SAVE: a requested pre-emption is taken, or the save under way completes. -/
def execContextSave (c : Nat) (s : State) : Host.Outcome State Fault Refusal :=
  let x := s.ctx c
  if x.status = .saving then (if saveDrained s x then evNext (endSave s c) else evNext s)
  else if x.preempt && takeable s x then evNext (beginSave s c)
  else evNext s

/-! ### Restore (R349, R362) -/

/-- Whether the groups' original hardware contexts and their blocks are free. -/
def canRestore (s : State) (gs : List Group) : Bool :=
  let ms := gs.flatMap Group.members
  ms.all (fun m => hwFree s (hwOf m))
    && (ms.map fun m => hwOf m / 4).all fun k =>
      accUsed s k + (gs.map fun g => (g.members.filter fun m => hwOf m / 4 = k).length * accNeed (s.groupKernel g)).sum ≤ 16

/-- Whether a saved group waits no more for the ticket it was pre-empted for (R363). -/
def restorable (s : State) (g : Group) : Bool := !(s.tickets.any fun k => g.victim = some k.id)

/-- An operation withdrawn at save as it is registered again: its word is translated anew; none where that faults. -/
def anew (s : State) (o : SOp) : Option SOp :=
  match parseLoc (clearLow4 o.loc) with
  | .glob va => (devWord s o.cid o.vf va).map fun x => { o with word := x.1.pa, key := x.1.key, shadow := x.2 }
  | _ => some o

/-- The blocked bundle's wait is registered again, behind every registration present (R349), once the context's own earlier
accesses to the word are performed (R290). Where its word no longer translates the bundle issues again, and faults (R205). -/
def rewait (s : State) (c : Nat) (w : WaitOn) : State :=
  let mine := s.parked.filter fun o => o.cid = c
  let s1 := { s with parked := s.parked.filter fun o => o.cid != c }
  match w with
  | .answer => mine.foldl (fun t o0 =>
      match anew t o0 with
      | some o => if opWaits t o then { t with sops := t.sops ++ [o] } else performSync t o
      | none => t.updCtx c fun x => { x with wait := none, status := .ready }) s1
  | .pipeRoom p => { s1 with uid := s1.uid + 1 }.updPipe p fun x => x.reserve c s1.uid
  | .pipeRow p => s1.updPipe p fun x => { x with popQ := enqueue x.popQ c }
  | .lease =>
    let t := s1.tile (tileOf c)
    if t.lease.asked c then s1 else s1.setTile (t.request c s1.level)
  | _ => s1

/-- A group runs again once all its contexts, and those of its gang, are back (R355, R362). -/
def groupRestored (s : State) (g : Nat) : State :=
  match s.group g with
  | none => s
  | some x =>
    let gs := gangOf s x
    let back (y : Group) : Bool := y.members.all fun m => (s.ctx m).status != .restoring && (s.ctx m).status != .saved
    if s.groups.all fun y => !gs.contains y.id || back y then
      { s with groups := s.groups.map fun y => if gs.contains y.id && y.st = .restoring then { y with st := .running } else y }
    else s

/-- Whether a context stands on its core or is on its way there or back: a pre-emption can be asked of it. -/
def Ctx.askable (c : Ctx) : Bool := c.onCore || c.status = .saving || c.status = .restoring

/-- CONTEXT_RESTORE: the area is checked and reloaded; clearing VALID is the last act. -/
def execContextRestore (c : Nat) (s : State) : Host.Outcome State Fault Refusal :=
  let x := s.ctx c
  if x.status != .restoring then evNext s
  else
    let vf := x.bind.vf
    let a := devAgent vf
    let at_ := x.crs.sabase.toNat
    let fail := fun (t : State) => groupRestored (retireCtx ({ t with parked := t.parked.filter fun o => o.cid != c }) c (some { cls := 0x0B, sub := 4 })) x.bind.group
    match devRead s a vf at_ (saveSize x) with
    | .error _ => evNext (fail s)
    | .ok (b, _) =>
      match restoreOf x b with
      | none => evNext (fail { s with fresh := s.fresh + 1 })
      | some y =>
        match devWrite { s with fresh := s.fresh + 1 } a vf at_ (leBytes 8 (numAt b 0 8 % 2 ^ 63)) with
        | .error _ => evNext (fail s)
        | .ok (t, _) =>
          let t1 := (flushCore t (hwOf c / 4)).updCtx c fun _ => y
          evNext (groupRestored (match y.waitOn with
            | some w => rewait t1 c w
            | none => { t1 with parked := t1.parked.filter fun o => o.cid != c }) x.bind.group)

end Sys2Proof.Machine
end

