-- ==== Sys2Proof/Machine/Placement.lean ====
section
/-!
DEFINITION. Tickets and placement (14 R351 to R364, 15 R375 to R377): what a group needs, the fit on a die, reservation
tile by tile, residence, pre-emption for placement, the hand-over of banks.
-/
namespace Sys2Proof.Machine

/-! ### Room on a tile -/

/-- Whether a function may place work on a tile: in its partition, enabled, and free of another function's work (R476); `there` says
that the work is already reserving there, which goes on whatever the partition becomes. -/
def placeable (s : State) (fn t : Nat) (there : Bool) : Bool :=
  let mine (g : Group) : Bool := match s.launch g.launch with
    | some l => l.fn = fn
    | none => false
  (there || (s.fn fn).part.getLsbD t) && (s.tile t).svc.st = .enabled
    && s.groups.all (fun g => g.tile != t || g.gone || mine g) && s.doms.all fun d => d.vf = fn || !(d.tiles.contains t)

/-- Room on a core: the free contexts and the blocks taken. -/
structure CoreRoom where
  core : Nat
  free : List Nat
  acc : Nat
  deriving DecidableEq, Repr

def coreRooms (s : State) (t : Nat) : List CoreRoom :=
  (List.range 4).map fun k => ⟨k, (List.range 4).filter fun c => hwFree s (16 * t + 4 * k + c), accUsed s (4 * t + k)⟩

/-- The core with the most free contexts that can hold the blocks, the lowest of equals (R352). -/
def pickCore (acc : Nat) (l : List CoreRoom) : Option CoreRoom :=
  (l.filter fun r => !r.free.isEmpty && decide (r.acc + acc ≤ 16)).foldl (fun b r => match b with
    | none => some r
    | some x => if x.free.length < r.free.length then some r else some x) none

/-- Hardware contexts for `n` members in ascending order (R352). -/
def bindHw (t acc : Nat) : Nat → List CoreRoom → Option (List Nat)
  | 0, _ => some []
  | n + 1, rooms =>
    match pickCore acc rooms with
    | none => none
    | some r =>
      let rest := rooms.map fun x => if x.core = r.core then { x with free := x.free.drop 1, acc := x.acc + acc } else x
      (bindHw t acc n rest).map fun l => (16 * t + 4 * r.core + r.free.headD 0) :: l

/-- Whether a bank can be reserved: no ticket has, and no running work needs it any more (R361, R376). -/
def bankOpen (s : State) (t b : Nat) : Bool :=
  let x := (s.tile t).banks.toList.getD b ⟨none, none, none⟩
  x.claim.isNone && (match x.owner with
    | none => true
    | some g => match s.group g with
      | some y => y.gone || y.releasing.contains b
      | none => false)

/-- Where a run of `n` banks may start (R196), and the lowest run whose banks satisfy a condition. -/
def bankStarts (n : Nat) : List Nat := if n = 0 then [0] else (List.range (32 / n)).map (· * n)
def bankRun (p : Nat → Bool) (n : Nat) : Option Nat := (bankStarts n).find? fun b => (List.range n).all fun i => p (b + i)

/-- Change the banks of a run. -/
def updBanks (s : State) (t bank n : Nat) (f : BankSt → BankSt) : State :=
  let x := s.tile t
  s.setTile { x with banks := Vector.ofFn fun i =>
    let b := x.banks.toList.getD i.val ⟨none, none, none⟩
    if bank ≤ i.val && i.val < bank + n then f b else b }

/-! ### Reservations (R361) -/

/-- The ticket of a launch for its group or gang `i` (R360). -/
def launchTicket (s : State) (l : Launch) (i : Nat) : Ticket :=
  { id := s.uid + i, launch := l.id, num := i, dom := none, level := l.level, since := s.htime, die := none, groups := [], rows := 0,
    spared := [], after := none }

/-- Members of a launch's tickets: 1, or the member kernels of a gang. -/
def Launch.members (l : Launch) : Nat := max 1 l.nmem

/-- The tiles of a die. -/
def dieTiles (d : Nat) : List Nat := (List.range 13).map (· + 16 * d)

/-- Contexts, blocks and banks that member `m` needs (R351). -/
def memberNeeds (s : State) (l : Launch) (m : Nat) : Option (Nat × Nat × Nat) :=
  (s.kernelOf l.fn l.handle (l.kidx.getD m 0)).map fun k => (l.gsz.getD m 1, k.acc, k.spad)

/-- Whether a ticket has reserved on a tile already. -/
def reservesOn (s : State) (k : Ticket) (t : Nat) : Bool := s.groups.any fun g => g.ticket = k.id && g.st = .reserving && g.tile = t

/-- Reserve member `m` of a ticket on a tile, with the banks from `b`. -/
def reserveAt (s : State) (k : Ticket) (l : Launch) (m t b : Nat) : Option State :=
  match memberNeeds s l m with
  | none => none
  | some (n, acc, spad) =>
    if !placeable s l.fn t (reservesOn s k t) || !(List.range spad).all (fun i => bankOpen s t (b + i)) then none
    else match bindHw t acc n (coreRooms s t) with
      | some hw =>
        let g : Group := {
          id := s.uid, launch := l.id, ticket := k.id, gmem := m, num := k.num * l.members + m, st := .reserving, tile := t,
          members := hw, bank := b, banks := spad, arrived := [], gcarry := [], gknown := [], pass := [], along := [], went := [], succ := false,
          releasing := [], relAt := [], taint := false, audit := none, victim := none }
        some (updBanks { s with uid := s.uid + 1, groups := s.groups ++ [g] } t b spad fun x => { x with claim := some g.id })
      | none => none

/-- The tiles of a die and the runs of banks where a member might stand, the lowest first. -/
def spots (s : State) (l : Launch) (d m : Nat) : List (Nat × Nat) :=
  match memberNeeds s l m with
  | none => []
  | some (_, _, spad) => (dieTiles d).flatMap fun t => (bankStarts spad).map fun b => (t, b)
/-- Reserve a member on a tile, with the lowest run of banks. -/
def reserveOn (s : State) (k : Ticket) (l : Launch) (m t : Nat) : Option State :=
  match memberNeeds s l m with
  | none => none
  | some (_, _, spad) => (bankStarts spad).findSome? fun b => reserveAt s k l m t b
/-- Members `m`, `m + 1`, … of a ticket fit together on a die: there are places for all of them (R360). -/
def fitMembers (k : Ticket) (l : Launch) (d : Nat) : Nat → Nat → State → Bool
  | 0, _, _ => true
  | n + 1, m, s => (spots s l d m).any fun x => match reserveAt s k l m x.1 x.2 with
    | some t => fitMembers k l d n (m + 1) t
    | none => false

/-- The claim under which a domain's banks stand. -/
def domClaim (d : Nat) : Nat := 2 ^ 70 + d
/-- Reserve a domain's contexts and its two banks on a tile (17 R405). -/
def reserveDom (s : State) (d : Dom) (t : Nat) : Option State :=
  let vacant (b : Nat) : Bool := bankOpen s t b && ((s.tile t).banks.toList.getD b ⟨none, none, none⟩).owner.isNone
  if !placeable s d.vf t (!d.ctxs.isEmpty) then none
  else match bindHw t 0 d.tctx (coreRooms s t), bankRun vacant 2 with
    | some hw, some b =>
      some (updBanks { s with doms := s.doms.map fun x => if x.id = d.id then { x with ctxs := x.ctxs ++ hw } else x } t b 2
        fun x => { x with claim := some (domClaim d.id) })
    | _, _ => none

/-- A ticket gives up every reservation and keeps its place and its die (R361). -/
def dropReservation (s : State) (k : Ticket) : State :=
  let mine (c : Option Nat) : Bool := match c with
    | none => false
    | some x => k.groups.contains x || (match k.dom with
      | some d => x = domClaim d
      | none => false)
  { s with
    groups := s.groups.filter fun g => !(g.ticket = k.id && g.st = .reserving)
    doms := s.doms.map fun d => if k.dom = some d.id then { d with ctxs := [] } else d
    tiles := s.tiles.map fun t => { t with banks := t.banks.map fun b => if mine b.claim then { b with claim := none } else b }
    tickets := s.tickets.map fun x => if x.id = k.id then { x with groups := [], rows := 0 } else x }

/-- Whether ticket `b` is younger than `a` or of a lower level. -/
def youngerThan (s : State) (a b : Ticket) : Bool :=
  let pos (x : Ticket) : Nat := s.tickets.findIdx fun y => y.id = x.id
  b.level < a.level || (b.level = a.level && decide (pos a < pos b))

/-- The machine without the reservations that a ticket may have released. -/
def withoutYounger (s : State) (k : Ticket) : State := (s.tickets.filter fun x => youngerThan s k x).foldl dropReservation s

/-! ### Pipes of a gang (R353 to R355) -/

/-- Pipe ends of a gang's members: the member with each end. -/
def gangEnds (s : State) (l : Launch) : List (Nat × PipeEnd) :=
  (List.range l.nmem).flatMap fun m => match s.kernelOf l.fn l.handle (l.kidx.getD m 0) with
    | some k => k.pipes.map fun e => (m, e)
    | none => []
/-- Rows of all its pipes. -/
def gangDepth (s : State) (l : Launch) : Nat := (((gangEnds s l).filter fun e => e.2.pop).map fun e => 2 ^ e.2.ldepth).sum
/-- Rows of the die's pipe buffer in use or reserved by tickets. -/
def pipeRows (s : State) (d : Nat) : Nat :=
  ((s.pipes.filter fun p => p.die = d).map Pipe.depth).sum + ((s.tickets.filter fun k => k.die = some d).map Ticket.rows).sum

/-! ### The fit on a die (R360) -/

/-- Whether a launch's ticket fits on a die as the machine stands. -/
def launchFits (s : State) (k : Ticket) (l : Launch) (d : Nat) : Bool :=
  fitMembers k l d l.members 0 s && decide (gangDepth s l + pipeRows s d ≤ 4096)
/-- Whether tiles of a domain hold its needs. -/
def domHolds (s : State) (d : Dom) (ts : List Nat) : Bool := ts.all fun t => (reserveDom s d t).isSome
/-- Whether a domain's tiles hold its needs. -/
def domFits (s : State) (d : Dom) : Bool := domHolds s d d.tiles

/-- The machine with no work at all, for the fit of an empty die (R360, 17 R404). -/
def State.empty (s : State) : State :=
  { s with groups := [], doms := [], pipes := [], tickets := [], tiles := s.tiles.map fun t => { t with banks := Vector.replicate 32 ⟨none, none, none⟩ } }

/-- Whether a ticket fits on a die of a machine: a launch's there, of a domain's tiles those of `ts`. -/
def fitsAs (s : State) (k : Ticket) (d : Nat) (ts : Nat → Bool) : Bool :=
  match k.dom with
  | some q => (match s.doms.find? fun x => x.id = q with
    | some x => domHolds s x (x.tiles.filter ts)
    | none => false)
  | none => (match s.launch k.launch with
    | some l => launchFits s k l d
    | none => false)
/-- Whether a ticket fits on a die, what younger tickets have reserved counted as free (R360). -/
def ticketFits (s : State) (k : Ticket) (d : Nat) : Bool := fitsAs (withoutYounger (dropReservation s k) k) k d fun _ => true
/-- The same of what one die holds of it. -/
def ticketFitsDie (s : State) (k : Ticket) (d : Nat) : Bool := fitsAs (withoutYounger (dropReservation s k) k) k d fun t => t / 16 = d
/-- Whether it fits where it was sent, or on some die. -/
def fitsSomewhere (s : State) (k : Ticket) : Bool :=
  match k.die with
  | some d => ticketFits s k d
  | none => (List.range 8).any fun d => ticketFits s k d

/-! ### Residence (R352, R362, R330) -/

/-- SABASE of a hardware context (log 1). -/
def saveAreaOf (fn hw : Nat) : Word := Config.saveBase fn hw &&& 0x00FFFFFFFFFFFFC0#64

/-- LPAD of class `c` and its LILK bit (02 R58). -/
def padOf (o : CodeObj) (c : Nat) : Nat := o.lat.toList.getD c 1 - nativeLat.toList.getD c 1
def ilkOf (o : CodeObj) (c : Nat) : Bool := o.lat.toList.getD c 1 < nativeLat.toList.getD c 1

/-- A context bound and loaded (R330, R58, R373). -/
def loadCtx (o : CodeObj) (k : Kernel) (b : Binding) (cid : Nat) : Ctx :=
  { Ctx.fresh cid with
    status := .loaded
    lat := o.lat
    bind := b
    win := { Window.reset with strict := k.strict }
    crs := { Crs.reset with
      lpad := Vector.ofFn fun i => BitVec.ofNat 32 (((List.range 4).map fun j => padOf o (4 * i.val + j) * 2 ^ (8 * j)).sum)
      lilk := BitVec.ofNat 32 (((List.range 16).map fun c => if ilkOf o c then 2 ^ c else 0).sum)
      tvec := if k.hndl = 0 then 0 else o.codeBase + BitVec.ofNat 64 (64 * (k.hndl - 1))
      codebase := o.codeBase
      sabase := saveAreaOf b.vf (hwOf cid) } }

/-- The binding a kernel's contexts start from. -/
def kernelBinding (o : CodeObj) (k : Kernel) (fn level : Nat) : Binding :=
  { Binding.none with
    banks := 0, vf := fn, rows := k.rows, acc := k.acc, tokens := k.tokens, chainMax := k.chainMax, strict := k.strict
    entry := o.codeBase + BitVec.ofNat 64 (64 * k.entry), codeBase := o.codeBase, codeLen := 64 * o.nbund, dataBase := o.dataBase
    level := level }

/-- A context number for a hardware context that no other binding of it has had. -/
def freshCid (s : State) (hw : Nat) : Nat := hw + 4096 * (s.uid + 1)

/-- A group's members bound to hardware contexts, and their contexts loaded. -/
def bindGroup (s : State) (l : Launch) (g : Group) (pipes : List (Nat × Nat)) : State :=
  match s.objs.find? (fun o => o.handle = l.handle && o.fn = l.fn), s.groupKernel g with
  | some o, some k =>
    let free := { s with groups := s.groups.map fun x => if x.id = g.id then { x with members := [] } else x }
    let hw := (bindHw g.tile k.acc g.members.length (coreRooms free g.tile)).getD g.members
    let cids := hw.map (freshCid s)
    let s0 := (hw.map fun h => h / 4).eraseDups.foldl flushCore s
    let b : Binding := { kernelBinding o k l.fn l.level with
      bank := g.bank, banks := g.banks, launch := l.id, group := g.id, grank := g.num, ngroups := l.groups, pipes := pipes }
    { s0 with
      uid := s.uid + 1
      others := s0.others ++ cids.zipIdx.map fun x => loadCtx o k { b with member := x.2 } x.1
      groups := s.groups.map fun x => if x.id = g.id then { x with members := cids, st := .resident } else x }
  | _, _ => s

/-- The groups a ticket has reserved, in member order. -/
def ticketGroups (s : State) (k : Nat) : List Group := s.groups.filter fun g => g.ticket = k

/-- The pipes of a gang, one for each name (R353, R357). -/
def makePipes (s : State) (l : Launch) (gs : List Group) (d : Nat) : State :=
  let grp (m : Nat) : Nat := ((gs.find? fun g => g.gmem = m).map Group.id).getD 0
  let ends := gangEnds s l
  (ends.filter fun e => e.2.pop).foldl (fun st e =>
    let push := ((ends.find? fun x => x.2.name = e.2.name && !x.2.pop).map Prod.fst).getD 0
    { st with
      uid := st.uid + 1
      pipes := st.pipes ++ [⟨st.uid, d, 2 ^ e.2.ldepth, 2 ^ e.2.ldepth, [], [], [], grp push, grp e.1⟩] }) s
/-- Local number to pipe, for one member: its ends by name among the pipes just made. -/
def localPipes (s : State) (l : Launch) (first m : Nat) : List (Nat × Nat) :=
  let names := ((gangEnds s l).filter fun e => e.2.pop).map fun e => e.2.name
  ((gangEnds s l).filter fun e => e.1 = m).map fun e => (e.2.num, first + names.findIdx fun n => n = e.2.name)

/-- A group of a kernel launch is counted and, when its turn comes and a slot is free, selected for audit (19 R468); the
slot's bytes are from then on the log's, whose layout the spec leaves open. -/
def selectAudit (s : State) (l : Launch) (g : Nat) : State :=
  let d := s.dev
  let cfg := d.auditcfg.toNat
  let n := d.placed + 1
  let s1 := { s with dev := { d with placed := n } }
  let slot := (List.range 16).find? fun i => !(s.audits.any fun a => a.slot = i)
  match d.auditcfg.getLsbD 31 && n % 2 ^ bitsOf 8 5 cfg = 0, slot, s.group g with
  | true, some i, some x =>
    let len := 2 ^ (bitsOf 0 4 cfg + 16)
    let pa := bitsOf 16 36 d.auditlog.toNat * 2 ^ 16 + i * len
    let a : Audit := {
      id := s.uid, launch := l.id, num := x.num, group := g, members := x.members, tile := x.tile, slot := i, len := len, size := 0,
      log := [], sig := 0, ready := false, replay := none, twins := [], sig2 := 0, used := [], lack := false }
    let s2 : State := { s1 with
      uid := s.uid + 1
      fresh := s.fresh + 1
      mem := memWrite s.mem pa ((List.range len).map (Config.freeByte s.fresh))
      audits := s.audits ++ [a] }
    (s2.updLaunch l.id fun y => { y with audits := y.audits + 1 }).updGroup g fun y => { y with audit := some s.uid }
  | _, _, _ => s1

/-- A held node tells the host (16 R399): byte 48 the kind, byte 49 the verdict, bytes 63:56 HTIME, MSI-X vector 1. -/
def tellHeld (s : State) (l : Launch) (kind verdict : Nat) : State :=
  let w (st : State) (off : Nat) (b : List Byte) : State := match devWrite st (devAgent l.fn) l.fn (l.graph + off) b with
    | .ok (t, _) => t
    | .error _ => st
  raiseMsi (w (w s 48 [BitVec.ofNat 8 kind, BitVec.ofNat 8 verdict]) 56 (leBytes 8 s.htime)) l.fn 1

/-- A placed launch's node leaves the table, or watches its early predecessors; it is held early as soon as one of them has
completed tainted or cancelled (16 R398). -/
def settleNode (s : State) (lid : Nat) : State :=
  match s.launch lid with
  | none => s
  | some l =>
    if (l.node = some .queued && l.issued = l.n) || l.node = some .watching then
      match l.preds.find? Pred.failed with
      | some p => tellHeld (s.updLaunch lid fun x => { x with node := some .heldEarly }) l 2 (p.done.getD 0)
      | none =>
        let left := l.preds.all fun p => !p.early || p.done.isSome
        s.updLaunch lid fun x => { x with node := if left then none else some .watching }
    else s

/-- Every resource of a launch's ticket is reserved: its groups are resident, and the ticket is gone. -/
def makeResident (s : State) (k : Ticket) (l : Launch) (d : Nat) : State :=
  let gs := ticketGroups s k.id
  let first := s.uid
  let s1 := makePipes s l gs d
  let s2 := gs.foldl (fun st g => bindGroup st l g (localPipes s l first g.gmem)) s1
  let s3 := if l.nmem = 0 then gs.foldl (fun st g => selectAudit st l g.id) s2 else s2
  let s4 := { s3 with tickets := s3.tickets.filter fun x => x.id != k.id }
  settleNode (s4.updLaunch l.id fun x => { x with issued := x.issued + 1 }) l.id

/-- A mailbox command ends (20 R478): its result, when it has a place, the cause in MBSTAT, BUSY clear, MSI-X vector 0. -/
def mailEnd (s : State) (fn : Nat) (res : Option Nat) (cause : Nat) (extra : List Byte) : State :=
  let s1 := (match res with
    | none => s
    | some r => (match devWrite s (devAgent fn) fn r (BitVec.ofNat 8 cause :: (extra ++ zeros (15 - extra.length))) with
      | .ok (t, _) => t
      | .error _ => s))
  let f := s1.fn fn
  raiseMsi (s1.setFn fn { f with mail := { f.mail with cmd := none, cause := cause } }) fn 0

/-- The command of a function's mailbox is done, with what its result says beyond the cause. -/
def mailDone (s : State) (fn cause : Nat) (extra : List Byte) : State :=
  match (s.fn fn).mail.cmd with
  | none => s
  | some m => mailEnd s fn (some m.res) cause extra

/-! ### Hand-over of banks (R376) -/

/-- Scratchpad cells outside a run of banks. -/
def zeroBanks (spad : List Host.Cell) (t bank n : Nat) : List Host.Cell :=
  spad.filter fun c => c.1 < spadKey t (bank * 2 ^ 18) || spadKey t ((bank + n) * 2 ^ 18) ≤ c.1

/-- A bank passes to an owner: zeroed when its last owner was of another function; what was written there before is visible to it. -/
def takeBank (s : State) (t b g fn : Nat) : State :=
  let x := (s.tile t).banks.toList.getD b ⟨none, none, none⟩
  let s0 := settlePieces s fun p => 16 * p / 2 ^ 18 = 32 * t + b
  let s1 := if x.lastFn.isSome && x.lastFn != some fn then { s0 with spad := zeroBanks s.spad t b 1 } else s0
  updBanks s1 t b 1 fun _ => ⟨some g, some fn, none⟩
/-- The banks of a tile claimed under a number. -/
def claimedBanks (s : State) (t claim : Nat) : List Nat :=
  (List.range 32).filter fun b => ((s.tile t).banks.toList.getD b ⟨none, none, none⟩).claim = some claim

/-- Every tile of a domain is reserved: it is resident, its banks are its own, and DOMAIN.OPEN completes (17 R405). -/
def domResident (s : State) (k : Ticket) (d : Dom) : State :=
  let s0 := d.tiles.foldl (fun st t => (claimedBanks st t (domClaim d.id)).foldl (fun u b => takeBank u t b (domClaim d.id) d.vf) st) s
  let s1 : State := { s0 with tickets := s.tickets.filter fun x => x.id != k.id }
  match s.objs.find? (fun o => o.handle = d.handle && o.fn = d.vf), s.kernelOf d.vf d.handle d.kidx with
  | some o, some kn =>
    let cids := d.ctxs.map (freshCid s)
    let mk (c : Nat) : Ctx := { loadCtx o kn (kernelBinding o kn d.vf 15) c with status := .free }
    let s2 : State := { s1 with
      uid := s.uid + 1
      others := s1.others ++ cids.map mk
      doms := s1.doms.map fun x => if x.id = d.id then { x with ctxs := cids, resident := true } else x }
    mailDone (d.tiles.foldl wakeTile s2) d.vf 0 (zeros 7 ++ leBytes 8 d.id)
  | _, _ => s1

/-! ### TICKET_RESERVE (R360, R361) -/

/-- The dies a ticket has been sent to: a domain's are those of its tiles. -/
def ticketDies (s : State) (k : Ticket) : List Nat :=
  match k.dom with
  | some q => (match s.doms.find? fun x => x.id = q with
    | some x => (x.tiles.map fun t => t / 16).eraseDups
    | none => [])
  | none => k.die.toList
/-- Whether no other ticket that waits on one of its dies goes before this one. -/
def isOldest (s : State) (k : Ticket) : Bool :=
  s.tickets.all fun x => x.id = k.id || youngerThan s k x || !((ticketDies s x).any fun d => (ticketDies s k).contains d)

/-- Some of a list of tickets, the first as few as they are needed, whose reservations keep a need from being met. -/
def chooseYield (fits : State → Bool) (s : State) : List Ticket → List Ticket
  | [] => []
  | x :: r => if fits s then [] else
      let l := chooseYield fits (dropReservation s x) r
      if fits (l.foldl dropReservation s) then l else x :: l
/-- Whether a ticket holds anything. -/
def Ticket.holds (k : Ticket) : Bool := !k.groups.isEmpty || k.rows != 0
/-- A ticket yields to an older one: it retries after that one has been placed (R361). -/
def yieldOne (k : Ticket) (s : State) (x : Ticket) : State :=
  let t := dropReservation s x
  { t with tickets := t.tickets.map fun y => if y.id = x.id then { y with after := some k.id } else y }
/-- Where an older ticket needs what younger half-reserved ones hold, these release all that is theirs, the youngest of the
lowest level first; others keep what they hold (R361). -/
def yieldTo (s : State) (k : Ticket) (fits : State → Bool) : State :=
  let l := ((s.tickets.filter fun x => youngerThan s k x && x.holds).reverse)
  if fits (l.foldl dropReservation s) then (chooseYield fits s l).foldl (yieldOne k) s else s

/-- The machine with no work but what a ticket has reserved. -/
def State.onlyOf (s : State) (k : Ticket) : State :=
  let left (b : BankSt) : BankSt := if b.claim.any k.groups.contains then { b with owner := none } else ⟨none, none, none⟩
  { s with
    groups := s.groups.filter fun g => g.ticket = k.id && g.st = .reserving
    doms := []
    pipes := []
    tickets := []
    tiles := s.tiles.map fun t => { t with banks := t.banks.map left } }
/-- Whether a launch's ticket could still be placed on its die if that ran nothing else. DESIGN CHOICE: one that could not, since a
tile of the die has gone, is sent anew; otherwise it stays with its die (R360; log 40). -/
def dieServes (s : State) (k : Ticket) (d : Nat) : Bool :=
  match k.dom, s.launch k.launch with
  | none, some l => fitMembers k l d (l.members - k.groups.length) k.groups.length (s.onlyOf k)
  | _, _ => true

/-- A ticket that lacks a resource: one that its die can hold no more is sent anew; to the oldest of the die's highest level younger
ones yield. -/
def lackResource (s : State) (k : Ticket) (d : Nat) (fits : State → Bool) : State :=
  if !dieServes s k d then
    let t := dropReservation s k
    { t with tickets := t.tickets.map fun x => if x.id = k.id then { x with die := none } else x }
  else if isOldest s k then yieldTo s k fits else s

/-- A level at or above a ticket's, of a launch. -/
def levelBefore (s : State) (k : Ticket) (l : Nat) : Bool := match s.launch l with
  | some x => k.level ≤ x.level
  | none => false
/-- A saved group or gang that would be restored now goes before new tickets of its level (R362). -/
def restoreFirst (s : State) (k : Ticket) : Bool :=
  s.groups.any fun g => g.st = .saved && restorable s g && canRestore s ((gangGroups s g).filter fun x => x.st = .saved) && levelBefore s k g.launch
/-- A group just reserved becomes resident with its place among its launch's groups, as the replay of an audit. -/
def bindReplay (s : State) (a : Audit) (l : Launch) (g : Nat) : State :=
  let s1 := s.updGroup g fun x => { x with num := a.num }
  let s2 := match s1.group g with
    | some x => bindGroup s1 l x []
    | none => s1
  s2.updAudit a.id fun x => { x with
    replay := some g, twins := ((s2.group g).map Group.members).getD [], sig2 := 0, used := [], lack := false }
/-- The replay of an audited group is placed on another tile of its die, as a group of the same size and resources (19 R469).
None while no tile has room. -/
def placeReplay (s : State) (a : Audit) : Option State :=
  match s.launch a.launch with
  | none => none
  | some l =>
    (((dieTiles (a.tile / 16)).filter fun t => t != a.tile).findSome? fun t => reserveOn s (launchTicket s l 0) l 0 t).map fun st =>
      bindReplay st a l s.uid
/-- A replay that waits and has room goes before new tickets of its level (19 R469). -/
def replayFirst (s : State) (k : Ticket) : Bool :=
  s.audits.any fun a => settledAudit s a && a.replay.isNone && levelBefore s k a.launch && (placeReplay s a).isSome
/-- A ticket is not placed before one of higher level, or an older one of its level, that fits, nor before a restore or a replay
(R360). -/
def behind (s : State) (k : Ticket) : Bool :=
  restoreFirst s k || replayFirst s k || s.tickets.any fun x => x.id != k.id && youngerThan s x k && fitsSomewhere s x

/-- Whether the hardware contexts a ticket has reserved belong to a saved group of its level or above that waits for nothing but them:
the restore goes before new tickets of the level (R362). -/
def takesSaved (s : State) (k : Ticket) : Bool :=
  s.groups.any fun g => g.st = .saved && restorable s g && levelBefore s k g.launch && g.members.any fun m =>
    s.groups.any fun x => x.ticket = k.id && x.st = .reserving && x.members.any fun n => hwOf n = hwOf m

/-- Reserve member `m` of a ticket: on the lowest place of the die that leaves the members behind it a fit, what younger tickets have
reserved counted as free (R360). -/
def reserveMember (s : State) (k : Ticket) (l : Launch) (d m : Nat) : Option State :=
  (spots s l d m).findSome? fun x => match reserveAt s k l m x.1 x.2 with
    | some t =>
      if !takesSaved t k && fitMembers k l d (l.members - (m + 1)) (m + 1) (withoutYounger t k) then some t else none
    | none => none

/-- Whether a ticket may be served now: higher levels first, within a level in ticket order, so that every ticket before it has been
served or fits nowhere; one that has yielded waits until the older ticket has been placed (R360, R361). -/
def servable (s : State) (k : Ticket) : Bool :=
  k.holds || (s.tickets.all (fun x => k.after != some x.id)
    && s.tickets.all fun x => x.id = k.id || !youngerThan s x k || x.holds || !fitsSomewhere s x)

/-- One reservation of a ticket that has been sent to a die: first its rows of the die's pipe buffer, then tile by tile. -/
def reserveStep (s : State) (k : Ticket) (d : Nat) : State :=
  let keep (t : State) (k1 : Ticket) : State := { t with tickets := t.tickets.map fun x => if x.id = k.id then k1 else x }
  if restoreFirst s k || replayFirst s k then s
  else match k.dom with
  | some q =>
    (match s.doms.find? fun x => x.id = q with
     | none => s
     | some x =>
       let tid := x.tiles.getD k.groups.length 0
       match reserveDom s x tid with
       | none => lackResource s k d fun t => (reserveDom t x tid).isSome
       | some t =>
         let k1 := { k with groups := k.groups ++ [tid] }
         if k1.groups.length < x.tiles.length then keep t k1
         else if behind s k then s
         else match (keep t k1).doms.find? fun y => y.id = q with
           | some y => domResident (keep t k1) k1 y
           | none => keep t k1)
  | none =>
    match s.launch k.launch with
    | none => s
    | some l =>
      let depth := gangDepth s l
      if k.rows = 0 && depth != 0 then
        if pipeRows s d + depth ≤ 4096 then keep s { k with rows := depth } else lackResource s k d fun t => pipeRows t d + depth ≤ 4096
      else match reserveMember s k l d k.groups.length with
      | none => lackResource s k d fun t => (reserveMember t k l d k.groups.length).isSome
      | some t =>
        let k1 := { k with groups := k.groups ++ [s.uid] }
        if k1.groups.length < l.members then keep t k1
        else if behind s k then s
        else makeResident (keep t k1) k1 l d

/-- TICKET_RESERVE: the ticket is sent to the lowest die on which it fits, and reserves its tiles one after the other. -/
def execTicketReserve (k : Nat) (s : State) : Host.Outcome State Fault Refusal :=
  match s.tickets.find? fun x => x.id = k with
  | none => evNext s
  | some t =>
    if !servable s t then evNext s
    else match t.die with
    | some d => evNext (reserveStep s t d)
    | none => (match (List.range 8).find? fun d => ticketFits s t d with
      | some d => evNext (reserveStep s { t with die := some d } d)
      | none => evNext s)

/-! ### PREEMPT_TIMEOUT (R363, R364) -/

/-- A running group as a victim of a ticket: of lower level, on the die, not spared, and no replay (log 26). -/
def isVictim (s : State) (k : Ticket) (d : Nat) (g : Group) : Bool :=
  g.st = .running && !(s.audits.any fun a => a.replay = some g.id) && g.tile / 16 = d && !(k.spared.contains g.id) && (match s.launch g.launch with
    | some l => l.level < k.level
    | none => false)

/-- The order of R363: lowest level first, then the youngest ticket. -/
def victimBefore (s : State) (a b : Group) : Bool :=
  let lv (g : Group) : Nat := ((s.launch g.launch).map Launch.level).getD 0
  lv a < lv b || (lv a = lv b && decide (b.ticket < a.ticket))
def insertVictim (s : State) (g : Group) : List Group → List Group
  | [] => [g]
  | x :: r => if victimBefore s g x then g :: x :: r else x :: insertVictim s g r

/-- The machine once the groups of these tickets are saved. -/
def savedAs (s : State) (tickets : List Nat) : State :=
  { s with groups := s.groups.map fun g => if tickets.contains g.ticket && g.st = .running then { g with st := .saved } else g }

/-- The shortest run of victims, taken in order, that lets the ticket fit. -/
def chooseVictims (s : State) (k : Ticket) (d : Nat) : List Nat → List Nat → Option (List Nat)
  | [], acc => if ticketFitsDie (savedAs s acc) k d then some acc else none
  | v :: r, acc => if ticketFitsDie (savedAs s acc) k d then some acc else chooseVictims s k d r (acc ++ [v])
/-- Without those it does not need, the first chosen kept before the last. -/
def pruneVictims (s : State) (k : Ticket) (d : Nat) (l : List Nat) : List Nat :=
  l.reverse.foldl (fun keep v => if ticketFitsDie (savedAs s (keep.filter fun x => x != v)) k d then keep.filter fun x => x != v else keep) l

/-- The tickets whose groups are chosen on a die beside those being saved already: nothing where none is needed, none where it
cannot be made to fit or may not. -/
def victimsOn (s : State) (k : Ticket) (d : Nat) : Option (List Nat) :=
  let wait := s.dev.dspwait.toList.getD d 0
  let cand := (s.groups.filter (isVictim s k d)).foldl (fun l g => insertVictim s g l) []
  let waiting := ((cand.filter fun g => g.victim.isSome).map Group.ticket).eraseDups
  if ticketFitsDie s k d then some []
  else if wait = 0 || s.htime < k.since + wait then none
  else (chooseVictims s k d ((cand.filter fun g => g.victim.isNone).map Group.ticket).eraseDups waiting).map fun l =>
    (pruneVictims s k d l).filter fun v => !waiting.contains v

/-- The victims of a ticket that cannot be placed: on the first die where there are some, or, for a domain, on every die that it
needs. -/
def victims (s : State) (k : Ticket) : List Nat :=
  match k.dom with
  | none => ((List.range 8).findSome? (victimsOn s k)).getD []
  | some q =>
    let dies := match s.doms.find? fun x => x.id = q with
      | some x => (x.tiles.map fun t => t / 16).eraseDups
      | none => []
    let l := dies.map (victimsOn s k)
    if l.all Option.isSome then l.flatMap fun x => x.getD [] else []

/-- PREEMPT_TIMEOUT: pre-emption is requested of every context of the chosen groups. -/
def execPreemptTimeout (k : Nat) (s : State) : Host.Outcome State Fault Refusal :=
  match s.tickets.find? fun x => x.id = k with
  | none => evNext s
  | some t =>
    if fitsSomewhere s t then evNext s
    else
      let v := victims s t
      let hit (g : Group) : Bool := v.contains g.ticket && g.st = .running
      let ids := (s.groups.filter hit).map Group.id
      let up (c : Ctx) : Ctx := if ids.contains c.bind.group && c.askable then { c with preempt := true } else c
      let s1 := { s with
        cur := up s.cur, others := s.others.map up
        groups := s.groups.map fun g => if hit g then { g with victim := some k } else g }
      evNext ((s1.groups.filter fun g => ids.contains g.id).foldl groupSaved s1)

/-! ### RESTORE_REQUEST (R362) -/

/-- RESTORE_REQUEST: a saved group, or the gang it belongs to, is to be restored, when the ticket it was saved for waits no more
and no ticket of a higher level fits (R360, R363); and the contexts of a running group that were saved without it (R344). -/
def execRestoreRequest (gr : Nat) (s : State) : Host.Outcome State Fault Refusal :=
  match s.group gr with
  | none => evNext s
  | some g =>
    let gs := (gangGroups s g).filter fun x => x.st = .saved
    let above := s.tickets.any fun k => !levelBefore s k g.launch && fitsSomewhere s k
    if g.st = .saved && restorable s g && canRestore s gs && !above then
      let s1 := askRestore s (gs.map Group.id)
      evNext { s1 with groups := s1.groups.map fun x =>
        if (gs.map Group.id).contains x.id then { x with st := .restoring, victim := none } else x }
    else if g.st = .running && g.victim.isNone then evNext (askRestore s (gangOf s g))
    else evNext s

/-! ### GROUP_READY and BANK_FREE (R375 to R377) -/

/-- The entry state of a context (R375), with what its launch has acquired (12 R319). -/
def enterKernel (l : Launch) (c : Ctx) : Ctx :=
  let put (r : Regs) (n : BitVec 5) (v : Word) : Regs := r.setScalar n ⟨v, 24⟩
  let b := c.bind
  { c with
    status := .ready
    pc := b.entry
    regs := put (put (put (put (put c.regs 1 l.args) 2 b.dataBase) 3 (BitVec.ofNat 64 b.member)) 4 (BitVec.ofNat 64 b.grank)) 5
      (BitVec.ofNat 64 b.ngroups)
    view := { c.view with known := l.known } }

/-- A resident group's contexts become ready. -/
def readyGroup (l : Launch) (s : State) (g : Group) : State :=
  let s0 := (g.members.map fun m => hwOf m / 4).eraseDups.foldl flushCore s
  let s1 := (List.range g.banks).foldl (fun st i => takeBank st g.tile (g.bank + i) g.id l.fn) s0
  let up (c : Ctx) : Ctx := if c.bind.group = g.id && c.status = .loaded then enterKernel l c else c
  { s1 with cur := up s1.cur, others := s1.others.map up }.updGroup g.id fun x => { x with st := .running }

/-- GROUP_READY: every bank of the group, or of every group of its gang, is free. -/
def execGroupReady (gr : Nat) (s : State) : Host.Outcome State Fault Refusal :=
  match s.group gr with
  | none => evNext s
  | some g =>
    match s.launch g.launch with
    | none => evNext s
    | some l =>
      let gs := s.groups.filter fun x => x.ticket = g.ticket && x.launch = g.launch && x.st = .resident
      let free (x : Group) : Bool := (List.range x.banks).all fun i =>
        ((s.tile x.tile).banks.toList.getD (x.bank + i) ⟨none, none, none⟩).owner.isNone
      if g.st = .resident && gs.all free then
        evNext ((gs.foldl (readyGroup l) s).updLaunch l.id fun x => { x with tstart := some (x.tstart.getD s.htime) })
      else evNext s

/-- Whether `len` bytes from a location of a context reach bank `b` of its tile. -/
def locTouches (s : State) (c : Ctx) (b : Nat) (w : Word) (len : Nat) : Bool :=
  match parseLoc (clearLow4 w) with
  | .here off => (List.range (min (len / 128 + 2) c.bind.banks)).any fun i => c.bankOf (off + 128 * i) = b
  | .remote t off => t = tileOf c.cid && (List.range (min (len / 128 + 2) 64)).any fun i => remoteKey s t (off + 128 * i) / 2 ^ 18 = 32 * t + b
  | .stream q _ =>
    let r := c.win.q.toList.getD q QBind.none
    r.valid && (List.range 16).any fun l => c.bankOf (r.ring * 256 + 128 * l) = b
  | _ => false

/-- Whether a command still to be performed touches a bank. -/
def copyTouches (s : State) (c : Ctx) (b : Nat) (x : CopyCmd) : Bool :=
  1 ≤ x.state && x.state ≤ 3 && (locTouches s c b x.srcWord (32 * x.total) || locTouches s c b x.dstWord (32 * x.total)
    || (x.isList && locTouches s c b (x.ops.getD 0 0) (2 * (x.ops.getD 1 0).toNat)))

/-- The banks that a queued array operation has still to read (R272, R277, R278). -/
def arrReads (c : Ctx) (o : ArrOp) : List Nat :=
  let run (w : Word) (n : Nat) : List Nat := (List.range (n / 128 + 2)).map fun i => c.bankOf (w.toNat - w.toNat % 128 + 128 * i)
  let d := descOf (o.ops.getD 2 0)
  let form := mmaForm o.op
  let panels := (if (mmaExt o.op).getLsbD 5 then [] else run (o.ops.getD 0 0) (sizeA form d * d.mb * d.kb))
    ++ (if (mmaExt o.op).getLsbD 4 then [] else run (o.ops.getD 1 0) (sizeB form d * d.kb * d.nb))
  match o.op with
  | .mmaBf16 .. => panels
  | .mmaCb4 .. => panels
  | .mmaPlane .. => panels
  | .mgath .. =>
    let sg := (o.ops.getD 1 0).toNat
    (((List.range 32).map fun r => laneN 16 r (o.rows.getD 0 Row.zero).val.toNat).filter fun v => v < bitsOf 0 16 sg).flatMap fun v =>
      (List.range (bitsOf 16 8 sg + 1)).flatMap fun k =>
        let a := gatherAt (o.ops.getD 0 0).toNat (bitsOf 24 24 sg) v k
        [c.bankOf a, c.bankOf (a + 63)]
  | .mldb .. =>
    let sg := (o.ops.getD 1 0).toNat
    run (o.ops.getD 0 0) (2048 * ((bitsOf 4 4 sg + 1) * (bitsOf 8 8 sg + 1)))
  | _ => []

/-- The bytes from a sync word that an operation on it may reach: of a queue, its ring too (16 R384). -/
def syncSpan (s : State) (o : SOp) : Nat :=
  match parseQueue (wordRead s o.word o.key) with
  | some q => 64 + q.bytes * q.depth
  | none => 16

/-- What a group issued before it released a bank and has still on its way to it (R377): a copy or its posts, an array operation,
a sync operation. -/
def bankBusy (s : State) (g : Group) (b : Nat) : Bool :=
  let before (id : Nat) : Bool := match look b g.relAt with
    | some n => id < n
    | none => true
  g.members.any fun m =>
    let c := s.ctx m
    (c.win.cmds.any fun x => before x.2.id && copyTouches s c b x.2)
      || ((s.tile g.tile).arr.any fun o => o.cid = m && before o.id && (arrReads c o).contains b)
      || ((s.sops ++ s.syncRegs).any fun o => o.cid = m && before o.id && locTouches s c b o.loc (syncSpan s o))
      || s.posts.any fun p => p.cid = m && before p.cmd && locTouches s c b p.loc 16

/-- BANK_FREE: the ownership bit of a released bank becomes free. -/
def execBankFree (t b : Nat) (s : State) : Host.Outcome State Fault Refusal :=
  match ((s.tile t).banks.toList.getD b ⟨none, none, none⟩).owner with
  | none => evNext s
  | some o =>
    match s.group o with
    | none => evNext s
    | some g =>
      if g.releasing.contains b && !bankBusy s g b then
        evNext (forgetGroups (updBanks s t b 1 fun x => { x with owner := none }))
      else evNext s

end Sys2Proof.Machine
end

