-- ==== Sys2Proof/Machine/Launch.lean ====
section
/-!
DEFINITION. Launches (15 R378 to R382, R518, 16 R392 to R400): popping a launch queue, the graph's nodes, completion
records, cancellation.
-/
namespace Sys2Proof.Machine

/-! ### Queue words as the package scheduler uses them (R396) -/

/-- An operation of the scheduler on the QUEUE word at `va` of a function. -/
def schedOp (s : State) (vf va : Nat) (t : Tr) (sh : List (Nat × Option Nat)) : SOp :=
  { id := s.uid, cid := schedAgent, pc := 0, op := .qPop ⟨0, false⟩ ⟨0, 0, 0, 0⟩, loc := BitVec.ofNat 64 va, word := t.pa, key := t.key,
    anchor := 0, vf := vf, n := 0, row := none, carry := [], answered := false, along := [], shadow := sh }

/-- The QUEUE word at a global address, with the operation that would act on it; none where there is no well-formed one. A
word in host memory is none (11 R288). -/
def queueAt (s : State) (vf va : Nat) : Option (SOp × QueueW) :=
  if va % 16 != 0 || 2 ^ 56 ≤ va then none
  else match devWord s schedAgent vf va with
    | some (t, sh) => if paRegion t.pa = 1 then none else (parseQueue (wordRead s t.pa t.key)).map fun q => (schedOp s vf va t sh, q)
    | none => none

/-- Whether a queue holds an entry that the scheduler pops for a function, which its word must belong to (R386). -/
def QueueW.holdsFor (q : QueueW) (vf : Nat) : Bool := decide (q.free < q.depth) && bitsOf 24 8 q.owner = vf

/-- An entry popped by the scheduler: its bytes, whether they were poisoned, and the writes the pop acquires. -/
structure Popped where
  bytes : List Byte
  bad : Bool
  ws : List WRef
  deriving DecidableEq, Repr

/-- Whether the scheduler's pop is the next of a word: pops are served in the order of their arrival, and one that a context has
registered comes first (R389). -/
def popFree (s : State) (o : SOp) : Bool := !(s.syncRegs.any fun x => x.word = o.word && lineOf x.op = 0)

/-- A pop by the scheduler; none when the entry does not translate. A poisoned one is popped, its data unspecified (R519). -/
def schedPop (s : State) (vf va : Nat) : Option (State × Popped) :=
  match queueAt s vf va with
  | none => none
  | some (o, q) =>
    let ws := ((relsOf s o.word).filter fun x => 4 ≤ x.scope).map Carry.w
    match queuePop (warm s schedAgent vf (va + 64) (q.bytes * q.depth)) o q false with
    | .ok t b bad =>
      some ({ serveWord o.word t.syncRegs.length t with fresh := t.fresh + 1 },
        ⟨if bad then (List.range b.length).map (Config.freeByte s.fresh) else b, bad, ws⟩)
    | _ => none

/-! ### Launch entries (R394, R395) -/

/-- The ends of a gang are as R354 asks: one PUSH and one POP of every name, in two members, one gang name, 4,096 rows. -/
def gangOk (s : State) (l : Launch) : Bool :=
  let ks := (List.range l.nmem).filterMap fun m => s.kernelOf l.fn l.handle (l.kidx.getD m 0)
  let ends := gangEnds s l
  (match ks with
   | k :: r => !k.gname.isEmpty && r.all fun x => x.gname = k.gname
   | [] => false)
    && ends.all (fun e => (ends.filter fun x => x.2.name = e.2.name && x.2.pop = e.2.pop).length = 1
        && ends.any fun x => x.2.name = e.2.name && x.2.pop != e.2.pop && x.1 != e.1)
    && decide (gangDepth s l ≤ 4096)

/-- Used queue addresses of a node descriptor: inputs and outputs. -/
def nodeIn (d : List Byte) : List Nat := ((List.range 4).map fun i => numAt d (8 * i) 8).filter fun a => a != 0
def nodeOut (d : List Byte) : List Nat := ((List.range 2).map fun j => numAt d (32 + 8 * j) 8).filter fun a => a != 0

/-- Whether a descriptor keeps R396. -/
def nodeOk (s : State) (fn : Nat) (d : List Byte) : Bool :=
  zeroAt d 48 16 && !(nodeIn d).isEmpty && (nodeIn d ++ nodeOut d).all fun a => match queueAt s fn a with
    | some (_, q) => q.esz = 0 && q.scope = 6
    | none => false

/-- The descriptor of a launch, when it has one that can be read. -/
def nodeBytes (s : State) (fn graph : Nat) : Option (List Byte) :=
  if graph % 64 != 0 then none
  else match devRead s (devAgent fn) fn graph 64 with
    | .ok (b, bad) => if bad then none else some b
    | .error _ => none

/-- A launch as its entry gives it; an NMEM out of range names no member beyond the first. -/
def launchOf (s : State) (fn level : Nat) (b : List Byte) (known : List WRef) : Launch :=
  let nmem := numAt b 24 1
  let ms := if 2 ≤ nmem && nmem ≤ 8 then nmem else 1
  let graph := numAt b 56 8
  let d := if graph = 0 then none else nodeBytes s fn graph
  { id := s.uid, fn := fn, level := level, handle := numAt b 0 8, kidx := (List.range ms).map fun i => numAt b (8 + i) 1,
    n := numAt b 16 4, gsz := (List.range ms).map fun i => bitsOf (4 * i) 4 (numAt b 20 4) + 1, nmem := nmem, args := wordAt b 32,
    record := numAt b 40 8 / 64 * 64, place := numAt b 48 8, graph := graph, node := none, preds := [], known := known, vis := [],
    issued := 0, cancelled := false, vreq := 0, taint := false, corrected := false, user := 0, tstart := none, tend := 0, ngrp := 0,
    ntaint := 0, first := none, ws := [], inq := (d.map nodeIn).getD []
    outq := match d with
      | some x => if nodeOk s fn x then nodeOut x else []
      | none => []
    hints := 0, earlyEdges := false, audits := 0 }

/-- The first breach of R395, 2 to 9; 0 for none. -/
def breachOf (s : State) (l : Launch) (b : List Byte) : Nat :=
  let obj := s.objs.find? fun o => o.handle = l.handle && o.fn = l.fn
  let s1 := { s.empty with launches := [l] }
  let k0 := s.kernelOf l.fn l.handle (l.kidx.getD 0 0)
  if !zeroAt b 25 7 then 2
  else if (match obj with
    | some o => o.unloading
    | none => true) then 3
  else if l.kidx.any fun k => (s.kernelOf l.fn l.handle k).isNone then 4
  else if l.n = 0 || 2 ^ 20 < l.n || l.nmem = 1 || 8 < l.nmem then 5
  else if (if l.nmem = 0 then (match k0 with
    | some k => !k.gname.isEmpty
    | none => false) else !gangOk s l) then 6
  else if !((List.range 8).any fun d => launchFits s1 (launchTicket s1 l 0) l d) then 7
  else if l.graph != 0 && !(match nodeBytes s l.fn l.graph with
    | some d => nodeOk s l.fn d
    | none => false) then 8
  else if numAt b 40 8 % 64 != 0 then 9
  else 0

/-- A launch joins the ticket queue, with a ticket for each group or gang (R360). -/
def enqueueLaunch (s : State) (l : Launch) : State :=
  { s with uid := s.uid + l.n, tickets := s.tickets ++ (List.range l.n).map (launchTicket s l) }

/-- A popped entry: malformed ones reserve nothing and wait for their record; the others get tickets or park in the graph. -/
def takeLaunch (s : State) (fn level : Nat) (b : List Byte) (known : List WRef) : State :=
  let l := launchOf s fn level b known
  let s1 : State := { s with uid := s.uid + 1 }
  match breachOf s l b with
  | 0 =>
    if l.graph = 0 then enqueueLaunch { s1 with launches := s1.launches ++ [l] } l
    else { s1 with launches := s1.launches ++ [{ l with node := some .parked }] }
  | k => { s1 with launches := s1.launches ++ [{ l with n := 0, cancelled := true, first := some (0x31, k, 0) }] }

/-! ### LAUNCH_POP (R392, R393) -/

def LaunchQ.en (q : LaunchQ) : Bool := q.cfg.getLsbD 31
def LaunchQ.isDev (q : LaunchQ) : Bool := q.cfg.getLsbD 29
def LaunchQ.depth (q : LaunchQ) : Nat := 2 ^ bitsOf 8 5 q.cfg.toNat
def LaunchQ.level (q : LaunchQ) : Nat := bitsOf 0 4 q.cfg.toNat
def State.lq (s : State) (k : Nat) : LaunchQ := (look k s.lqs).getD LaunchQ.reset
def State.setLq (s : State) (k : Nat) (q : LaunchQ) : State := { s with lqs := put k q s.lqs }

/-- ERR is set and EN clears (R392, R395, R519). -/
def LaunchQ.fail (q : LaunchQ) : LaunchQ := { q with cfg := (q.cfg ||| 0x40000000) &&& ~~~0x80000000 }
def failQueue (s : State) (k : Nat) : State := raiseMsi (s.setLq k (s.lq k).fail) (k / 16) 4

/-- A device launch queue's word is as R392 asks. -/
def devQueueOk (s : State) (fn : Nat) (q : LaunchQ) : Bool :=
  match queueAt s fn q.base.toNat with
  | some (_, w) => w.esz = 2 && w.scope = 6
  | none => false

/-- The bytes of the entry a queue would give next; none when they cannot be read. -/
def peekEntry (s : State) (k : Nat) (q : LaunchQ) : Option (List Byte) :=
  let fn := k / 16
  if q.isDev then (schedPop s fn q.base.toNat).bind fun x => if x.2.bad then none else some x.2.bytes
  else match devRead s (devAgent fn) fn (q.base.toNat + 64 * (q.head.toNat % q.depth)) 64 with
    | .ok (b, bad) => if bad then none else some b
    | .error _ => none

/-- Nodes in the graph table (R397). -/
def nodesInTable (s : State) : Nat := (s.launches.filter fun l => l.node.isSome).length

/-- Whether a queue has an entry the scheduler may pop: none with GRAPH while the table is full. -/
def poppable (s : State) (k : Nat) (q : LaunchQ) : Bool :=
  let some? := if q.isDev then (match queueAt s (k / 16) q.base.toNat with
      | some (o, w) => (w.holdsFor (k / 16) && popFree s o) || !(w.esz = 2 && w.scope = 6)
      | none => true) else q.head != q.tail
  q.en && (s.fn (k / 16)).ready && some? && (nodesInTable s < 4096 || (match peekEntry s k q with
    | some b => numAt b 56 8 = 0
    | none => true))

/-- The queue of a level served last, and the one served next among some: the next after it (R393). -/
def lastOf (s : State) (level : Nat) : Nat := (look level s.lastLq).getD 1039
def nextAfter (last : Nat) (l : List Nat) : Option Nat :=
  let key (k : Nat) : Nat := (k + 1039 - last) % 1040
  l.foldl (fun b k => match b with
    | none => some k
    | some j => if key k < key j then some k else some j) none
/-- The queues that have a poppable entry, with their levels. -/
def readyQueues (s : State) : List (Nat × Nat) := (s.lqs.filter fun x => poppable s x.1 x.2).map fun x => (x.1, x.2.level)
def ofLevel (l : List (Nat × Nat)) (level : Nat) : List Nat := (l.filter fun x => x.2 = level).map Prod.fst
/-- The queue served next: the highest level, and within it the next after the one last served. -/
def nextQueue (s : State) : Option Nat :=
  let l := readyQueues s
  let top := (l.map Prod.snd).foldl max 0
  nextAfter (lastOf s top) (ofLevel l top)

/-! ### Fired nodes (R393, R398) -/

/-- Whether a turn of a level's queues is over: none has an entry to pop, or the next to be served stands at or before the one
served last. -/
def turnOver (s : State) (level : Nat) : Bool :=
  match nextAfter (lastOf s level) (ofLevel (readyQueues s) level) with
  | none => true
  | some k => k ≤ lastOf s level
/-- Fired nodes enter their level after the queues' turn (R398). DESIGN CHOICE: several that wait enter in the order in which their
entries were popped (log 92). -/
def enterFired (s : State) : State :=
  (s.launches.filter fun l => l.node = some .fired && turnOver s l.level).foldl
    (fun t l => enqueueLaunch (t.updLaunch l.id fun x => { x with node := some .queued }) l) s

/-- The host writes that the tail pointers of a function's queues have released to the scheduler. DEDUCED: a launch that a device
queue brings starts with them too, as the scheduler that starts it has acquired them (R319; log 92). -/
def hostKnown (s : State) (fn : Nat) : List WRef := (s.lqs.filter fun x => x.1 / 16 = fn).flatMap fun x => x.2.known

/-- LAUNCH_POP: an entry that cannot be read has been popped, and the queue fails (R395); one whose page does not translate at a
device queue has not (R519). -/
def launchPop (s : State) : State :=
  match nextQueue s with
  | none => s
  | some k =>
    let q := s.lq k
    let s1 : State := { s with lastLq := put q.level k s.lastLq }
    if q.isDev then
      if !devQueueOk s (k / 16) q then failQueue s1 k
      else match schedPop s1 (k / 16) q.base.toNat with
        | none => failQueue s1 k
        | some (t, x) =>
          let t1 := t.setLq k { q with head := q.head + 1 }
          if x.bad then failQueue t1 k else takeLaunch t1 (k / 16) q.level x.bytes (x.ws ++ hostKnown s (k / 16))
    else
      let t := s1.setLq k { q with head := q.head + 1 }
      match peekEntry s1 k q with
       | none => failQueue t k
       | some b => takeLaunch t (k / 16) q.level b q.known
/-- The nodes whose level's turn is over enter before the next turn begins, and after the entry that ends one. -/
def execLaunchPop (s : State) : Host.Outcome State Fault Refusal := evNext (enterFired (launchPop (enterFired s)))

/-! ### NODE_FIRE (R398) -/

/-- The input entries of a node, popped one from each in ascending order; none while one is empty. -/
def popInputs (fn : Nat) : List Nat → State → Option (State × List Popped)
  | [], s => some (s, [])
  | a :: r, s =>
    match queueAt s fn a with
    | none => none
    | some (o, q) =>
      if !q.holdsFor fn || !popFree s o then none
      else match schedPop s fn a with
        | none => none
        | some (t, e) => (popInputs fn r t).map fun x => (x.1, e :: x.2)

/-- The place of a record of a function among the verdicts kept for early successors. -/
def recordKey (fn record : Nat) : Nat := fn * 2 ^ 56 + record

/-- A predecessor as an edge entry of a function's queue names it, with what its record carried where it let its successors
start early and has completed already. -/
def predOf (s : State) (fn : Nat) (b : List Byte) : Pred × List WRef :=
  let w := numAt b 0 8
  let at_ := bitsOf 6 50 w * 64
  if bitsOf 2 1 w = 0 then ({ record := at_, early := false, done := some (bitsOf 0 2 w) }, [])
  else if s.launches.any fun l => l.fn = fn && l.record = at_ && l.earlyEdges then ({ record := at_, early := true, done := none }, [])
  else match look (recordKey fn at_) s.dev.early with
    | some (v, ws) => ({ record := at_, early := true, done := some v }, ws)
    | none => ({ record := at_, early := true, done := none }, [])

/-- NODE_FIRE: launch `n` leaves its input queues behind; it enters its level when the queues have had their turn, or is held for
its predecessors' verdicts. -/
def execNodeFire (n : Nat) (s : State) : Host.Outcome State Fault Refusal :=
  match s.launch n with
  | none => evNext s
  | some l =>
    if l.node != some .parked then evNext (enterFired s)
    else match popInputs l.fn l.inq s with
      | none => evNext s
      | some (t, es) =>
        let preds := es.map fun e => predOf t l.fn e.bytes
        let known := ((es.zip preds).filter fun x => !x.2.1.early).flatMap fun x => x.1.ws
        let bad := (es.map fun e => bitsOf 0 2 (numAt e.bytes 0 8)).find? fun v => 2 ≤ v
        let l1 : Launch := { l with
          preds := preds.map Prod.fst, known := known ++ l.known, vis := (preds.flatMap Prod.snd) ++ l.vis }
        let put (k : NodeSt) : State := t.updLaunch n fun _ => { l1 with node := some k }
        match bad with
        | some v => evNext (tellHeld (put .held) l1 1 v)
        | none => evNext (enterFired (put .fired))

/-! ### COMPLETION_RECORD_WRITE (R381, R382, R400, R518) -/

/-- The verdict (R381). -/
def Launch.verdict (l : Launch) : Nat :=
  if l.cancelled then 3 else if l.taint || l.vreq = 2 then 2 else if l.corrected || l.vreq = 1 then 1 else 0

/-- A completion record (R382): bytes 63:8, then STATUS. -/
def recordTail (user tstart tend ngrp ntaint fctx : Nat) : List Byte :=
  leBytes 8 user ++ leBytes 8 tstart ++ leBytes 8 tend ++ leBytes 4 ngrp ++ leBytes 4 ntaint ++ leBytes 4 fctx ++ zeros 20
def recordStatus (cls sub verdict : Nat) : List Byte := leBytes 8 (2 ^ 63 + sub * 2 ^ 16 + cls * 2 ^ 8 + verdict)

/-- A dropped record (R518). -/
def dropRecord (s : State) (fn at_ : Nat) : State :=
  let f := s.fn fn
  let n := min 127 (bitsOf 56 7 f.recfail.toNat + 1)
  raiseMsi (s.setFn fn { f with recfail := BitVec.ofNat 64 (n * 2 ^ 56 + at_ % 2 ^ 56) }) fn 5

/-- A record written, DONE last, or dropped whole. -/
def writeRecord (s : State) (fn at_ : Nat) (tail status : List Byte) : State × List WRef :=
  match devWrite s (devAgent fn) fn (at_ + 8) tail with
  | .error _ => (dropRecord s fn at_, [])
  | .ok (t, w) => match devWrite t (devAgent fn) fn at_ status with
    | .error _ => (dropRecord s fn at_, [])
    | .ok (u, v) => (u, [w, v])

/-- Successors in the function that watch a record learn its verdict and what it carries (R379, R398). -/
def tellSuccessors (s : State) (fn record verdict : Nat) (ws : List WRef) : State :=
  let up (l : Launch) : Launch :=
    if l.fn = fn && l.preds.any fun p => p.record = record && p.early && p.done.isNone then
      { l with
        preds := l.preds.map fun p => if p.record = record && p.early && p.done.isNone then { p with done := some verdict } else p
        vis := ws ++ l.vis }
    else l
  let s1 := { s with launches := s.launches.map up }
  (s1.launches.map Launch.id).foldl settleNode s1

/-- Whether a launch or a domain of an object's kernels waits or runs (R374). -/
def objInUse (s : State) (o : CodeObj) : Bool :=
  s.launches.any (fun l => l.handle = o.handle && l.fn = o.fn) || s.doms.any fun d => d.handle = o.handle && d.vf = o.fn

/-- An object with an unload pending goes once its last launch is gone (R374). -/
def sweepObjs (s : State) : State := { s with objs := s.objs.filter fun o => !o.unloading || objInUse s o }

/-- The groups of a launch retire with its record (R362). -/
def retireGroups (s : State) (l : Nat) : State :=
  forgetGroups { s with groups := s.groups.map fun g => if g.launch = l then { g with st := .retired } else g }

/-- A launch is complete: record, groups, edges, successors. -/
def completeLaunch (s : State) (l : Launch) : State :=
  let v := l.verdict
  let c := l.first.getD (0, 0, 0)
  let r := writeRecord s l.fn l.record (recordTail l.user (l.tstart.getD 0) l.tend l.ngrp l.ntaint c.2.2) (recordStatus c.1 c.2.1 v)
  let ws := r.2 ++ l.ws
  let s1 := retireGroups { r.1 with launches := r.1.launches.filter fun x => x.id != l.id } l.id
  let s2 := if l.earlyEdges then { s1 with dev := { s1.dev with early := put (recordKey l.fn l.record) (v, ws) s1.dev.early } }
    else pushEdges s1 l false v ws
  sweepObjs (tellSuccessors s2 l.fn l.record v ws)

/-- Whether nothing of a launch is left to run or to hold, every write that its record carries has been performed (R319, R328), and so
have its posts to sync words; no margin step of its tiles is due (19 R456, 21 R493). -/
def launchOver (s : State) (l : Launch) : Bool :=
  !(s.tickets.any fun k => k.dom.isNone && k.launch = l.id) && s.groups.all (fun g => g.launch != l.id || g.gone) && l.audits = 0
    && l.node.isNone && carryDone s l.ws && (l.cancelled || l.issued = l.n)
    && s.groups.all fun g => g.launch != l.id || (!(s.sops.any fun o => g.members.contains o.cid)
      && !(s.posts.any fun p => g.members.contains p.cid) && !(s.tile g.tile).svc.due)

/-- COMPLETION_RECORD_WRITE. -/
def execCompletionRecordWrite (l : Nat) (s : State) : Host.Outcome State Fault Refusal :=
  match s.launch l with
  | none => evNext s
  | some x => if launchOver s x then evNext (completeLaunch s x) else evNext s

/-! ### LAUNCH_CANCEL (R381) -/

/-- A launch is cancelled: its tickets go, its audits end (log 26), its contexts retire with class 0x30, which its record names also where no context of
it has retired with a cause (R381, R398). -/
def cancelLaunch (s : State) (l : Launch) : State :=
  let mine := s.tickets.filter fun k => k.dom.isNone && k.launch = l.id
  let s1 := mine.foldl dropReservation s
  let s2 : State := { s1 with tickets := s1.tickets.filter fun k => !(k.dom.isNone && k.launch = l.id) }
  let s3 := s2.updLaunch l.id fun x => { x with cancelled := true, node := none }
  let s3' := (s3.audits.filter fun a => a.launch = l.id).foldl endAudit s3
  let ms := (s3'.groups.filter fun g => g.launch = l.id && !g.gone).flatMap Group.members
  let s4 := ms.foldl (fun st m =>
    if (st.ctx m).status = .retired || (st.ctx m).status = .free then st else retireCtx st m (some { cls := cancelCls })) s3'
  s4.updLaunch l.id fun x => { x with first := some (x.first.getD (cancelCls, 0, 0)) }

def execLaunchCancel (l : Nat) (s : State) : Host.Outcome State Fault Refusal :=
  match s.launch l with
  | none => evNext s
  | some x => evNext (cancelLaunch s x)

end Sys2Proof.Machine
end

