-- ==== Sys2Proof/Machine/Mailbox.lean ====
section
/-!
DEFINITION. The management mailbox (20 R478, R479, R517): the doorbell and the checks of a command block, and the commands
that are neither a load nor DOMAIN.OPEN (15 R374, 16 R399, 18 R443, 19 R458, R459, 20 R483).
-/
namespace Sys2Proof.Machine

/-! ### MBDOOR_WRITE (R478) -/

/-- Commands of the table of R478, those only the PF issues, and the signed ones. -/
def mailCodes : List Nat := [1, 2, 3, 4, 5, 6, 0x10, 0x11, 0x12, 0x13, 0x14]
def mailPfOnly : List Nat := [5, 0x10, 0x11, 0x12, 0x13, 0x14]
def mailSigned : List Nat := [0x10, 0x12, 0x13, 0x14]

/-- The bytes of a block that must be zero (R478, R479). -/
def blockZero (b : List Byte) : Bool :=
  let op := numAt b 0 1
  zeroAt b 1 7 && zeroAt b 32 32
    && (if mailSigned.contains op then zeroAt b 65 7 && zeroAt b 88 168 else zeroAt b 64 192)

/-- The range of a bin's set points: start less 40 mV to the ceiling (R448). -/
def mvInRange (bin mv : Nat) : Bool := binStart.toList.getD bin 0 - 40 ≤ mv && mv ≤ binCeil.toList.getD bin 0

def State.signer (s : State) (k : Nat) : Signer := (look k s.dev.signers).getD ⟨false, 0, 0⟩

/-- The arguments of a command keep R517; a tile id names an enabled site (R15). -/
def mailArgsOk (s : State) (op arg arg2 : Nat) : Bool :=
  match op with
  | 1 => arg % 8 = 0 && arg2 = 0
  | 2 => arg = 0
  | 3 => arg2 = 0
  | 4 => arg2 < 2
  | 5 => arg % 64 = 0 && siteEnabled s arg2
  | 6 => arg2 % 64 = 0
  | 0x10 => arg2 < 8192
  | 0x11 => arg = 0 && arg2 < 8192
  | 0x12 => bitsOf 6 26 arg2 = 0 && (s.signer (bitsOf 0 6 arg2)).minsvn ≤ bitsOf 32 32 arg2
  | 0x13 => bitsOf 7 1 arg2 = 0 && bitsOf 11 5 arg2 = 0 && bitsOf 26 38 arg2 = 0 && siteEnabled s (bitsOf 0 7 arg2)
      && bitsOf 8 3 arg2 < 5 && mvInRange (bitsOf 8 3 arg2) (bitsOf 16 10 arg2)
  | 0x14 => arg2 < 64
  | _ => false


/-- A command block taken up: the command is accepted, or ends at once with a cause. -/
def takeBlock (s : State) (fn : Nat) (b : List Byte) : State :=
  let op := numAt b 0 1
  let arg := numAt b 8 8
  let res := numAt b 16 8
  let arg2 := numAt b 24 8
  if res % 16 != 0 then mailEnd s fn none 0x02 []
  else if !mailCodes.contains op || !blockZero b then mailEnd s fn (some res) 0x02 []
  else if fn != 0 && mailPfOnly.contains op then mailEnd s fn (some res) 0x0E []
  else if !mailArgsOk s op arg arg2 then mailEnd s fn (some res) 0x02 []
  else
    let f := s.fn fn
    s.setFn fn { f with mail := { f.mail with cmd := some ⟨op, arg, arg2, res, b⟩ } }

/-- Whether a function's registers answer: the boot has not failed, and no function-level reset runs (R481, R483). -/
def fnAnswers (s : State) (fn : Nat) : Bool := fn ≤ 64 && !(s.fn fn).flr && s.dev.boot.isNone

/-- MBDOOR_WRITE: 1 rings. -/
def execMbdoorWrite (fn : Nat) (v : Word) (s : State) : Host.Outcome State Fault Refusal :=
  if v != 1 || 64 < fn || (s.fn fn).flr then evNext s
  else
    let f := s.fn fn
    if f.mail.cmd.isSome then evNext (s.setFn fn { f with mail := { f.mail with drop := true } })
    else if f.mail.addr.toNat % 64 != 0 then evNext (mailEnd s fn none 0x02 [])
    else match devRead s (devAgent fn) fn f.mail.addr.toNat 256 with
      | .ok (b, false) => evNext (takeBlock s fn b)
      | _ => evNext (mailEnd s fn none 0x01 [])

/-- The command in a function's mailbox, when it is the one with this code. -/
def mailFor (s : State) (fn op : Nat) : Option MailCmd :=
  match (s.fn fn).mail.cmd with
  | some m => if m.op = op then some m else none
  | none => none

/-- Bytes a command names; none when they cannot be read. -/
def mailRead (s : State) (fn at_ n : Nat) : Option (List Byte) :=
  match devRead s (devAgent fn) fn at_ n with
  | .ok (b, false) => some b
  | _ => none

/-! ### Signed commands (R479) -/

/-- A signature block of 5,376 bytes (R371): its reserved bytes, its keys, and whether both signatures of a message verify. -/
def sigZero (b : List Byte) : Bool := zeroAt b 0 16 && zeroAt b 5373 3
def sigKeys (b : List Byte) : List Byte := (b.drop 16).take 1984
def sigEd (b msg : List Byte) : Bool := Config.ed25519 (numAt b 16 32) msg ((b.drop 2000).take 64)
def sigMl (b msg : List Byte) : Bool := Config.mlDsa ((b.drop 48).take 1952) msg ((b.drop 2064).take 3309)

/-- Whether the keys of a signature block are those of an enabled signer slot (R372, R479). -/
def signerOk (s : State) (slot : Nat) (b : List Byte) : Bool :=
  (s.signer slot).enabled && Config.sha3 (sigKeys b) = (s.signer slot).digest

/-- What a signed command's argument data say before the signature block, `n` bytes, or the cause of its failure. -/
def signedArgs (s : State) (fn : Nat) (m : MailCmd) (n : Nat) : Except Nat (List Byte) :=
  match mailRead s fn m.arg (n + 5376) with
  | none => .error 0x01
  | some b =>
    let args := b.take n
    let sig := b.drop n
    let msg := m.block ++ args
    if !sigZero sig then .error 0x02
    else if signerOk s (numAt m.block 64 1) sig && sigEd sig msg && sigMl sig msg && numAt m.block 72 8 = s.dev.serial.toNat
      && s.dev.counter < numAt m.block 80 8 then .ok args
    else .error 0x04

/-- A signed command has been accepted: its counter is kept. -/
def acceptCounter (s : State) (m : MailCmd) : State := { s with dev := { s.dev with counter := numAt m.block 80 8 } }

/-! ### The commands -/

/-- UNLOAD (15 R374): the second argument is the handle. -/
def execUnload (fn : Nat) (s : State) : Host.Outcome State Fault Refusal :=
  match mailFor s fn 2 with
  | none => evNext s
  | some m =>
    match s.objs.find? fun o => o.handle = m.arg2 && o.fn = fn && !o.unloading with
    | none => evNext (mailDone s fn 0x02 [])
    | some o =>
      let s1 := { s with objs := s.objs.map fun x => if x.handle = o.handle then { x with unloading := true } else x }
      evNext (mailDone (sweepObjs s1) fn 0 [])

/-- A node is released by the host (16 R398). -/
def releaseNode (s : State) (l : Launch) : State :=
  match l.node with
  | some .held => enqueueLaunch (s.updLaunch l.id fun x => { x with node := some .queued }) l
  | _ => s.updLaunch l.id fun x => { x with node := none }

/-- Whether a launch is the held node of a descriptor. -/
def Launch.heldAt (l : Launch) (fn graph : Nat) : Bool :=
  l.fn = fn && l.graph = graph && (match l.node with
    | some .held => true
    | some .heldEarly => true
    | _ => false)

/-- NODE_RELEASE_CANCEL (16 R399). -/
def execNodeReleaseCancel (fn : Nat) (s : State) : Host.Outcome State Fault Refusal :=
  match mailFor s fn 4 with
  | none => evNext s
  | some m =>
    match s.launches.find? fun l => l.heldAt fn m.arg with
    | none => evNext (mailDone s fn 0x02 [])
    | some l => evNext (mailDone (if m.arg2 = 0 then releaseNode s l else cancelLaunch s l) fn 0 [])

/-- A record of a margin table in its 32 bytes (19 R458). -/
def marginBytes (t : Nat) (r : MarginRec) : List Byte :=
  leBytes 2 t ++ leBytes 1 r.bin ++ leBytes 1 r.evt ++ leBytes 2 r.mv ++ zeros 2 ++ leBytes 4 r.rcnt ++ leBytes 8 r.ht
    ++ leBytes 2 (wrapN 16 r.temp) ++ leBytes 2 (wrapN 16 r.age) ++ leBytes 8 r.seq

/-- READ_MARGIN_TABLE (19 R458). -/
def execReadMarginTable (fn : Nat) (s : State) : Host.Outcome State Fault Refusal :=
  match mailFor s fn 5 with
  | none => evNext s
  | some m =>
    let recs := (s.tile m.arg2).svc.recs
    match devWrite s (devAgent fn) fn m.arg (recs.flatMap (marginBytes m.arg2)) with
    | .error _ => evNext (mailDone s fn 0x0D [])
    | .ok (t, _) => evNext (mailDone t fn 0 (zeros 7 ++ leBytes 8 recs.length))

/-- What a quote returns (R483): the nonce, the firmware's digest and SVN, every signer slot's digest and MINSVN, the tile die maps, the
serial number. -/
def quoteInfo (s : State) (nonce : List Byte) : List Byte :=
  nonce ++ leBytes 32 s.dev.fwDigest ++ leBytes 4 s.dev.fwSvn ++ (List.range 64).flatMap (fun k => leBytes 32 (s.signer k).digest ++ leBytes 4 (s.signer k).minsvn)
    ++ s.dev.tdmap.toList.flatMap (fun w => leBytes 4 w.toNat) ++ leBytes 8 s.dev.serial.toNat

/-- ATTESTATION_QUOTE (R483): 1,024 bytes of fields, then a signature block. -/
def execAttestationQuote (fn : Nat) (s : State) : Host.Outcome State Fault Refusal :=
  match mailFor s fn 6 with
  | none => evNext s
  | some m =>
    match mailRead s fn m.arg 32 with
    | none => evNext (mailDone s fn 0x01 [])
    | some nonce =>
      let fields := (List.range 1024).map (Config.quoteByte (quoteInfo s nonce))
      let sig := zeros 16 ++ (List.range 5357).map (Config.quoteSign fields) ++ zeros 3
      match devWrite s (devAgent fn) fn m.arg2 (fields ++ sig) with
      | .error _ => evNext (mailDone s fn 0x0D [])
      | .ok (t, _) => evNext (mailDone t fn 0 [])

def State.keySlot (s : State) (k : Nat) : KeySlot := (look k s.keys).getD ⟨0, 0, 0⟩

/-- KEY_LOAD (18 R443): the slot must be empty or revoked, and the wrapped key intact. -/
def execKeyLoad (fn : Nat) (s : State) : Host.Outcome State Fault Refusal :=
  match mailFor s fn 0x10 with
  | none => evNext s
  | some m =>
    match signedArgs s fn m 128 with
    | .error k => evNext (mailDone s fn k [])
    | .ok a =>
      let slot := s.keySlot m.arg2
      if !zeroAt a 72 56 then evNext (mailDone s fn 0x02 [])
      else if slot.kst = 1 then evNext (mailDone s fn 0x04 [])
      else match Config.keyUnwrap (a.take 72) with
        | none => evNext (mailDone s fn 0x04 [])
        | some key =>
          evNext (mailDone (acceptCounter { s with keys := put m.arg2 { slot with kst := 1, key := key } s.keys } m) fn 0 [])

/-- The translation state of a function has changed (18 R437): a fault found before is not kept. -/
def markTr (s : State) (fn : Nat) : State :=
  { s.setFn fn { s.fn fn with tmark := s.uid } with uid := s.uid + 1, walkFaults := s.walkFaults.filter fun w => w.vf != fn }

/-- A loaded key is erased (18 R443). -/
def KeySlot.revoke (k : KeySlot) : KeySlot := if k.kst = 1 then { k with kst := 2, key := 0 } else k

/-- KEY_REVOKE (18 R443): the owner's next TSYNC tells when no access under the old key is left. -/
def execKeyRevoke (fn : Nat) (s : State) : Host.Outcome State Fault Refusal :=
  match mailFor s fn 0x11 with
  | none => evNext s
  | some m =>
    let k := (s.keySlot m.arg2).revoke
    evNext (mailDone (markTr { s with keys := put m.arg2 k s.keys } k.own) fn 0 [])

def State.setSigner (s : State) (k : Nat) (x : Signer) : State := { s with dev := { s.dev with signers := put k x s.dev.signers } }

/-- RAISE_MINSVN (15 R372): never lowered. -/
def execRaiseMinsvn (fn : Nat) (s : State) : Host.Outcome State Fault Refusal :=
  match mailFor s fn 0x12 with
  | none => evNext s
  | some m =>
    match signedArgs s fn m 0 with
    | .error k => evNext (mailDone s fn k [])
    | .ok _ =>
      let slot := bitsOf 0 6 m.arg2
      let x := s.signer slot
      evNext (mailDone (acceptCounter (s.setSigner slot { x with minsvn := max x.minsvn (bitsOf 32 32 m.arg2) }) m) fn 0 [])

/-- A record joins a tile's margin table, which keeps the latest 4,096 (19 R458). -/
def Svc.addRec (v : Svc) (bin evt mv rcnt ht : Nat) : Svc :=
  let l := v.recs ++ [⟨bin, evt, mv, rcnt, ht, v.temp, v.age, v.seq⟩]
  { v with recs := l.drop (l.length - 4096), seq := v.seq + 1 }

/-- GUARD_BAND_HINT (19 R459): the set point waits for the next reset. -/
def execGuardBandHint (fn : Nat) (s : State) : Host.Outcome State Fault Refusal :=
  match mailFor s fn 0x13 with
  | none => evNext s
  | some m =>
    match signedArgs s fn m 0 with
    | .error k => evNext (mailDone s fn k [])
    | .ok _ =>
      let bin := bitsOf 8 3 m.arg2
      let mv := bitsOf 16 10 m.arg2
      let s1 := s.updSvc (bitsOf 0 7 m.arg2) fun v => ({ v with hints := put bin mv v.hints }).addRec bin 4 mv 0 s.htime
      evNext (mailDone (acceptCounter s1 m) fn 0 [])

/-- WRITE_SIGNER_DIGEST (R479, R517): the slot is enabled with the digest. -/
def execWriteSignerDigest (fn : Nat) (s : State) : Host.Outcome State Fault Refusal :=
  match mailFor s fn 0x14 with
  | none => evNext s
  | some m =>
    match signedArgs s fn m 64 with
    | .error k => evNext (mailDone s fn k [])
    | .ok a =>
      if !zeroAt a 32 32 then evNext (mailDone s fn 0x02 [])
      else
        let x := s.signer m.arg2
        evNext (mailDone (acceptCounter (s.setSigner m.arg2 { x with enabled := true, digest := numAt a 0 32 }) m) fn 0 [])

end Sys2Proof.Machine
end

