-- ==== Sys2Proof/Machine/Power.lean ====
section
/-!
DEFINITION. A tile's margin controller, its replays, its power states, boost, the rack budget, wear and heat (19 R448 to R466,
20 R473).
-/
namespace Sys2Proof.Machine

/-! ### When a blocked context may go on (13 R331) -/

/-- Whether a full group barrier lets a held GBAR issue (R307). -/
def gbarOpen (s : State) (c : Ctx) : Bool :=
  match s.group c.bind.group with
  | none => true
  | some g => g.pass.contains c.cid || barrierFull s g c.cid

/-- Whether the blocking condition of a context has ended (R331); waits for tokens, a deadline, an answer, a row and the
lease end by their events. -/
def waitOver (s : State) (c : Ctx) (w : WaitOn) : Bool :=
  match w with
  | .ldq => c.ldq.head?.any LdEntry.returned
  | .ldqRoom => c.ldq.length < 32
  | .window => !c.win.full
  | .gbar => gbarOpen s c
  | .pipeRoom p => (s.pipe p).all fun x => groupGone s x.popG || x.place c.cid < x.free
  | .pipeRow p => (s.pipe p).all fun x => (claimable x c.cid).isSome || pipeEmptyClosed { s with cur := c } x
  | .vis => (s.launch c.bind.launch).all Launch.visReady
  | .stream q => ((c.win.q.toList.getD q QBind.none).arr).getLsbD ((c.win.q.toList.getD q QBind.none).rd % 8)
  | .answer => c.wait.any fun p => p.answer.isSome
  | .tokens _ => false
  | .lease => (s.tile (tileOf c.cid)).lease.holder = some c.cid
  | .sleep => false
  | .atoms => false

/-- Whether the core may choose a context: it is ready, or its wait has ended, or a pending trap is due. -/
def choosable (s : State) (c : Ctx) : Bool :=
  match c.status with
  | .ready => true
  | .blocked w => waitOver s c w || trapDue s c
  | _ => false

/-! ### Bins (R448, R457, R466) -/

/-- The wear limit (R466). -/
def wearLimit (w : Nat) : Nat := if w < 100000 then 4 else if w < 120000 then 3 else if w < 140000 then 2 else 1
/-- WEAR in whole hours. -/
def Svc.hours (v : Svc) : Nat := min (2 ^ 32 - 1) (v.wear / 2 ^ 32)
/-- BCEIL: the lower of the learned limit and the wear limit. -/
def Svc.ceil (v : Svc) : Nat := min v.limit (wearLimit v.hours)
/-- The set point in force. -/
def Svc.mvNow (v : Svc) : Nat := v.mv.toList.getD v.bin 0
def Svc.setMv (v : Svc) (m : Nat) : Svc := { v with mv := v.mv.setIfInBounds v.bin m }
/-- A tile enters a bin: new windows begin; the cool-down after a raise goes on. -/
def Svc.toBin (v : Svc) (b : Nat) : Svc :=
  if v.bin = b then v else { v with bin := b, up := ⟨0, 0⟩, down := ⟨0, 0⟩, heat := false }
def Svc.freshWindows (v : Svc) : Svc := { v with up := ⟨0, 0⟩, down := ⟨0, 0⟩ }

/-! ### TIMING_REPLAY (R452, R453) -/

/-- Contexts of the groups that stand on a tile, saved ones included. -/
def groupsOn (s : State) (t : Nat) : List Group := s.groups.filter fun g => g.tile = t && !g.gone
/-- Tickets that have reserved room on a tile give it up: placement there has stopped (R449). -/
def dropTicketsOn (s : State) (t : Nat) : State :=
  let on (k : Ticket) : Bool := match k.dom with
    | some d => s.doms.any fun x => x.id = d && x.ctxs.any fun c => tileOf c = t
    | none => s.groups.any fun g => g.ticket = k.id && g.st = .reserving && g.tile = t
  (s.tickets.filter on).foldl dropReservation s
/-- A fence cause other than a hard failure (R449). -/
def fencePlace (s : State) (t : Nat) : State := if (s.tile t).svc.st = .enabled then dropTicketsOn (fenceTile s t) t else s
/-- The replays of audits that stand on a tile end, to be placed anew on another; the audits of groups that have not retired there
are abandoned (log 26). -/
def dropReplaysOn (s : State) (t : Nat) : State :=
  let on (a : Audit) : Bool := (a.replay.bind s.group).any fun g => g.tile = t
  let s1 := (s.audits.filter fun a => a.tile = t && !a.ready).foldl endAudit s
  (s1.audits.filter on).foldl (fun st a => (endReplay st a).updAudit a.id fun x => { x with replay := none, twins := [] }) s1
/-- A hard failure: the tile is fenced at once; what stands on it retires with class 0x28, and domains there stop (R449). -/
def hardFail (s : State) (t : Nat) : State :=
  let s1 := dropReplaysOn (dropTicketsOn (degrade (s.updSvc t fun v => { v with st := .fenced, boost := none }) t) t) t
  let s2 := ((groupsOn s1 t).flatMap Group.members).foldl (fun st m =>
    if (st.ctx m).status = .retired || (st.ctx m).status = .free then st else retireCtx st m (some { cls := 0x28 })) s1
  (s2.doms.filter fun d => d.resident && d.tiles.contains t).foldl (fun st d =>
    stopDomain st d.id (0x28, 0, ((d.ctxs.find? fun c => tileOf c = t).map fun c => (ctxId (st.ctx c)).toNat).getD 0)) s2

/-- TIMING_REPLAY: of the tile's next bundle to seal `fails` attempts in a row fail, the original first; where injection fails the
original (R455), it is one of them. Nothing architectural changes but the counts (R454); the fifth failure is hard. -/
def execTimingReplay (t fails : Nat) (s : State) : Host.Outcome State Fault Refusal :=
  let v := (s.tile t).svc
  if fails = 0 || !(v.st = .enabled || v.st = .draining) then evNext s
  else
    let n := min fails 4
    let count (w : Svc) : Svc := { w with
      caught := true
      trepl := (w.trepl + n) % 2 ^ 64
      harderr := (w.harderr + (n - 1)) % 2 ^ 32
      up := ⟨w.up.sealed, w.up.replays + n⟩
      down := ⟨w.down.sealed, w.down.replays + n⟩ }
    let s1 := s.updSvc t count
    evNext (if 5 ≤ fails then hardFail s1 t else s1)

/-! ### The margin controller (R456 to R458) -/

/-- A raise is due: it is made, or, past the ceiling, the tile is fenced in bin 1 and a boost bin is withdrawn; in bin 0 it is
not made, and that is all (log 86). -/
def raiseMargin (s : State) (t : Nat) : State :=
  let v := (s.tile t).svc
  let m := v.mvNow + 5
  if m ≤ binCeil.toList.getD v.bin 0 then
    s.updSvc t fun w => ({ (w.setMv m).freshWindows with cool := some 0 }).addRec w.bin 0 m w.up.replays s.htime
  else if v.bin = 0 then s.updSvc t Svc.freshWindows
  else if v.bin = 1 then
    fencePlace (s.updSvc t fun w => (w.freshWindows).addRec w.bin 2 w.mvNow w.up.replays s.htime) t
  else
    s.updSvc t fun w => ({ (w.addRec w.bin 3 w.mvNow w.up.replays s.htime) with limit := w.bin - 1, boost := none }).toBin 1

/-- MARGIN_UP_WINDOW: the replays of the window have reached 105. -/
def execMarginUpWindow (t : Nat) (s : State) : Host.Outcome State Fault Refusal :=
  if 105 ≤ (s.tile t).svc.up.replays then evNext (raiseMargin s t) else evNext s

/-- MARGIN_DOWN_WINDOW: at its end, with at most 67 replays, after the cool-down, and above the floor, one step down. -/
def execMarginDownWindow (t : Nat) (s : State) : Host.Outcome State Fault Refusal :=
  let v := (s.tile t).svc
  if v.down.sealed < 2 ^ 26 then evNext s
  else
    let cooled := match v.cool with
      | none => true
      | some n => decide (2 ^ 28 ≤ n)
    let m := v.mvNow - 5
    if v.down.replays ≤ 67 && cooled && binStart.toList.getD v.bin 0 - 40 ≤ m then
      evNext (s.updSvc t fun w => ({ (w.setMv m) with down := ⟨0, 0⟩ }).addRec w.bin 1 m w.down.replays s.htime)
    else evNext (s.updSvc t fun w => { w with down := ⟨0, 0⟩ })

/-! ### TILE_DRAINED (R449) -/

/-- Whether work stands on a tile: a group that has not retired, saved ones included, or a resident domain. -/
def workOn (s : State) (t : Nat) : Bool := !(groupsOn s t).isEmpty || s.doms.any fun d => d.resident && d.tiles.contains t

/-- TILE_DRAINED. -/
def execTileDrained (t : Nat) (s : State) : Host.Outcome State Fault Refusal :=
  if (s.tile t).svc.st = .draining && !workOn s t then evNext (s.updSvc t fun v => { v with st := .fenced, boost := none }) else evNext s

/-! ### Power states (R460, R461) -/

/-- Exit latency and break-even hold of a power state, in ns. -/
def exitNs (p : PowerSt) : Nat := match p with
  | .run => 0
  | .idle => 40
  | .docked => 15000
  | .drydock => 400000
def holdNs (p : PowerSt) : Nat := match p with
  | .run => 0
  | .idle => 0
  | .docked => 60000
  | .drydock => 3000000

/-- The latency tolerance that governs a tile: LTOL of the function that holds it. -/
def toleranceOf (s : State) (t : Nat) : Nat :=
  match (List.range 65).find? fun f => (s.fn f).part.getLsbD t with
  | some f => (s.fn f).ltol.toNat
  | none => 2 ^ 32 - 1

/-- Whether a tile has nothing to do: no context running or ready, or blocked with its wait over, and array, sequencer and copy engine
idle. -/
def tileIdle (s : State) (t : Nat) : Bool :=
  let x := s.tile t
  x.arr.isEmpty && x.chain.isNone
    && s.allCtx.all fun c => tileOf c.cid != t
      || (c.status != .running && !choosable s c && !(c.win.cmds.any fun y => y.2.state = 1 || y.2.state = 2))

/-- The contexts bound on a tile that are not saved. -/
def residentOn (s : State) (t : Nat) : List Ctx :=
  s.allCtx.filter fun c => tileOf c.cid = t && c.status != .free && c.status != .saved && c.status != .retired

/-- DRYDOCK needs every context saved: a pre-emption is asked of those that stand on the tile, none of a domain's (R460, 17 R405). -/
def askDry (s : State) (t : Nat) : State :=
  let l := ((residentOn s t).filter fun c => c.onCore && !c.preempt && !(s.doms.any fun d => d.ctxs.contains c.cid)).map Ctx.cid
  let up (c : Ctx) : Ctx := if l.contains c.cid then { c with preempt := true } else c
  { s.updSvc t fun v => { v with dry := v.dry ++ l } with cur := up s.cur, others := s.others.map up }

/-- Whether what a saved context was blocked for has come. -/
def savedReady (s : State) (c : Ctx) : Bool :=
  match c.held with
  | none => true
  | some .answer =>
    let t := (s.parked.filter fun o => o.cid = c.cid).foldl performSync s
    performed t (t.ctx c.cid)
  | some (.tokens m) => c.tok &&& m = 0
  | some .sleep => match c.sleepTill with
    | some d => d ≤ tileTime s (tileOf c.cid)
    | none => true
  | some .lease => (s.tile (tileOf c.cid)).lease.holder.isNone
  | some w => waitOver s c w || trapDue s c

/-- The contexts a tile had saved for DRYDOCK are restored, but for those of a group that has been pre-empted meanwhile; of the others
it had asked no pre-emption is wanted any more. -/
def undock (s : State) (t : Nat) : State :=
  let l := (s.tile t).svc.dry.filter fun m => (s.group (s.ctx m).bind.group).all fun g => g.st = .running && g.victim.isNone
  let s1 := (l.map fun m => hwOf m / 4).eraseDups.foldl flushCore s
  let up (c : Ctx) : Ctx :=
    if l.contains c.cid then (if c.status = .saved then { c with status := .restoring } else { c with preempt := false }) else c
  ({ s1 with cur := up s1.cur, others := s1.others.map up }).updSvc t fun v => { v with dry := [] }

/-- The scratchpad of a tile loses its contents: its listed bytes are free from now on. -/
def loseSpad (s : State) (t : Nat) : State :=
  { s with
    fresh := s.fresh + 1
    spad := s.spad.filterMap fun c =>
      if c.1 / 2 ^ 23 = t then (let b := Config.freeByte s.fresh c.1; if b = memDefault then none else some (c.1, b)) else some c }

/-- POWER_STATE_ENTER: the next lower state whose condition has held long enough and whose exit latency is tolerated. -/
def execPowerStateEnter (t : Nat) (s : State) : Host.Outcome State Fault Refusal :=
  let v := (s.tile t).svc
  let allowed (p : PowerSt) : Bool := tileIdle s t && exitNs p ≤ toleranceOf s t
  let ok (p : PowerSt) (wait : Nat) : Bool := allowed p && v.since + wait ≤ s.htime
  let enter (p : PowerSt) (st : State) : State := st.updSvc t fun w => { w with pst := p, since := s.htime, hold := s.htime + holdNs p }
  match v.pst with
  | .run => if allowed .idle && v.sinceCyc + 64 ≤ (s.tile t).cyc then evNext (enter .idle s) else evNext s
  | .idle => if ok .docked 10000 then evNext (enter .docked s) else evNext s
  | .docked =>
    if !ok .drydock 1000000 then evNext s
    else if (residentOn s t).isEmpty then evNext (enter .drydock (loseSpad s t))
    else evNext (askDry s t)
  | .drydock => evNext s

/-- Whether something wakes a tile (R461): a context ready or running, or saved for DRYDOCK with its wait over, or placement. A domain's
placement wakes it in `domResident`, a copy landing in `wakeLanded`, and a management access where its register is read or written. -/
def wakeDue (s : State) (t : Nat) : Bool :=
  !tileIdle s t || s.groups.any (fun g => g.tile = t && (g.st = .resident || g.st = .restoring))
    || (s.tile t).svc.dry.any fun m => (s.ctx m).status = .saved && savedReady s (s.ctx m)

/-- TILE_WAKE: the tile wakes where something wakes it; awake, it has the contexts restored that it had saved (R461). -/
def execTileWake (t : Nat) (s : State) : Host.Outcome State Fault Refusal :=
  let s1 := if wakeDue s t then wakeTile s t else s
  evNext (if (s1.tile t).svc.pst = .run && !(s1.tile t).svc.dry.isEmpty then undock s1 t else s1)

/-! ### The rack budget (R464, R465) -/

/-- Shares in force, in units of 0.25 W: a donation until EXP + 50, an addition until EXP − 50. -/
def Dev.given (d : Dev) (now : Nat) : Nat := ((d.shares.filter fun x => x.out && now < x.exp + 50).map Share.watts).sum
def Dev.received (d : Dev) (now : Nat) : Nat := ((d.shares.filter fun x => !x.out && now + 50 < x.exp).map Share.watts).sum
/-- RBCAP in W. -/
def State.rbcap (s : State) : Nat := min 1600 ((4 * s.dev.rbfloor + s.dev.received s.htime - s.dev.given s.htime) / 4)

/-- Whether a SEQ exceeds the last one kept for a peer. -/
def newSeq (peer seq : Nat) (l : List (Nat × Nat)) : Bool :=
  match look peer l with
  | some q => decide (q < seq)
  | none => true

/-- BUDGET_MESSAGE: a donation is deducted before it is sent, under a SEQ new to its receiver; a receipt counts when it names this
device, its SEQ is new to its sender and it has not expired. -/
def execBudgetMessage (m : BudgetMsg) (s : State) : Host.Outcome State Fault Refusal :=
  let d := s.dev
  if m.out then
    if m.src = d.devid && m.dst != d.devid && newSeq m.dst m.seq d.sentSeq && m.watts ≤ 4 * d.rbfloor + d.received s.htime - d.given s.htime then
      evNext { s with dev := { d with
        shares := d.shares ++ [⟨true, m.dst, m.watts, m.exp⟩], sentSeq := put m.dst m.seq d.sentSeq, sent := d.sent ++ [m] } }
    else evNext s
  else if m.dst = d.devid && m.src != d.devid && newSeq m.src m.seq d.lastSeq && s.htime + 50 < m.exp then
    evNext { s with dev := { d with shares := d.shares ++ [⟨false, m.src, m.watts, m.exp⟩], lastSeq := put m.src m.seq d.lastSeq } }
  else evNext s

/-- BUDGET_LEASE_EXPIRE: share `i` is over. -/
def execBudgetLeaseExpire (i : Nat) (s : State) : Host.Outcome State Fault Refusal :=
  match s.dev.shares[i]? with
  | none => evNext s
  | some x =>
    let ended := if x.out then x.exp + 50 ≤ s.htime else x.exp ≤ s.htime + 50
    if ended then evNext { s with dev := { s.dev with shares := s.dev.shares.eraseIdx i } } else evNext s

/-! ### Boost (R462, R463) and heat (R473) -/

/-- The tiles that are in service, in ascending order. -/
def State.live (s : State) : List Nat := (List.range 128).filter fun t => (s.tile t).svc.st = .enabled || (s.tile t).svc.st = .draining

/-- Watts of headroom that a boost takes (R20): 22, a boosted tile drawing about 2.8 times its 12 W (log 25). -/
def boostWatts : Nat := 22

/-- Grants to the busy tiles, each for its bin no higher than BCEIL, while headroom lasts. -/
def grantBoosts (s : State) (room : Nat) : List (Nat × Nat) → State
  | [] => s
  | (t, b) :: r =>
    let v := (s.tile t).svc
    let bin := min b v.ceil
    if v.st = .enabled && v.pst = .run && 2 ≤ bin && boostWatts ≤ room && !s.dev.thermal then
      grantBoosts (s.updSvc t fun w => { (w.toBin bin) with boost := some (s.htime + 1000000) }) (room - boostWatts) r
    else grantBoosts s room r

/-- One tile more goes to bin 0, in rotation (R463): for the cap, or for heat. -/
def lowerNext (s : State) (heat : Bool) : State :=
  let l := s.live.filter fun t => (s.tile t).svc.bin != 0
  match (l.find? fun t => s.dev.rot ≤ t).or l.head? with
  | none => s
  | some t => { (s.updSvc t fun v => { (v.toBin 0) with boost := none, heat := heat }) with dev := { s.dev with rot := t + 1 } }

/-- Tiles lowered for the cap return to bin 1 when the draw allows. -/
def liftNext (s : State) : State :=
  match s.live.find? fun t => (s.tile t).svc.bin = 0 && !(s.tile t).svc.heat with
  | none => s
  | some t => s.updSvc t fun v => v.toBin 1

/-- The boosts of every tile end. -/
def endBoosts (s : State) : State :=
  s.live.foldl (fun st t => st.updSvc t fun v => if v.boost.isSome then { (v.toBin 1) with boost := none } else v) s

/-- POWER_MEASURE: package power over 100 µs in W, and the tiles of high array use with the bin each asks for. While the average over
1 ms exceeds the cap no boost stands, and once none does tiles go to bin 0 one after the other; so they do for heat (R462, R463,
20 R473; log 25). -/
def execPowerMeasure (watts : Nat) (busy : List (Nat × Nat)) (s : State) : Host.Outcome State Fault Refusal :=
  let p := (watts :: s.dev.power).take 10
  let s1 := { s with dev := { s.dev with power := p } }
  if s.dev.thermal then evNext (lowerNext s1 true)
  else if s.rbcap * p.length < p.sum then
    (if s.live.any fun t => (s.tile t).svc.boost.isSome then evNext (endBoosts s1) else evNext (lowerNext s1 false))
  else evNext (grantBoosts (liftNext s1) (s.rbcap - watts) busy)

/-- BOOST_LEASE_EXPIRE: a tile whose lease has ended returns to bin 1. -/
def execBoostLeaseExpire (t : Nat) (s : State) : Host.Outcome State Fault Refusal :=
  match (s.tile t).svc.boost with
  | none => evNext s
  | some e => if e ≤ s.htime then evNext (s.updSvc t fun v => { (v.toBin 1) with boost := none }) else evNext s

/-- THERMAL_LIMIT: the junction has reached 105 °C: tiles go to bin 0 in rotation, one now and one at every measurement until it has
cooled (R463, 20 R473). -/
def execThermalLimit (s : State) : Host.Outcome State Fault Refusal :=
  evNext (lowerNext { s with dev := { s.dev with thermal := true } } true)

/-- THERMAL_RECOVERY: the temperature has fallen below 100 °C: the tiles lowered for heat return to bin 1. -/
def execThermalRecovery (s : State) : Host.Outcome State Fault Refusal :=
  if s.dev.thermal then
    let s1 := s.live.foldl (fun st t => st.updSvc t fun v => if v.heat then v.toBin 1 else v) s
    evNext { s1 with dev := { s1.dev with thermal := false } }
  else evNext s

/-! ### WEAR_INTEGRATION (R466) -/

/-- The weight of an hour as an exponent of 2, in units of 1/800: a doubling for each 50 mV above 550 mV and for each 10 °C
above 85 °C; `temp` in 1/16 °C. -/
def wearExp (mv : Nat) (temp : Int) : Nat := (mv - 550) * 16 + (temp - 85 * 16).toNat * 5

/-- The greatest `x` below `x0 + 2^n` whose 800th power is at most `t`. -/
def root800 (t : Nat) : Nat → Nat → Nat
  | 0, x => x
  | n + 1, x => root800 t n (if (x + 2 ^ n) ^ 800 ≤ t then x + 2 ^ n else x)
/-- 2^(e/800) in units of 2^-64, rounded down. -/
def weight800 (e : Nat) : Nat := 2 ^ (e / 800) * root800 (2 ^ (e % 800 + 64 * 800)) 65 0
/-- Weighted hours of a stretch of seconds, in units of 2^-32, rounded down (log 38). -/
def wornHours (secs e : Nat) : Nat := secs * weight800 e / (3600 * 2 ^ 32)

/-- WEAR_INTEGRATION: a stretch of `secs` at `mv` and the temperature sensed; a crossing of the wear table lowers BCEIL, and a bin above it is left.
The tile's temperature and its ageing estimate are those the sensors and the controller have found by then (R458; log 38). -/
def execWearIntegration (t secs mv : Nat) (sense : WearSense) (s : State) : Host.Outcome State Fault Refusal :=
  let up (v : Svc) : Svc :=
    let u := { v with wear := v.wear + wornHours secs (wearExp mv sense.temp), temp := sense.temp, age := sense.age }
    if u.ceil < u.bin then { (u.toBin 1) with boost := none } else u
  evNext (s.updSvc t up)

/-! ### CLOCK_STRETCH (R22) -/

/-- CLOCK_STRETCH: periods of a tile lengthen; no cycle passes, harbour time does. -/
def execClockStretch (_t periods : Nat) (s : State) : Host.Outcome State Fault Refusal := .next { s with htime := s.htime + periods }

end Sys2Proof.Machine
end

