-- ==== Sys2Proof/Machine/AuditEvents.lean ====
section
/-!
DEFINITION. The mirror audit after its group has retired (19 R468 to R471).
-/
namespace Sys2Proof.Machine

/-- AUDIT_REPLAY: the replay of a retired group is placed on another tile; its contexts run there as the group's did. -/
def execAuditReplay (a : Nat) (s : State) : Host.Outcome State Fault Refusal :=
  match s.audits.find? fun x => x.id = a with
  | none => evNext s
  | some x => if !settledAudit s x || x.replay.isSome then evNext s else evNext ((placeReplay s x).getD s)

/-- SUSP of a tile rises by one; at SUSPTH the tile is fenced (R450, R471). -/
def suspect (s : State) (t : Nat) : State :=
  let s1 := s.updSvc t fun v => { v with susp := min (2 ^ 32 - 1) (v.susp + 1) }
  if bitsOf 16 8 s.dev.auditcfg.toNat ≤ (s1.tile t).svc.susp then fencePlace s1 t else s1

/-- Whether a replay has run: its contexts have retired with nothing on its way, or one has asked for a datum that the log does not
hold, so that the two runs differ (log 26). -/
def replayDone (s : State) (a : Audit) (g : Group) : Bool :=
  a.lack || (g.st = .running && g.over s && !(s.gops.any fun o => a.twins.contains o.agent))

/-- AUDIT_COMPARE: the signatures of the two runs are compared (R471). -/
def execAuditCompare (a : Nat) (s : State) : Host.Outcome State Fault Refusal :=
  match s.audits.find? fun x => x.id = a with
  | none => evNext s
  | some x =>
    match x.replay.bind s.group with
    | none => evNext s
    | some g =>
      if !replayDone s x g then evNext s
      else
        let s1 := endAudit s x
        if !x.lack && x.sig = x.sig2 then evNext (s1.updSvc x.tile fun v => { v with susp := v.susp - 1 })
        else evNext (suspect (suspect (s1.updLaunch x.launch fun l => { l with taint := true }) x.tile) g.tile)

end Sys2Proof.Machine
end

