-- ==== Sys2Proof/Machine/DomainOpen.lean ====
section
/-!
DEFINITION. DOMAIN.OPEN (17 R402 to R406): the checks of a domain descriptor in their order, and the ticket.
-/
namespace Sys2Proof.Machine

/-- The tiles of a mask. -/
def maskTiles (m : BitVec 128) : List Nat := (List.range 128).filter fun i => m.getLsbD i

/-- Check 2 of R404. -/
def domainFormed (s : State) (fn : Nat) (d : List Byte) : Bool :=
  let ts := maskTiles (BitVec.ofNat 128 (numAt d 0 16))
  let nseed := numAt d 28 4
  let maxT := numAt d 56 4
  zeroAt d 26 2 && !ts.isEmpty && ts.length ≤ 96
    && ts.all (fun t => siteEnabled s t && (s.fn fn).part.getLsbD t)
    && 1 ≤ numAt d 25 1 && numAt d 25 1 ≤ 16 && 1 ≤ nseed && nseed ≤ 65536 && numAt d 40 8 % 64 = 0 && numAt d 48 8 % 64 = 0
    && 1 ≤ maxT && maxT ≤ 2 ^ 20 && nseed ≤ maxT

/-- Check 3: the object and the task kernel. -/
def domainKernel (s : State) (fn : Nat) (d : List Byte) : Option (CodeObj × Kernel) :=
  match s.objs.find? fun o => o.handle = numAt d 16 8 && o.fn = fn && !o.unloading with
  | none => none
  | some o => match o.kernels[numAt d 24 1]? with
    | none => none
    | some k => if k.ntask != 0 && k.spad = 0 && k.acc = 0 && numAt d 60 4 = k.ttab then some (o, k) else none

/-- Seed `i` of the seed entries. -/
def seedAt (b : List Byte) (i : Nat) : List Byte := (b.drop (32 * i)).take 32
/-- Check 5. -/
def seedsFormed (b : List Byte) (n ntask : Nat) : Bool :=
  (List.range n).all fun i => zeroAt (seedAt b i) 9 7 && decide (numAt (seedAt b i) 8 1 < ntask)

/-- A seed becomes a queued task (R406, R409). -/
def seedTask (d : Dom) (e : List Byte) : Dom :=
  let ts := wordAt e 0
  d.addTask (newTask d none ts (d.tiles.getD (ts.toNat % d.tiles.length) 0) (numAt e 8 1) (wordAt e 16) (wordAt e 24))

/-- The domain a descriptor opens. -/
def openedDomain (s : State) (fn did : Nat) (d table seeds : List Byte) (o : CodeObj) (k : Kernel) : Dom :=
  let x : Dom := {
    id := did, vf := fn, tiles := maskTiles (BitVec.ofNat 128 (numAt d 0 16)), handle := o.handle, kidx := numAt d 24 1,
    tctx := numAt d 25 1, record := numAt d 40 8, spill := numAt d 48 8, maxTask := numAt d 56 4,
    table := (List.range k.ntask).map fun j => numAt table (4 * j) 4, dataBase := o.dataBase, ctxs := [], tasks := [], nextSeq := 0,
    committed := 0, stopped := none, taint := false, corrected := false, ws := [], tstart := none, tend := 0, ticket := s.uid, resident := false,
    past := [], told := [] }
  (((List.range (numAt d 28 4)).map (seedAt seeds)).foldl seedTask x).note

/-- What the device keeps in the task store is its own: its bytes are free from now on (R402). -/
def claimStore (s : State) (x : Dom) : State :=
  match devWrite { s with fresh := s.fresh + 1 } (devAgent x.vf) x.vf x.spill ((List.range (64 * x.maxTask)).map (Config.freeByte s.fresh)) with
  | .ok (t, _) => t
  | .error _ => s

/-- Every check of R404 in its order: the domain, or the cause. -/
def domainChecks (s : State) (fn at_ : Nat) : Except Nat Dom :=
  if at_ % 64 != 0 then .error 0x02
  else match mailRead s fn at_ 64 with
    | none => .error 0x01
    | some d =>
      if !domainFormed s fn d then .error 0x02
      else match domainKernel s fn d with
        | none => .error 0x0A
        | some (o, k) =>
          match mailRead s fn (numAt d 32 8) (32 * numAt d 28 4), mailRead s fn (o.dataBase.toNat + k.ttab) (4 * k.ntask) with
          | some seeds, some table =>
            if !seedsFormed seeds (numAt d 28 4) k.ntask then .error 0x02
            else match (List.range 256).find? fun i => !(s.doms.any fun x => x.id = i) with
              | none => .error 0x0B
              | some did =>
                let x := openedDomain s fn did d table seeds o k
                if domFits s.empty x then .ok x else .error 0x0C
          | _, _ => .error 0x01

/-- DOMAIN_OPEN: a failed check ends the command; else the domain's ticket waits, and the command with it. -/
def execDomainOpen (fn : Nat) (s : State) : Host.Outcome State Fault Refusal :=
  match mailFor s fn 3 with
  | none => evNext s
  | some m =>
    if s.doms.any fun x => x.vf = fn && !x.resident then evNext s
    else match domainChecks s fn m.arg with
      | .error k => evNext (mailDone s fn k [])
      | .ok x =>
        let t : Ticket := {
          id := s.uid, launch := 0, num := 0, dom := some x.id, level := 15, since := s.htime, die := none, groups := [], rows := 0
          spared := [], after := none }
        evNext (claimStore { s with uid := s.uid + 1, doms := s.doms ++ [x], tickets := s.tickets ++ [t] } x)

end Sys2Proof.Machine
end

