-- ==== Sys2Proof/Machine/Dram.lean ====
section
/-!
DEFINITION. DRAM errors and the retirement log (18 R444 to R446, 20 R480).
-/
namespace Sys2Proof.Machine

/-! ### The retirement log (R445) -/

/-- A record of the log in its 32 bytes. -/
def rlogBytes (r : RlogRec) : List Byte :=
  leBytes 8 r.pa ++ leBytes 8 r.len ++ leBytes 1 r.kind ++ leBytes 1 r.flags ++ zeros 6 ++ leBytes 8 r.ht

/-- Whether a record may be posted: EN, and space left. -/
def rlogOpen (d : Dev) : Bool :=
  d.rlogCfg.getLsbD 31 && (d.rlogTail - d.rlogHead).toNat < 2 ^ bitsOf 8 5 d.rlogCfg.toNat

/-- Waiting records are posted in order while space lasts: the record, then the tail, then MSI-X vector 3. -/
def postRlog : Nat → State → State
  | 0, s => s
  | f + 1, s =>
    match s.dev.rlogWait with
    | [] => s
    | r :: rest =>
      if !rlogOpen s.dev then s
      else
        let at_ := s.dev.rlogBase.toNat + 32 * (s.dev.rlogTail.toNat % 2 ^ bitsOf 8 5 s.dev.rlogCfg.toNat)
        match devWrite s (devAgent 0) 0 at_ (rlogBytes r) with
        | .error _ => s
        | .ok (t, _) =>
          postRlog f (raiseMsi { t with dev := { t.dev with rlogWait := rest, rlogTail := t.dev.rlogTail + 1 } } 0 3)

/-- A record joins the log: it waits behind the others, or is dropped, with ERR, behind 4,096. -/
def addRlog (s : State) (r : RlogRec) : State :=
  if s.dev.rlogWait.length < 4096 then
    postRlog 4097 { s with dev := { s.dev with rlogWait := s.dev.rlogWait ++ [r] } }
  else { s with dev := { s.dev with rlogCfg := s.dev.rlogCfg ||| 0x40000000 } }

/-! ### Quarantine and scrub (R444) -/

/-- A failure is quarantined: sectors beyond correction are poisoned, the repair list and the log take it. -/
def quarantine (s : State) (q : Quarantine) : State :=
  let full := 4096 ≤ s.dev.repairs.length
  let flags := (if full then 1 else 0) + (if q.unrep then 2 else 0) + (if q.unc then 4 else 0)
  let r : RlogRec := ⟨q.pa, q.len, q.kind, flags, s.htime⟩
  let bad := q.lost.filter fun x => q.pa / 32 ≤ x && x ≤ (q.pa + q.len - 1) / 32 && !s.poison.contains x
  addRlog { s with
    poison := bad ++ s.poison
    pcover := s.pcover.filter fun x => !q.lost.contains x.1
    dev := { s.dev with quar := s.dev.quar ++ [r], repairs := if full then s.dev.repairs else s.dev.repairs ++ [r] } } r

/-- DRAM_QUARANTINE: a failure in HBM that meets the threshold, or that the code cannot correct. -/
def execDramQuarantine (q : Quarantine) (s : State) : Host.Outcome State Fault Refusal :=
  if q.pa % 32 = 0 && q.pa + q.len ≤ 2 ^ 30 * 384 && q.len != 0 then evNext (quarantine s q) else evNext s

/-- HBM_SCRUB: a controller counts errors it corrected at a location, a cell, row, pin or bank (KIND of R445); one that meets
QTHRESH is quarantined. -/
def execHbmScrub (pa : Nat) (e : ScrubError) (s : State) : Host.Outcome State Fault Refusal :=
  if pa % 32 != 0 || e.len = 0 || 2 ^ 30 * 384 < pa + e.len || 4 ≤ e.kind then evNext s
  else
    let n := (look (4 * pa + e.kind) s.dev.errs).getD 0 + e.corrected
    let s1 := { s with dev := { s.dev with errs := put (4 * pa + e.kind) n s.dev.errs } }
    if s.dev.qthresh ≤ n && e.corrected != 0 && !(s.dev.quar.any fun r => r.pa = pa && r.kind = e.kind) then
      evNext (quarantine s1 ⟨pa, e.len, e.kind, false, false, []⟩)
    else evNext s1

end Sys2Proof.Machine
end

