-- ==== Sys2Proof/Machine/ExecLW.lean ====
section
/-!
DEFINITION. The meanings of the operations of slots L and W: each is its operation issued alone in its bundle, under the
control word of the context in focus (02 R39 to R55).
-/
namespace Sys2Proof.Machine

/-- LDS_ROW (R210). -/
def execLdsRow (g : Guard) (f : MXF) (s : State) : Host.Outcome State Fault Refusal :=
  issueOne (.ldsRow g f) (opLdsRow f) s
/-- LDS_W32 (R210). -/
def execLdsW32 (g : Guard) (f : MXF) (s : State) : Host.Outcome State Fault Refusal :=
  issueOne (.ldsW32 g f) (opLdsW32 f) s
/-- LDS_W64 (R210). -/
def execLdsW64 (g : Guard) (f : MXF) (s : State) : Host.Outcome State Fault Refusal :=
  issueOne (.ldsW64 g f) (opLdsW64 f) s
/-- LDG_ROW (R210). -/
def execLdgRow (g : Guard) (f : MXF) (s : State) : Host.Outcome State Fault Refusal :=
  issueOne (.ldgRow g f) (opLdgRow f) s
/-- LDG_W32 (R210). -/
def execLdgW32 (g : Guard) (f : MXF) (s : State) : Host.Outcome State Fault Refusal :=
  issueOne (.ldgW32 g f) (opLdgW32 f) s
/-- LDG_W64 (R210). -/
def execLdgW64 (g : Guard) (f : MXF) (s : State) : Host.Outcome State Fault Refusal :=
  issueOne (.ldgW64 g f) (opLdgW64 f) s
/-- LDG_TAG (R126). -/
def execLdgTag (g : Guard) (f : MXF) (s : State) : Host.Outcome State Fault Refusal :=
  issueOne (.ldgTag g f) (opLdgTag f) s
/-- PFG (R215). -/
def execPfg (g : Guard) (f : MXF) (s : State) : Host.Outcome State Fault Refusal :=
  issueOne (.pfg g f) (opPfg f) s
/-- LDQ_DROP (R216). -/
def execLdqDrop (g : Guard) (f : MXF) (s : State) : Host.Outcome State Fault Refusal :=
  issueOne (.ldqDrop g f) (opLdqDrop f) s
/-- STS_ROW (R212). -/
def execStsRow (g : Guard) (f : MXF) (s : State) : Host.Outcome State Fault Refusal :=
  issueOne (.stsRow g f) (opStsRow f) s
/-- STS_W32 (R212). -/
def execStsW32 (g : Guard) (f : MXF) (s : State) : Host.Outcome State Fault Refusal :=
  issueOne (.stsW32 g f) (opStsW32 f) s
/-- STS_W64 (R212). -/
def execStsW64 (g : Guard) (f : MXF) (s : State) : Host.Outcome State Fault Refusal :=
  issueOne (.stsW64 g f) (opStsW64 f) s
/-- STG_ROW (R212). -/
def execStgRow (g : Guard) (f : MXF) (s : State) : Host.Outcome State Fault Refusal :=
  issueOne (.stgRow g f) (opStgRow f) s
/-- STG_W32 (R212). -/
def execStgW32 (g : Guard) (f : MXF) (s : State) : Host.Outcome State Fault Refusal :=
  issueOne (.stgW32 g f) (opStgW32 f) s
/-- STG_W64 (R212). -/
def execStgW64 (g : Guard) (f : MXF) (s : State) : Host.Outcome State Fault Refusal :=
  issueOne (.stgW64 g f) (opStgW64 f) s
/-- STG_TAG (R124). -/
def execStgTag (g : Guard) (f : MXF) (s : State) : Host.Outcome State Fault Refusal :=
  issueOne (.stgTag g f) (opStgTag f) s
/-- ATOM_ADD (R217). -/
def execAtomAdd (g : Guard) (f : MXF) (s : State) : Host.Outcome State Fault Refusal :=
  issueOne (.atomAdd g f) (opAtomAdd f) s
/-- ATOM_MIN (R217). -/
def execAtomMin (g : Guard) (f : MXF) (s : State) : Host.Outcome State Fault Refusal :=
  issueOne (.atomMin g f) (opAtomMin f) s
/-- ATOM_MAX (R217). -/
def execAtomMax (g : Guard) (f : MXF) (s : State) : Host.Outcome State Fault Refusal :=
  issueOne (.atomMax g f) (opAtomMax f) s
/-- ATOM_AND (R217). -/
def execAtomAnd (g : Guard) (f : MXF) (s : State) : Host.Outcome State Fault Refusal :=
  issueOne (.atomAnd g f) (opAtomAnd f) s
/-- ATOM_OR (R217). -/
def execAtomOr (g : Guard) (f : MXF) (s : State) : Host.Outcome State Fault Refusal :=
  issueOne (.atomOr g f) (opAtomOr f) s
/-- ATOM_XOR (R217). -/
def execAtomXor (g : Guard) (f : MXF) (s : State) : Host.Outcome State Fault Refusal :=
  issueOne (.atomXor g f) (opAtomXor f) s
/-- ATOM_XCHG (R217). -/
def execAtomXchg (g : Guard) (f : MXF) (s : State) : Host.Outcome State Fault Refusal :=
  issueOne (.atomXchg g f) (opAtomXchg f) s
/-- ATOM_CAS (R217). -/
def execAtomCas (g : Guard) (f : MXF) (s : State) : Host.Outcome State Fault Refusal :=
  issueOne (.atomCas g f) (opAtomCas f) s
/-- ATOM_FADD (R217). -/
def execAtomFadd (g : Guard) (f : MXF) (s : State) : Host.Outcome State Fault Refusal :=
  issueOne (.atomFadd g f) (opAtomFadd f) s
/-- SATOM (R220). -/
def execSatom (g : Guard) (f : MXF) (s : State) : Host.Outcome State Fault Refusal :=
  issueOne (.satom g f) (opSatom f) s

end Sys2Proof.Machine
end

