-- ==== Sys2Proof/Machine/ExecMC.lean ====
section
/-!
DEFINITION. The meanings of the operations of slots M and C: each is its operation issued alone in its bundle, under the
control word of the context in focus (02 R39 to R55).
-/
namespace Sys2Proof.Machine

/-- LEASE (R262). -/
def execLease (g : Guard) (f : XCF) (s : State) : Host.Outcome State Fault Refusal :=
  issueOne (.lease g f) (opLease f) s
/-- LEASE_TRY (R262). -/
def execLeaseTry (g : Guard) (f : XCF) (s : State) : Host.Outcome State Fault Refusal :=
  issueOne (.leaseTry g f) (opLeaseTry f) s
/-- UNLEASE (R262). -/
def execUnlease (g : Guard) (f : XCF) (s : State) : Host.Outcome State Fault Refusal :=
  issueOne (.unlease g f) (opUnlease f) s
/-- CHAIN_BEGIN (R267). -/
def execChainBegin (g : Guard) (f : XCF) (s : State) : Host.Outcome State Fault Refusal :=
  issueOne (.chainBegin g f) (opChainBegin f) s
/-- CHAIN_END (R267). -/
def execChainEnd (g : Guard) (f : XCF) (s : State) : Host.Outcome State Fault Refusal :=
  issueOne (.chainEnd g f) (opChainEnd f) s
/-- MMA_BF16 (R274). -/
def execMmaBf16 (g : Guard) (f : ENF) (s : State) : Host.Outcome State Fault Refusal :=
  issueOne (.mmaBf16 g f) (opMmaBf16 f) s
/-- MMA_CB4 (R274). -/
def execMmaCb4 (g : Guard) (f : ENF) (s : State) : Host.Outcome State Fault Refusal :=
  issueOne (.mmaCb4 g f) (opMmaCb4 f) s
/-- MMA_PLANE (R275). -/
def execMmaPlane (g : Guard) (f : ENF) (s : State) : Host.Outcome State Fault Refusal :=
  issueOne (.mmaPlane g f) (opMmaPlane f) s
/-- MGATH (R277). -/
def execMgath (g : Guard) (f : ENF) (s : State) : Host.Outcome State Fault Refusal :=
  issueOne (.mgath g f) (opMgath f) s
/-- MLDB (R278). -/
def execMldb (g : Guard) (f : ENF) (s : State) : Host.Outcome State Fault Refusal :=
  issueOne (.mldb g f) (opMldb f) s
/-- CBLOAD (R279). -/
def execCbload (g : Guard) (f : ENF) (s : State) : Host.Outcome State Fault Refusal :=
  issueOne (.cbload g f) (opCbload f) s
/-- ACC_ZERO (R281). -/
def execAccZero (g : Guard) (f : ENF) (s : State) : Host.Outcome State Fault Refusal :=
  issueOne (.accZero g f) (opAccZero f) s
/-- ACC_RD (R283). -/
def execAccRd (g : Guard) (f : ENF) (s : State) : Host.Outcome State Fault Refusal :=
  issueOne (.accRd g f) (opAccRd f) s
/-- ACC_WR (R283). -/
def execAccWr (g : Guard) (f : ENF) (s : State) : Host.Outcome State Fault Refusal :=
  issueOne (.accWr g f) (opAccWr f) s
/-- CPY_TEN (R244). -/
def execCpyTen (g : Guard) (f : ENF) (s : State) : Host.Outcome State Fault Refusal :=
  issueOne (.cpyTen g f) (opCpyTen f) s
/-- CPY_ROW (R248). -/
def execCpyRow (g : Guard) (f : ENF) (s : State) : Host.Outcome State Fault Refusal :=
  issueOne (.cpyRow g f) (opCpyRow f) s
/-- CPY_GATH (R246). -/
def execCpyGath (g : Guard) (f : ENF) (s : State) : Host.Outcome State Fault Refusal :=
  issueOne (.cpyGath g f) (opCpyGath f) s
/-- CPY_SCAT (R247). -/
def execCpyScat (g : Guard) (f : ENF) (s : State) : Host.Outcome State Fault Refusal :=
  issueOne (.cpyScat g f) (opCpyScat f) s
/-- CPY_SPAD (R248). -/
def execCpySpad (g : Guard) (f : ENF) (s : State) : Host.Outcome State Fault Refusal :=
  issueOne (.cpySpad g f) (opCpySpad f) s
/-- CPY_BIND (R250). -/
def execCpyBind (g : Guard) (f : ENF) (s : State) : Host.Outcome State Fault Refusal :=
  issueOne (.cpyBind g f) (opCpyBind f) s
/-- CPY_BIND_OFF (R250). -/
def execCpyBindOff (g : Guard) (f : ENF) (s : State) : Host.Outcome State Fault Refusal :=
  issueOne (.cpyBindOff g f) (opCpyBindOff f) s
/-- CPY_RED (R249). -/
def execCpyRed (g : Guard) (f : ENF) (s : State) : Host.Outcome State Fault Refusal :=
  issueOne (.cpyRed g f) (opCpyRed f) s
/-- CPY_FILL (R248). -/
def execCpyFill (g : Guard) (f : ENF) (s : State) : Host.Outcome State Fault Refusal :=
  issueOne (.cpyFill g f) (opCpyFill f) s
/-- CPY_POLL (R255). -/
def execCpyPoll (g : Guard) (f : XCF) (s : State) : Host.Outcome State Fault Refusal :=
  issueOne (.cpyPoll g f) (opCpyPoll f) s
/-- CPY_POLL_WIN (R255). -/
def execCpyPollWin (g : Guard) (f : XCF) (s : State) : Host.Outcome State Fault Refusal :=
  issueOne (.cpyPollWin g f) (opCpyPollWin f) s
/-- CPY_CANCEL (R256). -/
def execCpyCancel (g : Guard) (f : XCF) (s : State) : Host.Outcome State Fault Refusal :=
  issueOne (.cpyCancel g f) (opCpyCancel f) s
/-- CPY_CANCEL_ALL (R256). -/
def execCpyCancelAll (g : Guard) (f : XCF) (s : State) : Host.Outcome State Fault Refusal :=
  issueOne (.cpyCancelAll g f) (opCpyCancelAll f) s
/-- TMAP (R242). -/
def execTmap (g : Guard) (f : XCF) (s : State) : Host.Outcome State Fault Refusal :=
  issueOne (.tmap g f) (opTmap f) s
/-- BERTH_SET (R254). -/
def execBerthSet (g : Guard) (f : XCF) (s : State) : Host.Outcome State Fault Refusal :=
  issueOne (.berthSet g f) (opBerthSet f) s

end Sys2Proof.Machine
end

