-- ==== Sys2Proof/Machine/Control.lean ====
section
/-!
DEFINITION. Transfers of control in slot S (06 R156 to R160). A transfer takes effect when its bundle retires; a
re-injected one makes only its register write (13 R340).
-/
namespace Sys2Proof.Machine

/-- Target of an SB-format transfer (R156). -/
def sbTarget (s : State) (f : SBF) : Word := s.cur.pc + (f.off.signExtend 64 <<< 6)

/-- Note the transfer for the bundle's retirement; a re-injected transfer notes none (R340). -/
def transfer (s : State) (t : Word) (indirect : Bool) : State :=
  if s.cur.iss.cap.isSome then s
  else s.updCur fun c => { c with iss := { c.iss with target := some t, indirect := indirect } }
/-- The transfer when its condition holds. -/
def transferIf (b : Bool) (s : State) (t : Word) : State := if b then transfer s t false else s

def opBr (f : SBF) (s : State) : Op State := .ok (transfer s (sbTarget s f) false)
def opBrp (f : SBF) (s : State) : Op State := do
  let p ← rdP s 0 f.pa
  .ok (transferIf (p != f.ext.getLsbD 0) s (sbTarget s f))
def opBrsig (f : SBF) (s : State) : Op State := do
  let a ← rdS s 0 f.sa
  .ok (transferIf (decide (a.cnt.toNat < f.sb.toNat)) s (sbTarget s f))
/-- LOOP (R160). -/
def opLoop (f : SBF) (s : State) : Op State := do
  let a ← rdS s 0 f.sa
  let n := if a.val = 0 then 0 else a.val - 1
  .ok (transferIf (n != 0) (emitS s 0 f.sa n 0) (sbTarget s f))
/-- CALL (R159); its return address is a captured operand of a re-injected entry (log 8). -/
def opCall (f : SBF) (s : State) : Op State :=
  let ra := match s.cur.iss.cap with
    | some e => (scalarOfBlock e.b0).val
    | none => s.cur.pc + 64
  .ok (transfer (emitS s 0 f.sa ra 0) (sbTarget s f) false)

/-- An indirect transfer: a target that is not 64-byte aligned is an alignment fault (R28, R158). -/
def transferTo (s : State) (t : Word) : Op State :=
  if bitsOf 0 6 t.toNat != 0 then trapAt 0x04 0 t.toNat else .ok (transfer s t true)
def opBri (f : SRF) (s : State) : Op State := do
  let a ← srcS s f 1
  let b ← srcS s f 2
  transferTo s (a.val + (b.val <<< 6))
def opRet (f : SRF) (s : State) : Op State := do
  let a ← srcS s f 1
  transferTo s a.val

end Sys2Proof.Machine
end

