-- ==== Sys2Proof/Machine/ExecS.lean ====
section
/-!
DEFINITION. The meanings of the operations of slot S: each is its operation issued alone in its bundle, under the
control word of the context in focus (02 R39 to R55).
-/
namespace Sys2Proof.Machine

/-- ADD (R142). -/
def execAdd (g : Guard) (f : SRF) (s : State) : Host.Outcome State Fault Refusal :=
  issueOne (.add g f) (opAdd f) s
/-- SUB (R142). -/
def execSub (g : Guard) (f : SRF) (s : State) : Host.Outcome State Fault Refusal :=
  issueOne (.sub g f) (opSub f) s
/-- MUL (R142). -/
def execMul (g : Guard) (f : SRF) (s : State) : Host.Outcome State Fault Refusal :=
  issueOne (.mul g f) (opMul f) s
/-- MULH (R143). -/
def execMulh (g : Guard) (f : SRF) (s : State) : Host.Outcome State Fault Refusal :=
  issueOne (.mulh g f) (opMulh f) s
/-- MULHN (R143). -/
def execMulhn (g : Guard) (f : SRF) (s : State) : Host.Outcome State Fault Refusal :=
  issueOne (.mulhn g f) (opMulhn f) s
/-- DIV (R144). -/
def execDiv (g : Guard) (f : SRF) (s : State) : Host.Outcome State Fault Refusal :=
  issueOne (.div g f) (opDiv f) s
/-- DIVN (R144). -/
def execDivn (g : Guard) (f : SRF) (s : State) : Host.Outcome State Fault Refusal :=
  issueOne (.divn g f) (opDivn f) s
/-- REM (R144). -/
def execRem (g : Guard) (f : SRF) (s : State) : Host.Outcome State Fault Refusal :=
  issueOne (.rem g f) (opRem f) s
/-- REMN (R144). -/
def execRemn (g : Guard) (f : SRF) (s : State) : Host.Outcome State Fault Refusal :=
  issueOne (.remn g f) (opRemn f) s
/-- AND (R143). -/
def execAnd (g : Guard) (f : SRF) (s : State) : Host.Outcome State Fault Refusal :=
  issueOne (.and g f) (opAnd f) s
/-- OR (R143). -/
def execOr (g : Guard) (f : SRF) (s : State) : Host.Outcome State Fault Refusal :=
  issueOne (.or g f) (opOr f) s
/-- XOR (R143). -/
def execXor (g : Guard) (f : SRF) (s : State) : Host.Outcome State Fault Refusal :=
  issueOne (.xor g f) (opXor f) s
/-- ANDN (R143). -/
def execAndn (g : Guard) (f : SRF) (s : State) : Host.Outcome State Fault Refusal :=
  issueOne (.andn g f) (opAndn f) s
/-- SHL (R145). -/
def execShl (g : Guard) (f : SRF) (s : State) : Host.Outcome State Fault Refusal :=
  issueOne (.shl g f) (opShl f) s
/-- SHR (R145). -/
def execShr (g : Guard) (f : SRF) (s : State) : Host.Outcome State Fault Refusal :=
  issueOne (.shr g f) (opShr f) s
/-- SAR (R145). -/
def execSar (g : Guard) (f : SRF) (s : State) : Host.Outcome State Fault Refusal :=
  issueOne (.sar g f) (opSar f) s
/-- ROT (R145). -/
def execRot (g : Guard) (f : SRF) (s : State) : Host.Outcome State Fault Refusal :=
  issueOne (.rot g f) (opRot f) s
/-- CLZ (R143). -/
def execClz (g : Guard) (f : SRF) (s : State) : Host.Outcome State Fault Refusal :=
  issueOne (.clz g f) (opClz f) s
/-- CTZ (R143). -/
def execCtz (g : Guard) (f : SRF) (s : State) : Host.Outcome State Fault Refusal :=
  issueOne (.ctz g f) (opCtz f) s
/-- POPC (R143). -/
def execPopc (g : Guard) (f : SRF) (s : State) : Host.Outcome State Fault Refusal :=
  issueOne (.popc g f) (opPopc f) s
/-- MIN (R143). -/
def execMin (g : Guard) (f : SRF) (s : State) : Host.Outcome State Fault Refusal :=
  issueOne (.min g f) (opMin f) s
/-- MAX (R143). -/
def execMax (g : Guard) (f : SRF) (s : State) : Host.Outcome State Fault Refusal :=
  issueOne (.max g f) (opMax f) s
/-- MINN (R143). -/
def execMinn (g : Guard) (f : SRF) (s : State) : Host.Outcome State Fault Refusal :=
  issueOne (.minn g f) (opMinn f) s
/-- MAXN (R143). -/
def execMaxn (g : Guard) (f : SRF) (s : State) : Host.Outcome State Fault Refusal :=
  issueOne (.maxn g f) (opMaxn f) s
/-- SEL (R146). -/
def execSel (g : Guard) (f : SRF) (s : State) : Host.Outcome State Fault Refusal :=
  issueOne (.sel g f) (opSel f) s
/-- LEA (R147). -/
def execLea (g : Guard) (f : SRF) (s : State) : Host.Outcome State Fault Refusal :=
  issueOne (.lea g f) (opLea f) s
/-- CMP (R149). -/
def execCmp (g : Guard) (f : SRF) (s : State) : Host.Outcome State Fault Refusal :=
  issueOne (.cmp g f) (opCmp f) s
/-- ADDI (R148). -/
def execAddi (g : Guard) (f : SIF) (s : State) : Host.Outcome State Fault Refusal :=
  issueOne (.addi g f) (opAddi f) s
/-- ANDI (R148). -/
def execAndi (g : Guard) (f : SIF) (s : State) : Host.Outcome State Fault Refusal :=
  issueOne (.andi g f) (opAndi f) s
/-- ORI (R148). -/
def execOri (g : Guard) (f : SIF) (s : State) : Host.Outcome State Fault Refusal :=
  issueOne (.ori g f) (opOri f) s
/-- XORI (R148). -/
def execXori (g : Guard) (f : SIF) (s : State) : Host.Outcome State Fault Refusal :=
  issueOne (.xori g f) (opXori f) s
/-- MOVI (R148). -/
def execMovi (g : Guard) (f : SIF) (s : State) : Host.Outcome State Fault Refusal :=
  issueOne (.movi g f) (opMovi f) s
/-- MOVHI (R148). -/
def execMovhi (g : Guard) (f : SIF) (s : State) : Host.Outcome State Fault Refusal :=
  issueOne (.movhi g f) (opMovhi f) s
/-- PAND (R150). -/
def execPand (g : Guard) (f : SRF) (s : State) : Host.Outcome State Fault Refusal :=
  issueOne (.pand g f) (opPand f) s
/-- POR (R150). -/
def execPor (g : Guard) (f : SRF) (s : State) : Host.Outcome State Fault Refusal :=
  issueOne (.por g f) (opPor f) s
/-- PXOR (R150). -/
def execPxor (g : Guard) (f : SRF) (s : State) : Host.Outcome State Fault Refusal :=
  issueOne (.pxor g f) (opPxor f) s
/-- PNOT (R150). -/
def execPnot (g : Guard) (f : SRF) (s : State) : Host.Outcome State Fault Refusal :=
  issueOne (.pnot g f) (opPnot f) s
/-- SFADD (R151). -/
def execSfadd (g : Guard) (f : SRF) (s : State) : Host.Outcome State Fault Refusal :=
  issueOne (.sfadd g f) (opSfadd f) s
/-- SFSUB (R151). -/
def execSfsub (g : Guard) (f : SRF) (s : State) : Host.Outcome State Fault Refusal :=
  issueOne (.sfsub g f) (opSfsub f) s
/-- SFMUL (R151). -/
def execSfmul (g : Guard) (f : SRF) (s : State) : Host.Outcome State Fault Refusal :=
  issueOne (.sfmul g f) (opSfmul f) s
/-- SFFMA (R151). -/
def execSffma (g : Guard) (f : SRF) (s : State) : Host.Outcome State Fault Refusal :=
  issueOne (.sffma g f) (opSffma f) s
/-- SFDIV (R151). -/
def execSfdiv (g : Guard) (f : SRF) (s : State) : Host.Outcome State Fault Refusal :=
  issueOne (.sfdiv g f) (opSfdiv f) s
/-- SFSQRT (R151). -/
def execSfsqrt (g : Guard) (f : SRF) (s : State) : Host.Outcome State Fault Refusal :=
  issueOne (.sfsqrt g f) (opSfsqrt f) s
/-- SFCMP (R152). -/
def execSfcmp (g : Guard) (f : SRF) (s : State) : Host.Outcome State Fault Refusal :=
  issueOne (.sfcmp g f) (opSfcmp f) s
/-- SFCVT_I32 (R153). -/
def execSfcvtI32 (g : Guard) (f : SRF) (s : State) : Host.Outcome State Fault Refusal :=
  issueOne (.sfcvtI32 g f) (opSfcvtI32 f) s
/-- SFCVT_F32 (R154). -/
def execSfcvtF32 (g : Guard) (f : SRF) (s : State) : Host.Outcome State Fault Refusal :=
  issueOne (.sfcvtF32 g f) (opSfcvtF32 f) s
/-- SIGGET (R155). -/
def execSigget (g : Guard) (f : SRF) (s : State) : Host.Outcome State Fault Refusal :=
  issueOne (.sigget g f) (opSigget f) s
/-- SIGSET (R155). -/
def execSigset (g : Guard) (f : SRF) (s : State) : Host.Outcome State Fault Refusal :=
  issueOne (.sigset g f) (opSigset f) s
/-- BR (R159). -/
def execBr (g : Guard) (f : SBF) (s : State) : Host.Outcome State Fault Refusal :=
  issueOne (.br g f) (opBr f) s
/-- BRP (R159). -/
def execBrp (g : Guard) (f : SBF) (s : State) : Host.Outcome State Fault Refusal :=
  issueOne (.brp g f) (opBrp f) s
/-- BRSIG (R159). -/
def execBrsig (g : Guard) (f : SBF) (s : State) : Host.Outcome State Fault Refusal :=
  issueOne (.brsig g f) (opBrsig f) s
/-- LOOP (R160). -/
def execLoop (g : Guard) (f : SBF) (s : State) : Host.Outcome State Fault Refusal :=
  issueOne (.loop g f) (opLoop f) s
/-- CALL (R159). -/
def execCall (g : Guard) (f : SBF) (s : State) : Host.Outcome State Fault Refusal :=
  issueOne (.call g f) (opCall f) s
/-- BRI (R159). -/
def execBri (g : Guard) (f : SRF) (s : State) : Host.Outcome State Fault Refusal :=
  issueOne (.bri g f) (opBri f) s
/-- RET (R159). -/
def execRet (g : Guard) (f : SRF) (s : State) : Host.Outcome State Fault Refusal :=
  issueOne (.ret g f) (opRet f) s
/-- CREAD (R161). -/
def execCread (g : Guard) (f : SRF) (s : State) : Host.Outcome State Fault Refusal :=
  issueOne (.cread g f) (opCread f) s
/-- CWRITE (R162). -/
def execCwrite (g : Guard) (f : SRF) (s : State) : Host.Outcome State Fault Refusal :=
  issueOne (.cwrite g f) (opCwrite f) s

end Sys2Proof.Machine
end

