-- ==== Sys2Proof/Machine/Lanes.lean ====
section
/-!
DEFINITION. Slots A and B across elements: bit planes (07 R184 to R187), reductions (R188, R189), lane movement (R190,
R191), counts and tags as data (R192).
-/
namespace Sys2Proof.Machine

/-! ### Bit planes -/

/-- Range of a plane element (R93). -/
def plMin (sgn : Bool) (w : Nat) : Int := intMin sgn w
def plMax (sgn : Bool) (w : Nat) : Int := intMax sgn w

/-- The slots of the base row of a PL result (R170). -/
def baseSlots (s : State) (inB : Bool) (f : VF) (tag : Byte) : Op (List Nat) :=
  if f.t then .ok (List.replicate 16 0)
  else do
    let d ← dstRow s (dstBit inB) f.dst
    let old ← rdOld s d
    .ok (if old.tag = tag then slotsOf old else List.replicate 16 0)

/-- VPLANE (R184). -/
def opVplane (inB : Bool) (f : VF) (s : State) : Op State := do
  let a ← rdVRow s inB 0 f.a
  let g := f.c.toNat % 16
  let h := bitsOf 4 1 f.c.toNat
  let w := planeW s.cur
  let sgn := planeSgn s.cur
  if a.tag != tagI16 && a.tag != tagI8 then trapOp 0x03 0
  else if (h = 1 && a.tag = tagI16) || planeGroups w ≤ g then trapOp 0x02 8
  else
    let n := fmtBits (tagFmt a.tag)
    let l := (((rowLanes a).drop (128 * h)).take 128).map fun x =>
      intLane sgn (f.mod.getLsbD 3) w (readInt sgn n x.val)
    let tag := tagPL w
    let b ← baseSlots s inB f tag
    let slots := b.take (g * w) ++ plSlots w (l.map Lane.val) ++ b.drop (g * w + w)
    putRow s inB f 8 (rowOfSlots tag slots) (numbered 0 l) false

/-- VUNPLANE (R185). -/
def opVunplane (inB : Bool) (f : VF) (s : State) : Op State := do
  let a ← rdVRow s inB 0 f.a
  let g := f.c.toNat % 16
  let h := bitsOf 4 1 f.c.toNat
  let w := planeW s.cur
  let d8 := f.mod.getLsbD 0
  let _ ← needPL s a
  if (d8 && decide (8 < w)) || planeGroups w ≤ g then trapOp 0x02 8
  else
    let n := if d8 then 8 else 16
    let l := (List.range 128).map fun j =>
      (⟨wrapN n (readInt (planeSgn s.cur) w (plElem w (slotsOf a) g j)), 0, 0⟩ : Lane)
    if d8 then putPart s inB f 8 tagI8 (128 * h) l false else putLanes s inB f 8 tagI16 l false

/-- VPADD and VPSUB: every element of every group (R186). -/
def vPlane2 (f : VF) (inB : Bool) (op : Int → Int → Int) (s : State) : Op State := do
  let a ← rdVRow s inB 0 f.a
  let b ← rdVRow s inB 1 f.b
  let _ ← needPL s a
  let _ ← needPL s b
  let w := planeW s.cur
  let sgn := planeSgn s.cur
  let rd (r : Row) (g j : Nat) := readInt sgn w (plElem w (slotsOf r) g j)
  let groups := (List.range (planeGroups w)).map fun g =>
    (List.range 128).map fun j => intLane sgn (f.mod.getLsbD 3) w (op (rd a g j) (rd b g j))
  putRow s inB f 8 (rowOfSlots (tagPL w) (groups.flatMap fun l => plSlots w (l.map Lane.val)))
    (groups.flatMap (numbered 0)) false
def opVpadd (inB : Bool) (f : VF) (s : State) : Op State := vPlane2 f inB (· + ·) s
def opVpsub (inB : Bool) (f : VF) (s : State) : Op State := vPlane2 f inB (· - ·) s
def opVpand (inB : Bool) (f : VF) (s : State) : Op State := do
  let a ← rdVRow s inB 0 f.a
  let b ← rdVRow s inB 1 f.b
  let _ ← needPL s a
  let _ ← needPL s b
  putRow s inB f 8 (bitRow (tagPL (planeW s.cur)) (a.val &&& b.val)) [] false
/-- VPCNT (R187). -/
def opVpcnt (inB : Bool) (f : VF) (s : State) : Op State := do
  let a ← rdVRow s inB 0 f.a
  let _ ← needPL s a
  let k ← rdK s f.k
  let w := planeW s.cur
  let l := (List.range 128).map fun i =>
    (⟨if i < planeGroups w * w then popN 128 ((slotsOf a).getD i 0 &&& k.toNat) else 0, 0, 0⟩ : Lane)
  putWhole s inB f 8 (rowOfLanes tagI16 l) 0 none

/-! ### Reductions (R188, R189, 05 R118) -/

/-- One level of the tree: pairs joined, an empty one passing the other unrounded; the flags of the nodes. -/
def treeLevel (g : Lane → Lane → Lane) : List (Option Lane) → List (Option Lane) × Flags
  | x :: y :: r =>
    let rest := treeLevel g r
    match x, y with
    | none, _ => (y :: rest.1, rest.2)
    | some _, none => (x :: rest.1, rest.2)
    | some a, some b => (some (g a b) :: rest.1, (g a b).fl ||| rest.2)
  | l => (l, 0)
/-- The tree, `d` levels at most. -/
def treeOf (g : Lane → Lane → Lane) : Nat → List (Option Lane) × Flags → Option Lane × Flags
  | 0, (l, fl) => (l.headD none, fl)
  | d + 1, (l, fl) =>
    let n := treeLevel g l
    treeOf g d (n.1, fl ||| n.2)

/-- Source tags of the reductions and of the lane moves (R189, R190). -/
def isIntTag (tag : Byte) : Bool := tagPw tag = 0 && 1 ≤ tagFmt tag && tagFmt tag ≤ 4
def isFloatTag (tag : Byte) : Bool := tag = tagBF16 || tag = tagF32

/-- A lane value as a scalar (R189): floats widened to FP32, integers extended. DEDUCED: a BF16 NaN becomes the canonical FP32 NaN,
as R87 converts it, and raises no flag, since R189 calls the move exact (R85, R81; log 71). -/
def laneScalar (tag : Byte) (signed : Bool) (x : Lane) : Scalar :=
  if tag = tagF32 then ⟨BitVec.ofNat 64 x.val, BitVec.ofNat 5 x.cnt⟩
  else if tag = tagBF16 then ⟨BitVec.ofNat 64 (fToF 24 0 (fDec 8 x.val)).bits, BitVec.ofNat 5 x.cnt⟩
  else ⟨extend signed (fmtBits (tagFmt tag)) x.val, 24⟩

/-- The result of a reduction goes to every lane or to a scalar (R189). -/
def putRed (s : State) (inB : Bool) (f : VF) (tag : Byte) (x : Lane) (flags : Flags) (chk : Bool) : Op State :=
  let p := fmtPrec (tagFmt tag)
  let below := if chk && p != 0 then belowFloor s.cur p [(0, x.cnt)] else none
  if f.mod.getLsbD 3 then putScalar s f 9 (laneScalar tag (!f.mod.getLsbD 2) x) flags below
  else putWhole s inB f 9 (rowOfLanes tag (List.replicate (laneCount (tagFmt tag)) x)) flags below

/-- A reduction with its combination for floats and for integers of `n` bits, and the result of an empty tree. -/
def vReduce (f : VF) (inB : Bool) (gf : Nat → Lane → Lane → Lane) (gi : Nat → Lane → Lane → Lane)
    (ef : Nat → Lane) (ei : Nat → Lane) (s : State) : Op State := do
  let a ← rdVRow s inB 0 f.a
  let k ← rdK s f.k
  let fmt := tagFmt a.tag
  let p := fmtPrec fmt
  let n := fmtBits fmt
  if !isIntTag a.tag && !isFloatTag a.tag then trapOp 0x03 0
  else
    let leaves := (numbered 0 (rowLanes a)).map fun x => if laneOn k fmt x.1 then some x.2 else none
    let r := treeOf (if p = 0 then gi n else gf p) 8 (leaves, 0)
    putRed s inB f a.tag (r.1.getD (if p = 0 then ei n else ef p)) r.2 true

def opVrsum (inB : Bool) (f : VF) (s : State) : Op State :=
  vReduce f inB
    (fun p a b => let r := fAdd p (vRm f) (a.op p).val (b.op p).val; fLane r (cntAdd p r [a.op p, b.op p]))
    (fun n a b => ⟨(a.val + b.val) % 2 ^ n, 0, 0⟩) (fun p => ⟨0, p, 0⟩) (fun _ => ⟨0, 0, 0⟩) s
/-- The greater or lesser of two integers read by SGN. -/
def pickInt (isMax sgn : Bool) (n : Nat) (a b : Lane) : Lane :=
  if decide (readInt sgn n a.val < readInt sgn n b.val) = isMax then b else a
def opVrmax (inB : Bool) (f : VF) (s : State) : Op State :=
  vReduce f inB (fun p => minMaxLane p true) (pickInt true (vSigned f)) (fun p => ⟨fInf p true, 0, 0⟩)
    (fun n => ⟨wrapN n (intMin (vSigned f) n), 0, 0⟩) s
def opVrmin (inB : Bool) (f : VF) (s : State) : Op State :=
  vReduce f inB (fun p => minMaxLane p false) (pickInt false (vSigned f)) (fun p => ⟨fInf p false, 0, 0⟩)
    (fun n => ⟨wrapN n (intMax (vSigned f) n), 0, 0⟩) s
/-- VRSIGMIN (R189). -/
def opVrsigmin (inB : Bool) (f : VF) (s : State) : Op State := do
  let a ← rdVRow s inB 0 f.a
  let k ← rdK s f.k
  if !isFloatTag a.tag then trapOp 0x03 0
  else
    let fmt := tagFmt a.tag
    let m := ((numbered 0 (rowLanes a)).filter fun x => laneOn k fmt x.1).foldl (fun m x => min m x.2.cnt) (fmtPrec fmt)
    if f.mod.getLsbD 3 then putScalar s f 9 ⟨BitVec.ofNat 64 m, 24⟩ 0 none
    else putWhole s inB f 9 (rowOfLanes tagI32 (List.replicate 64 ⟨m, 0, 0⟩)) 0 none

/-! ### Lane movement (R190, R191) -/

def movable (tag : Byte) : Bool := isIntTag tag || isFloatTag tag || tag = tagRaw
/-- A source of the lane moves (R190). -/
def rdMovable (s : State) (inB : Bool) (f : VF) : Op Row := do
  let a ← rdVRow s inB 0 f.a
  if movable a.tag then .ok a else trapOp 0x03 0

def opVbcast (inB : Bool) (f : VF) (s : State) : Op State := do
  let a ← rdMovable s inB f
  match (rowLanes a)[f.c.toNat]? with
  | none => trapOp 0x02 8
  | some x => putLanes s inB f 9 a.tag (List.replicate (laneCount (tagFmt a.tag)) x) false

/-- VEXT (R191): the element count is that of R94, for PL that of R93. -/
def opVext (inB : Bool) (f : VF) (s : State) : Op State := do
  let a ← rdVRow s inB 0 f.a
  let lane := (bitsOf 0 1 f.mod.toNat) * 1024 + f.c.toNat
  if tagFmt a.tag = 8 then do
    let _ ← needPL s a
    let w := planeW s.cur
    if 128 * planeGroups w ≤ lane then trapOp 0x02 8
    else putScalar s f 9 ⟨extend (planeSgn s.cur) w (plElem w (slotsOf a) (lane / 128) (lane % 128)), 24⟩ 0 none
  else match (rowLanes a)[lane]? with
    | none => trapOp 0x02 8
    | some x =>
      let signed := isIntTag a.tag && !f.mod.getLsbD 2
      putScalar s f 9 (laneScalar a.tag signed x) 0 none

def opVins (inB : Bool) (f : VF) (s : State) : Op State := do
  let a ← rdMovable s inB f
  let b ← rdVScalar s inB 1 f.b
  let l := rowLanes a
  if l.length ≤ f.c.toNat then trapOp 0x02 8
  else putLanes s inB f 9 a.tag (l.set f.c.toNat (scalarLane (tagFmt a.tag) b)) false

def opVperm (inB : Bool) (f : VF) (s : State) : Op State := do
  let a ← rdMovable s inB f
  let b ← rdVRow s inB 1 f.b
  let l := rowLanes a
  let n := l.length
  if (b.tag != tagI8 && b.tag != tagI16) || laneCount (tagFmt b.tag) < n then trapOp 0x03 0
  else
    let idx := (rowLanes b).take n
    putLanes s inB f 9 a.tag (idx.map fun i => l.getD (i.val % n) (Lane.zero 0)) false

def opVshiftl (inB : Bool) (f : VF) (s : State) : Op State := do
  let a ← rdMovable s inB f
  let l := rowLanes a
  let n := l.length
  let k := f.c.toNat % 512
  let fill ← (if f.mod.getLsbD 3 then do
      let b ← rdVRow s inB 1 f.b
      if b.tag != a.tag then trapOp 0x03 0 else .ok (rowLanes b)
    else .ok (List.replicate n (Lane.zero (fmtPrec (tagFmt a.tag)))))
  if n < k then trapOp 0x02 8
  else putLanes s inB f 9 a.tag (fill.drop (n - k) ++ l.take (n - k)) false

def opViota (inB : Bool) (f : VF) (s : State) : Op State := do
  let a ← rdVScalar s inB 0 f.a
  let n := vBits f
  putLanes s inB f 9 (tagInt (vWid f)) ((List.range (2048 / n)).map fun j => ⟨(a.val.toNat + j) % 2 ^ n, 0, 0⟩) false

def opVmov (inB : Bool) (f : VF) (s : State) : Op State := do
  let a ← rdVRow s inB 0 f.a
  putRow s inB f 4 a [] false

/-- VFILL: TY 0 to 5 names FMT 1 to 6 (R167, R191). -/
def opVfill (inB : Bool) (f : VF) (s : State) : Op State := do
  let a ← rdVScalar s inB 0 f.a
  let fmt := 1 + f.mod.toNat % 8
  putLanes s inB f 4 (BitVec.ofNat 8 fmt) (List.replicate (laneCount fmt) (scalarLane fmt a)) false

/-! ### Counts and tags as data (R192, 05 R138) -/

def opVsig (inB : Bool) (f : VF) (s : State) : Op State := do
  let a ← rdVRow s inB 0 f.a
  putRow s inB f 4 ⟨a.trust.setWidth 2048, 0, tagI8⟩ [] false

def opVsigset (inB : Bool) (f : VF) (s : State) : Op State := do
  let a ← rdVRow s inB 0 f.a
  let b ← rdVRow s inB 1 f.b
  if !isFloatTag a.tag then trapOp 0x03 0
  else
    let p := fmtPrec (tagFmt a.tag)
    let l := (numbered 0 (rowLanes a)).map fun x =>
      ({ x.2 with cnt := clampCount p x.2.val (if p = 8 then bitsOf (4 * x.1) 4 b.val.toNat else bitsOf (8 * x.1) 8 b.val.toNat) } : Lane)
    putLanes s inB f 4 a.tag l false

def opVfmt (inB : Bool) (f : VF) (s : State) : Op State := do
  let a ← rdVRow s inB 0 f.a
  let tag : Byte := f.c.setWidth 8
  let p := fmtPrec (tagFmt tag)
  if isFloatTag a.tag && isFloatTag tag && a.tag != tag then trapOp 0x03 0
  else if a.tag = tag then putRow s inB f 4 a [] false
  else if p = 0 then putRow s inB f 4 (bitRow tag a.val) [] false
  else
    let l := (rowLanes ⟨a.val, 0, tag⟩).map fun x => ({ x with cnt := clampCount p x.val p } : Lane)
    putLanes s inB f 4 tag l false

end Sys2Proof.Machine
end

