-- ==== Sys2Proof/Machine/ExecV.lean ====
section
/-!
DEFINITION. The meanings of the operations of slots A and B: each is its operation issued alone in its bundle, under the
control word of the context in focus (02 R39 to R55).
-/
namespace Sys2Proof.Machine

/-- VADD (R173). -/
def execVadd (g : Guard) (inB : Bool) (f : VF) (s : State) : Host.Outcome State Fault Refusal :=
  issueOne (.vadd g inB f) (opVadd inB f) s
/-- VSUB (R173). -/
def execVsub (g : Guard) (inB : Bool) (f : VF) (s : State) : Host.Outcome State Fault Refusal :=
  issueOne (.vsub g inB f) (opVsub inB f) s
/-- VMUL (R173). -/
def execVmul (g : Guard) (inB : Bool) (f : VF) (s : State) : Host.Outcome State Fault Refusal :=
  issueOne (.vmul g inB f) (opVmul inB f) s
/-- VMULH (R173). -/
def execVmulh (g : Guard) (inB : Bool) (f : VF) (s : State) : Host.Outcome State Fault Refusal :=
  issueOne (.vmulh g inB f) (opVmulh inB f) s
/-- VMAD (R173). -/
def execVmad (g : Guard) (inB : Bool) (f : VF) (s : State) : Host.Outcome State Fault Refusal :=
  issueOne (.vmad g inB f) (opVmad inB f) s
/-- VAND (R173). -/
def execVand (g : Guard) (inB : Bool) (f : VF) (s : State) : Host.Outcome State Fault Refusal :=
  issueOne (.vand g inB f) (opVand inB f) s
/-- VOR (R173). -/
def execVor (g : Guard) (inB : Bool) (f : VF) (s : State) : Host.Outcome State Fault Refusal :=
  issueOne (.vor g inB f) (opVor inB f) s
/-- VXOR (R173). -/
def execVxor (g : Guard) (inB : Bool) (f : VF) (s : State) : Host.Outcome State Fault Refusal :=
  issueOne (.vxor g inB f) (opVxor inB f) s
/-- VNOT (R173). -/
def execVnot (g : Guard) (inB : Bool) (f : VF) (s : State) : Host.Outcome State Fault Refusal :=
  issueOne (.vnot g inB f) (opVnot inB f) s
/-- VSHL (R173). -/
def execVshl (g : Guard) (inB : Bool) (f : VF) (s : State) : Host.Outcome State Fault Refusal :=
  issueOne (.vshl g inB f) (opVshl inB f) s
/-- VSHR (R173). -/
def execVshr (g : Guard) (inB : Bool) (f : VF) (s : State) : Host.Outcome State Fault Refusal :=
  issueOne (.vshr g inB f) (opVshr inB f) s
/-- VSAR (R173). -/
def execVsar (g : Guard) (inB : Bool) (f : VF) (s : State) : Host.Outcome State Fault Refusal :=
  issueOne (.vsar g inB f) (opVsar inB f) s
/-- VMIN (R173). -/
def execVmin (g : Guard) (inB : Bool) (f : VF) (s : State) : Host.Outcome State Fault Refusal :=
  issueOne (.vmin g inB f) (opVmin inB f) s
/-- VMAX (R173). -/
def execVmax (g : Guard) (inB : Bool) (f : VF) (s : State) : Host.Outcome State Fault Refusal :=
  issueOne (.vmax g inB f) (opVmax inB f) s
/-- VABSDIFF (R173). -/
def execVabsdiff (g : Guard) (inB : Bool) (f : VF) (s : State) : Host.Outcome State Fault Refusal :=
  issueOne (.vabsdiff g inB f) (opVabsdiff inB f) s
/-- VCMP (R174). -/
def execVcmp (g : Guard) (inB : Bool) (f : VF) (s : State) : Host.Outcome State Fault Refusal :=
  issueOne (.vcmp g inB f) (opVcmp inB f) s
/-- VSEL (R175). -/
def execVsel (g : Guard) (inB : Bool) (f : VF) (s : State) : Host.Outcome State Fault Refusal :=
  issueOne (.vsel g inB f) (opVsel inB f) s
/-- VPOPC (R173). -/
def execVpopc (g : Guard) (inB : Bool) (f : VF) (s : State) : Host.Outcome State Fault Refusal :=
  issueOne (.vpopc g inB f) (opVpopc inB f) s
/-- VFADD (R176). -/
def execVfadd (g : Guard) (inB : Bool) (f : VF) (s : State) : Host.Outcome State Fault Refusal :=
  issueOne (.vfadd g inB f) (opVfadd inB f) s
/-- VFSUB (R176). -/
def execVfsub (g : Guard) (inB : Bool) (f : VF) (s : State) : Host.Outcome State Fault Refusal :=
  issueOne (.vfsub g inB f) (opVfsub inB f) s
/-- VFMUL (R176). -/
def execVfmul (g : Guard) (inB : Bool) (f : VF) (s : State) : Host.Outcome State Fault Refusal :=
  issueOne (.vfmul g inB f) (opVfmul inB f) s
/-- VFFMA (R176). -/
def execVffma (g : Guard) (inB : Bool) (f : VF) (s : State) : Host.Outcome State Fault Refusal :=
  issueOne (.vffma g inB f) (opVffma inB f) s
/-- VFMIN (R177). -/
def execVfmin (g : Guard) (inB : Bool) (f : VF) (s : State) : Host.Outcome State Fault Refusal :=
  issueOne (.vfmin g inB f) (opVfmin inB f) s
/-- VFMAX (R177). -/
def execVfmax (g : Guard) (inB : Bool) (f : VF) (s : State) : Host.Outcome State Fault Refusal :=
  issueOne (.vfmax g inB f) (opVfmax inB f) s
/-- VFABS (R176). -/
def execVfabs (g : Guard) (inB : Bool) (f : VF) (s : State) : Host.Outcome State Fault Refusal :=
  issueOne (.vfabs g inB f) (opVfabs inB f) s
/-- VFNEG (R176). -/
def execVfneg (g : Guard) (inB : Bool) (f : VF) (s : State) : Host.Outcome State Fault Refusal :=
  issueOne (.vfneg g inB f) (opVfneg inB f) s
/-- VFCMP (R178). -/
def execVfcmp (g : Guard) (inB : Bool) (f : VF) (s : State) : Host.Outcome State Fault Refusal :=
  issueOne (.vfcmp g inB f) (opVfcmp inB f) s
/-- VRCP (R179). -/
def execVrcp (g : Guard) (inB : Bool) (f : VF) (s : State) : Host.Outcome State Fault Refusal :=
  issueOne (.vrcp g inB f) (opVrcp inB f) s
/-- VRSQRT (R179). -/
def execVrsqrt (g : Guard) (inB : Bool) (f : VF) (s : State) : Host.Outcome State Fault Refusal :=
  issueOne (.vrsqrt g inB f) (opVrsqrt inB f) s
/-- VEXP2 (R179). -/
def execVexp2 (g : Guard) (inB : Bool) (f : VF) (s : State) : Host.Outcome State Fault Refusal :=
  issueOne (.vexp2 g inB f) (opVexp2 inB f) s
/-- VLOG2 (R179). -/
def execVlog2 (g : Guard) (inB : Bool) (f : VF) (s : State) : Host.Outcome State Fault Refusal :=
  issueOne (.vlog2 g inB f) (opVlog2 inB f) s
/-- VSIGM (R179). -/
def execVsigm (g : Guard) (inB : Bool) (f : VF) (s : State) : Host.Outcome State Fault Refusal :=
  issueOne (.vsigm g inB f) (opVsigm inB f) s
/-- VCVT (R181). -/
def execVcvt (g : Guard) (inB : Bool) (f : VF) (s : State) : Host.Outcome State Fault Refusal :=
  issueOne (.vcvt g inB f) (opVcvt inB f) s
/-- VCBDEC (R182). -/
def execVcbdec (g : Guard) (inB : Bool) (f : VF) (s : State) : Host.Outcome State Fault Refusal :=
  issueOne (.vcbdec g inB f) (opVcbdec inB f) s
/-- VCBENC (R183). -/
def execVcbenc (g : Guard) (inB : Bool) (f : VF) (s : State) : Host.Outcome State Fault Refusal :=
  issueOne (.vcbenc g inB f) (opVcbenc inB f) s
/-- VPLANE (R184). -/
def execVplane (g : Guard) (inB : Bool) (f : VF) (s : State) : Host.Outcome State Fault Refusal :=
  issueOne (.vplane g inB f) (opVplane inB f) s
/-- VUNPLANE (R185). -/
def execVunplane (g : Guard) (inB : Bool) (f : VF) (s : State) : Host.Outcome State Fault Refusal :=
  issueOne (.vunplane g inB f) (opVunplane inB f) s
/-- VPADD (R186). -/
def execVpadd (g : Guard) (inB : Bool) (f : VF) (s : State) : Host.Outcome State Fault Refusal :=
  issueOne (.vpadd g inB f) (opVpadd inB f) s
/-- VPSUB (R186). -/
def execVpsub (g : Guard) (inB : Bool) (f : VF) (s : State) : Host.Outcome State Fault Refusal :=
  issueOne (.vpsub g inB f) (opVpsub inB f) s
/-- VPAND (R186). -/
def execVpand (g : Guard) (inB : Bool) (f : VF) (s : State) : Host.Outcome State Fault Refusal :=
  issueOne (.vpand g inB f) (opVpand inB f) s
/-- VPCNT (R187). -/
def execVpcnt (g : Guard) (inB : Bool) (f : VF) (s : State) : Host.Outcome State Fault Refusal :=
  issueOne (.vpcnt g inB f) (opVpcnt inB f) s
/-- VRSUM (R189). -/
def execVrsum (g : Guard) (inB : Bool) (f : VF) (s : State) : Host.Outcome State Fault Refusal :=
  issueOne (.vrsum g inB f) (opVrsum inB f) s
/-- VRMAX (R189). -/
def execVrmax (g : Guard) (inB : Bool) (f : VF) (s : State) : Host.Outcome State Fault Refusal :=
  issueOne (.vrmax g inB f) (opVrmax inB f) s
/-- VRMIN (R189). -/
def execVrmin (g : Guard) (inB : Bool) (f : VF) (s : State) : Host.Outcome State Fault Refusal :=
  issueOne (.vrmin g inB f) (opVrmin inB f) s
/-- VRSIGMIN (R189). -/
def execVrsigmin (g : Guard) (inB : Bool) (f : VF) (s : State) : Host.Outcome State Fault Refusal :=
  issueOne (.vrsigmin g inB f) (opVrsigmin inB f) s
/-- VBCAST (R191). -/
def execVbcast (g : Guard) (inB : Bool) (f : VF) (s : State) : Host.Outcome State Fault Refusal :=
  issueOne (.vbcast g inB f) (opVbcast inB f) s
/-- VEXT (R191). -/
def execVext (g : Guard) (inB : Bool) (f : VF) (s : State) : Host.Outcome State Fault Refusal :=
  issueOne (.vext g inB f) (opVext inB f) s
/-- VINS (R191). -/
def execVins (g : Guard) (inB : Bool) (f : VF) (s : State) : Host.Outcome State Fault Refusal :=
  issueOne (.vins g inB f) (opVins inB f) s
/-- VPERM (R191). -/
def execVperm (g : Guard) (inB : Bool) (f : VF) (s : State) : Host.Outcome State Fault Refusal :=
  issueOne (.vperm g inB f) (opVperm inB f) s
/-- VSHIFTL (R191). -/
def execVshiftl (g : Guard) (inB : Bool) (f : VF) (s : State) : Host.Outcome State Fault Refusal :=
  issueOne (.vshiftl g inB f) (opVshiftl inB f) s
/-- VIOTA (R191). -/
def execViota (g : Guard) (inB : Bool) (f : VF) (s : State) : Host.Outcome State Fault Refusal :=
  issueOne (.viota g inB f) (opViota inB f) s
/-- VMOV (R191). -/
def execVmov (g : Guard) (inB : Bool) (f : VF) (s : State) : Host.Outcome State Fault Refusal :=
  issueOne (.vmov g inB f) (opVmov inB f) s
/-- VFILL (R191). -/
def execVfill (g : Guard) (inB : Bool) (f : VF) (s : State) : Host.Outcome State Fault Refusal :=
  issueOne (.vfill g inB f) (opVfill inB f) s
/-- VSIG (R192). -/
def execVsig (g : Guard) (inB : Bool) (f : VF) (s : State) : Host.Outcome State Fault Refusal :=
  issueOne (.vsig g inB f) (opVsig inB f) s
/-- VSIGSET (R192). -/
def execVsigset (g : Guard) (inB : Bool) (f : VF) (s : State) : Host.Outcome State Fault Refusal :=
  issueOne (.vsigset g inB f) (opVsigset inB f) s
/-- VFMT (R192). -/
def execVfmt (g : Guard) (inB : Bool) (f : VF) (s : State) : Host.Outcome State Fault Refusal :=
  issueOne (.vfmt g inB f) (opVfmt inB f) s
/-- KAND (R193). -/
def execKand (g : Guard) (inB : Bool) (f : VF) (s : State) : Host.Outcome State Fault Refusal :=
  issueOne (.kand g inB f) (opKand inB f) s
/-- KOR (R193). -/
def execKor (g : Guard) (inB : Bool) (f : VF) (s : State) : Host.Outcome State Fault Refusal :=
  issueOne (.kor g inB f) (opKor inB f) s
/-- KNOT (R193). -/
def execKnot (g : Guard) (inB : Bool) (f : VF) (s : State) : Host.Outcome State Fault Refusal :=
  issueOne (.knot g inB f) (opKnot inB f) s
/-- KPOPC (R193). -/
def execKpopc (g : Guard) (inB : Bool) (f : VF) (s : State) : Host.Outcome State Fault Refusal :=
  issueOne (.kpopc g inB f) (opKpopc inB f) s

end Sys2Proof.Machine
end

