-- ==== Sys2Proof/Machine/ExecY.lean ====
section
/-!
DEFINITION. The meanings of the operations of slot Y: each is its operation issued alone in its bundle, under the
control word of the context in focus (02 R39 to R55).
-/
namespace Sys2Proof.Machine

/-- SEM_INIT (R298). -/
def execSemInit (g : Guard) (f : SYF) (s : State) : Host.Outcome State Fault Refusal :=
  issueOne (.semInit g f) (opSemInit f) s
/-- SEM_POST (R298). -/
def execSemPost (g : Guard) (f : SYF) (s : State) : Host.Outcome State Fault Refusal :=
  issueOne (.semPost g f) (opSemPost f) s
/-- SEM_WAIT (R298). -/
def execSemWait (g : Guard) (f : SYF) (s : State) : Host.Outcome State Fault Refusal :=
  issueOne (.semWait g f) (opSemWait f) s
/-- SEM_TRY (R298). -/
def execSemTry (g : Guard) (f : SYF) (s : State) : Host.Outcome State Fault Refusal :=
  issueOne (.semTry g f) (opSemTry f) s
/-- BAR_INIT (R303). -/
def execBarInit (g : Guard) (f : SYF) (s : State) : Host.Outcome State Fault Refusal :=
  issueOne (.barInit g f) (opBarInit f) s
/-- BAR_ARRIVE (R302). -/
def execBarArrive (g : Guard) (f : SYF) (s : State) : Host.Outcome State Fault Refusal :=
  issueOne (.barArrive g f) (opBarArrive f) s
/-- BAR_EXPECT (R302). -/
def execBarExpect (g : Guard) (f : SYF) (s : State) : Host.Outcome State Fault Refusal :=
  issueOne (.barExpect g f) (opBarExpect f) s
/-- BAR_WAIT (R304). -/
def execBarWait (g : Guard) (f : SYF) (s : State) : Host.Outcome State Fault Refusal :=
  issueOne (.barWait g f) (opBarWait f) s
/-- BAR_TEST (R304). -/
def execBarTest (g : Guard) (f : SYF) (s : State) : Host.Outcome State Fault Refusal :=
  issueOne (.barTest g f) (opBarTest f) s
/-- GBAR (R307). -/
def execGbar (g : Guard) (f : XCF) (s : State) : Host.Outcome State Fault Refusal :=
  issueOne (.gbar g f) (opGbar f) s
/-- MOOR (R323). -/
def execMoor (g : Guard) (f : SYF) (s : State) : Host.Outcome State Fault Refusal :=
  issueOne (.moor g f) (opMoor f) s
/-- UNMOOR (R324). -/
def execUnmoor (g : Guard) (f : SYF) (s : State) : Host.Outcome State Fault Refusal :=
  issueOne (.unmoor g f) (opUnmoor f) s
/-- ACQ (R325). -/
def execAcq (g : Guard) (f : SYF) (s : State) : Host.Outcome State Fault Refusal :=
  issueOne (.acq g f) (opAcq f) s
/-- REL (R325). -/
def execRel (g : Guard) (f : SYF) (s : State) : Host.Outcome State Fault Refusal :=
  issueOne (.rel g f) (opRel f) s
/-- FENCE (R326). -/
def execFence (g : Guard) (f : XCF) (s : State) : Host.Outcome State Fault Refusal :=
  issueOne (.fence g f) (opFence f) s
/-- TKWAIT (R312). -/
def execTkwait (g : Guard) (f : XCF) (s : State) : Host.Outcome State Fault Refusal :=
  issueOne (.tkwait g f) (opTkwait f) s
/-- TKCLR (R312). -/
def execTkclr (g : Guard) (f : XCF) (s : State) : Host.Outcome State Fault Refusal :=
  issueOne (.tkclr g f) (opTkclr f) s
/-- PIPE_PUSH (R357). -/
def execPipePush (g : Guard) (f : SYF) (s : State) : Host.Outcome State Fault Refusal :=
  issueOne (.pipePush g f) (opPipePush f) s
/-- PIPE_POP (R357). -/
def execPipePop (g : Guard) (f : SYF) (s : State) : Host.Outcome State Fault Refusal :=
  issueOne (.pipePop g f) (opPipePop f) s
/-- PIPE_POP_TRY (R357). -/
def execPipePopTry (g : Guard) (f : SYF) (s : State) : Host.Outcome State Fault Refusal :=
  issueOne (.pipePopTry g f) (opPipePopTry f) s
/-- Q_PUSH (R388). -/
def execQPush (g : Guard) (f : SYF) (s : State) : Host.Outcome State Fault Refusal :=
  issueOne (.qPush g f) (opQPush f) s
/-- Q_POP (R388). -/
def execQPop (g : Guard) (f : SYF) (s : State) : Host.Outcome State Fault Refusal :=
  issueOne (.qPop g f) (opQPop f) s
/-- Q_POP_TRY (R388). -/
def execQPopTry (g : Guard) (f : SYF) (s : State) : Host.Outcome State Fault Refusal :=
  issueOne (.qPopTry g f) (opQPopTry f) s
/-- Q_TRY (R388). -/
def execQTry (g : Guard) (f : SYF) (s : State) : Host.Outcome State Fault Refusal :=
  issueOne (.qTry g f) (opQTry f) s
/-- Q_PEEK (R388). -/
def execQPeek (g : Guard) (f : SYF) (s : State) : Host.Outcome State Fault Refusal :=
  issueOne (.qPeek g f) (opQPeek f) s
/-- Q_INFO (R388). -/
def execQInfo (g : Guard) (f : SYF) (s : State) : Host.Outcome State Fault Refusal :=
  issueOne (.qInfo g f) (opQInfo f) s
/-- SPAWN (R423). -/
def execSpawn (g : Guard) (f : SYF) (s : State) : Host.Outcome State Fault Refusal :=
  issueOne (.spawn g f) (opSpawn f) s
/-- TASK_END (R424). -/
def execTaskEnd (g : Guard) (f : XCF) (s : State) : Host.Outcome State Fault Refusal :=
  issueOne (.taskEnd g f) (opTaskEnd f) s
/-- TASK_ABANDON (R424). -/
def execTaskAbandon (g : Guard) (f : XCF) (s : State) : Host.Outcome State Fault Refusal :=
  issueOne (.taskAbandon g f) (opTaskAbandon f) s
/-- TS_GET (R424). -/
def execTsGet (g : Guard) (f : SYF) (s : State) : Host.Outcome State Fault Refusal :=
  issueOne (.tsGet g f) (opTsGet f) s
/-- BANK_REL (R377). -/
def execBankRel (g : Guard) (f : XCF) (s : State) : Host.Outcome State Fault Refusal :=
  issueOne (.bankRel g f) (opBankRel f) s
/-- HINT_SUCC (R378). -/
def execHintSucc (g : Guard) (f : XCF) (s : State) : Host.Outcome State Fault Refusal :=
  issueOne (.hintSucc g f) (opHintSucc f) s
/-- WAITVIS (R379). -/
def execWaitvis (g : Guard) (f : XCF) (s : State) : Host.Outcome State Fault Refusal :=
  issueOne (.waitvis g f) (opWaitvis f) s
/-- COMPLETE (R380). -/
def execComplete (g : Guard) (f : SYF) (s : State) : Host.Outcome State Fault Refusal :=
  issueOne (.complete g f) (opComplete f) s
/-- PHASE (R366). -/
def execPhase (g : Guard) (f : XCF) (s : State) : Host.Outcome State Fault Refusal :=
  issueOne (.phase g f) (opPhase f) s
/-- TRAP (R343). -/
def execTrap (g : Guard) (f : XCF) (s : State) : Host.Outcome State Fault Refusal :=
  issueOne (.trap g f) (opTrap f) s
/-- YIELD (R343). -/
def execYield (g : Guard) (f : XCF) (s : State) : Host.Outcome State Fault Refusal :=
  issueOne (.yield g f) (opYield f) s
/-- SLEEP (R343). -/
def execSleep (g : Guard) (f : XCF) (s : State) : Host.Outcome State Fault Refusal :=
  issueOne (.sleep g f) (opSleep f) s
/-- END (R343). -/
def execEndCtx (g : Guard) (f : XCF) (s : State) : Host.Outcome State Fault Refusal :=
  issueOne (.endCtx g f) (opEndCtx f) s

end Sys2Proof.Machine
end

