-- ==== Sys2Proof/Machine/Links.lean ====
section
/-!
DEFINITION. The package mesh and the scale-up fabric (20 R482, R484 to R487).
-/
namespace Sys2Proof.Machine

/-- UCIE_LINK_DOWN: unreached dies lose every tile to the hard failure; a link between port dies or to the NVM die stops the
device, on every function (R477, R482). -/
def execUcieLinkDown (u : UcieDown) (s : State) : Host.Outcome State Fault Refusal :=
  if u.stop then
    let s1 := (List.range 65).foldl (fun st f => raiseMsi st f 2) s
    evNext { s1 with dev := { s1.dev with stopped := true } }
  else
    let ts := (u.dies.flatMap fun d => (List.range 13).map fun i => 16 * d + i).filter fun t =>
      t < 128 && ((s.tile t).svc.st = .enabled || (s.tile t).svc.st = .draining)
    evNext (ts.foldl hardFail s)

/-! ### Ports (R484, R486) -/

def State.port (s : State) (p : Nat) : Port := s.dev.ports.toList.getD p ⟨.failed, 0, none⟩
def State.setPort (s : State) (p : Nat) (x : Port) : State := { s with dev := { s.dev with ports := s.dev.ports.setIfInBounds p x } }

/-- PORT_RETRAIN: 16 retries in a row; what was in flight goes over another port, or finds none. -/
def execPortRetrain (p : Nat) (s : State) : Host.Outcome State Fault Refusal :=
  let x := s.port p
  if x.st = .up || x.st = .degraded then evNext (s.setPort p { x with st := .training }) else evNext s

/-- PORT_TRAINING: with DEVID written, a port that is down or in training finds a peer of its domain tag and another id, and
trains with some lanes: 8, at least 4, or fewer, which fails. -/
def execPortTraining (p lanes peer tag : Nat) (s : State) : Host.Outcome State Fault Refusal :=
  let x := s.port p
  let fits := s.dev.devidSet && tag = s.dev.dtag && peer != s.dev.devid && peer < 320
  match x.st with
  | .down => if s.dev.devidSet then evNext (s.setPort p { x with st := .training }) else evNext s
  | .training =>
    if fits && lanes = 8 then evNext (s.setPort p ⟨.up, 0, some peer⟩)
    else if fits && 4 ≤ lanes && lanes < 8 then evNext (s.setPort p ⟨.degraded, 0, some peer⟩)
    else evNext (s.setPort p ⟨if 8 ≤ x.fails + 1 then .failed else .training, x.fails + 1, x.peer⟩)
  | _ => evNext s

/-- TIME_SYNC: whether the device stands within 50 ticks of the root (R487). -/
def execTimeSync (inSync : Bool) (s : State) : Host.Outcome State Fault Refusal := evNext { s with dev := { s.dev with sync := inSync } }

/-! ### REMOTE_ACCESS (R485) -/

/-- Whether a run of bytes lies in the export window. -/
def exported (s : State) (off n : Nat) : Bool := s.dev.expBase ≤ off && off + n ≤ s.dev.expEnd

/-- The number under which a peer's writes stand, of no function of the device. -/
def peerVf : Nat := 256

/-- The instruction whose operation at the home a peer asks for. -/
def peerInstr (k : SyncKind) : Instr :=
  let f : SYF := ⟨0, 0, 0, 0⟩
  match k with
  | .semInit => .semInit anyGuard f
  | .semPost => .semPost anyGuard f
  | .semWait => .semWait anyGuard f
  | .semTry => .semTry anyGuard f
  | .barInit => .barInit anyGuard f
  | .barArrive => .barArrive anyGuard f
  | .barExpect => .barExpect anyGuard f
  | .barWait => .barWait anyGuard f
  | .barTest => .barTest anyGuard f
  | .rel => .rel anyGuard f
  | .acq => .acq anyGuard f
  | .qPush => .qPush anyGuard f
  | .qTry => .qTry anyGuard f
  | .qPop => .qPop anyGuard f
  | .qPopTry => .qPopTry anyGuard f
  | .qPeek => .qPeek anyGuard f
  | .qInfo => .qInfo anyGuard f
/-- Whether it is a release (12 R315, 16 R390). -/
def peerReleases (k : SyncKind) : Bool :=
  match k with
  | .semPost => true
  | .barArrive => true
  | .rel => true
  | .qPush => true
  | .qTry => true
  | _ => false
/-- Whether it is answered; the others post (11 R291). -/
def peerAnswers (k : SyncKind) : Bool :=
  match k with
  | .semInit => false
  | .semPost => false
  | .barInit => false
  | .barArrive => false
  | .barExpect => false
  | .rel => false
  | _ => true

/-- The writes of an agent so far to a run of device memory, as a release carries them. -/
def peerWrites (s : State) (agent off len : Nat) : List WRef :=
  ((s.hist.filter fun w => w.agent = agent && off < 16 * w.piece + 16 && 16 * w.piece < off + len).map WRec.id).eraseDups.map
    fun i => ⟨i, peerVf, off, 0⟩

/-- A peer's operation on the sync word at an offset (11 R289, 20 R487). -/
def remoteSyncOp (s : State) (r : RemoteReq) (o : RemoteSync) : SOp :=
  let a := peerAgent r.peer
  { id := s.uid, cid := a, pc := 0, op := peerInstr o.kind, loc := BitVec.ofNat 64 r.off, word := r.off, key := s.dev.expKey, anchor := 2 ^ 80,
    vf := o.vf, n := o.n, row := some ⟨o.entry, 0, 0⟩
    carry := if peerReleases o.kind then
        (o.moored.flatMap fun m => peerWrites s a m.1 m.2).map fun w => ⟨w, o.scope, a, 0, false⟩ else []
    answered := peerAnswers o.kind, along := [], shadow := [] }

/-- REMOTE_ACCESS: performed at the offset under the export key, in pieces; outside the window a load, an atomic or an answered
operation is answered with poison, and a store or a posting operation is discarded. -/
def execRemoteAccess (r : RemoteReq) (s : State) : Host.Outcome State Fault Refusal :=
  let key := s.dev.expKey
  let reply (t : State) (b : List Byte) (bad : Bool) : State := { t with dev := { t.dev with reply := some (b, bad) }, fresh := t.fresh + 1 }
  let lost (n : Nat) : State := reply s ((List.range n).map (Config.freeByte s.fresh)) true
  match r.op with
  | .load n =>
    if exported s r.off n then evNext (reply s (physRead s r.off n key) (physPoison s r.off n)) else evNext (lost n)
  | .store bytes mask =>
    if exported s r.off bytes.length then
      evNext (writePieces { s with uid := s.uid + 1 } s.uid (peerAgent r.peer) peerVf key false bytes mask r.off (piecesOf r.off bytes.length))
    else evNext s
  | .atomic op sgn wide x cmp =>
    let w := if wide then 64 else 32
    if exported s r.off (w / 8) then
      let bad := physPoison s r.off (w / 8)
      let old := leNat (physRead s r.off (w / 8) key)
      let new := atomNew op sgn w old (x.toNat % 2 ^ w) (cmp.toNat % 2 ^ w)
      evNext (reply (pieceWrite { s with uid := s.uid + 1 } s.uid (peerAgent r.peer) peerVf r.off (leBytes (w / 8) new) (allOnes (w / 8)) key bad)
        (leBytes (w / 8) old) bad)
    else evNext (lost (w / 8))
  | .sync o =>
    if exported s r.off 16 && r.off % 16 = 0 then evNext (performSync { s with uid := s.uid + 1 } (remoteSyncOp s r o))
    else if peerAnswers o.kind then evNext (lost 16) else evNext s

end Sys2Proof.Machine
end

