-- ==== Sys2Proof/Machine/Loader.lean ====
section
/-!
DEFINITION. The loader of code objects (15 R368 to R374, R515; 02 R57, R58; 03 R79, R80).
-/
namespace Sys2Proof.Machine

/-! ### The layout of an object (R368 to R371) -/

/-- A name at a string offset: its characters, 1 to 63 of ASCII, ended by a zero byte. -/
def nameAt (b : List Byte) (at_ : Nat) : Option (List Byte) :=
  let l := ((b.drop at_).take 64).takeWhile fun c => c != 0
  if 1 ≤ l.length && l.length ≤ 63 && at_ + l.length < b.length && l.all fun c => c.toNat < 128 then some l else none

/-- A pipe entry at a place (R369). -/
def pipeEntryAt (b : List Byte) (str at_ : Nat) : Option PipeEnd :=
  let dir := numAt b (at_ + 5) 1
  let ld := numAt b (at_ + 6) 1
  match nameAt b (str + numAt b at_ 4) with
  | some n =>
    if zeroAt b (at_ + 7) 1 && (if dir = 1 then 1 ≤ ld && ld ≤ 6 else dir = 0 && ld = 0) then
      some ⟨n, numAt b (at_ + 4) 1, dir = 1, ld⟩
    else none
  | none => none

/-- Fields of a kernel entry are in range (R369). -/
def kernelFieldsOk (e : List Byte) (dataLen : Nat) : Bool :=
  let rows := numAt e 12 2
  let npipe := numAt e 18 2
  rows % 16 = 0 && 16 ≤ rows && rows ≤ 320 && [0, 1, 2, 4, 8, 16, 32].contains (numAt e 14 1)
    && [0, 4, 8, 12, 16].contains (numAt e 15 1) && numAt e 16 1 ≤ 64 && numAt e 17 1 ≤ 1 && npipe ≤ 16
    && 1 ≤ numAt e 20 4 && numAt e 20 4 ≤ 65536 && numAt e 28 4 % 64 = 0 && (npipe = 0 || numAt e 28 4 != 0)
    && numAt e 36 2 ≤ 256 && (numAt e 36 2 = 0 || numAt e 32 4 + 4 * numAt e 36 2 ≤ dataLen) && zeroAt e 38 26

/-- A kernel entry (R369), with its name. -/
def kernelAt (b : List Byte) (str dataLen at_ : Nat) : Option Kernel :=
  let e := (b.drop at_).take 64
  let pipes := allSome ((List.range (numAt e 18 2)).map fun i => pipeEntryAt b str (numAt e 28 4 + 8 * i))
  let gname := if numAt e 24 4 = 0 then some [] else nameAt b (str + numAt e 24 4)
  match nameAt b (str + numAt e 0 4), pipes, gname with
  | some _, some ps, some g =>
    if kernelFieldsOk e dataLen then
      some { entry := numAt e 4 4, hndl := numAt e 8 4, rows := numAt e 12 2, spad := numAt e 14 1, acc := numAt e 15 1,
             tokens := numAt e 16 1, strict := numAt e 17 1 = 1, chainMax := numAt e 20 4, gname := g, pipes := ps,
             ttab := numAt e 32 4, ntask := numAt e 36 2 }
    else none
  | _, _, _ => none

/-- The string offsets an object uses. -/
def nameOffsets (b : List Byte) (kt nk : Nat) : List Nat :=
  (List.range nk).flatMap fun k =>
    let e := (b.drop (kt + 64 * k)).take 64
    [numAt e 0 4] ++ (if numAt e 24 4 = 0 then [] else [numAt e 24 4])
      ++ (List.range (numAt e 18 2)).map fun i => numAt b (numAt e 28 4 + 8 * i) 4

/-- Bytes of the string table that names reach. -/
def stringExtent (b : List Byte) (str : Nat) (offs : List Nat) : Nat :=
  offs.foldl (fun m o => max m (o + ((nameAt b (str + o)).getD []).length + 1)) 0

/-- Runs of bytes that do not overlap. -/
def disjointRuns : List (Nat × Nat) → Bool
  | [] => true
  | (a, n) :: r => r.all (fun x => n = 0 || x.2 = 0 || a + n ≤ x.1 || x.1 + x.2 ≤ a) && disjointRuns r

/-- What an object says of itself. -/
structure ObjImage where
  svn : Nat
  slot : Nat
  lat : List Byte
  gens : List Nat
  latZero : Bool
  ngen : Nat
  code : List Byte
  nbund : Nat
  data : List Byte
  kernels : List Kernel
  sig : List Byte
  signed : List Byte
  deriving DecidableEq, Repr

/-- Check 3 of R372: the header, the block layout and R368. -/
def parseObj (b : List Byte) : Option ObjImage :=
  let size := numAt b 16 8
  let lat := numAt b 24 4
  let kt := numAt b 28 4
  let nk := numAt b 32 2
  let code := numAt b 36 4
  let nb := numAt b 40 4
  let data := numAt b 44 4
  let dlen := numAt b 48 4
  let str := numAt b 52 4
  let tag := numAt b 56 4
  let sig := numAt b 60 4
  let ngen := numAt b (lat + 18) 2
  let pipeRuns := (List.range nk).map fun k => (numAt b (kt + 64 * k + 28) 4, 8 * numAt b (kt + 64 * k + 18) 2)
  let runs := [(0, 64), (lat, 24 + 4 * ngen), (kt, 64 * nk), (code, 64 * nb), (data, dlen),
    (str, stringExtent b str (nameOffsets b kt nk)), (tag, if tag = 0 then 0 else 4 + 16 * numAt b tag 4), (sig, 5376)] ++ pipeRuns
  let kernels := allSome ((List.range nk).map fun k => kernelAt b str dlen (kt + 64 * k))
  match kernels with
  | none => none
  | some ks =>
    if numAt b 0 4 = 0x4B5A4B49 && numAt b 4 2 = 1 && zeroAt b 6 2 && numAt b 12 1 ≤ 63 && zeroAt b 13 3 && size % 64 = 0
        && b.length = size && [lat, kt, code, data, str, tag, sig].all (fun o => o % 64 = 0) && 1 ≤ nk && nk ≤ 256 && zeroAt b 34 2
        && 1 ≤ nb && nb ≤ 2 ^ 24 && (data != 0 || dlen = 0) && sig + 5376 = size && runs.all (fun r => r.1 + r.2 ≤ size)
        && disjointRuns runs && sigZero (b.drop sig) then
      some { svn := numAt b 8 4, slot := numAt b 12 1, lat := (b.drop lat).take 16
             gens := (List.range (min ngen 256)).map fun i => numAt b (lat + 24 + 4 * i) 4
             latZero := zeroAt b (lat + 20) 4, ngen := ngen, code := (b.drop code).take (64 * nb), nbund := nb
             data := if data = 0 then [] else (b.drop data).take dlen, kernels := ks, sig := b.drop sig, signed := b.take (sig + 2000) }
    else none

/-! ### The latency record and the generation table (R57, R79, R80) -/

/-- SLOT and OPC of an entry, as one number, and its GEN. -/
def genKey (e : Nat) : Nat := bitsOf 21 11 e
def genNo (e : Nat) : Nat := bitsOf 0 16 e

/-- Check 8. -/
def latRecordOk (o : ObjImage) : Bool :=
  o.lat.all (fun n => n != 0) && o.ngen ≤ 256 && o.latZero
    && o.gens.all fun e => bitsOf 24 8 e != 0 && bitsOf 16 5 e = 0 && o.gens.all fun x => genKey x != genKey e || genNo x = genNo e

/-- Whether the opcode map assigns a cell: some operands decode under it (R72 to R78). -/
def assigned (slot opc : Nat) : Bool := (decodeSlot slot (slotWord (BitVec.ofNat 8 opc) ⟨0, false⟩ 0)).isSome

/-- Check 9: the rewrite of every entry is the identity. -/
def rewritesOk (o : ObjImage) : Bool := o.gens.all fun e => genNo e = 1 && assigned (bitsOf 21 3 e) (bitsOf 24 8 e)

/-! ### Bundles (R515, R158) -/

/-- The operations of bundle `i` of a code section, when it is legal. -/
def bundleOps (code : List Byte) (i : Nat) : Option (List Instr) :=
  match decodeBundle (bundleOfBytes ((code.drop (64 * i)).take 64)) with
  | .ok r => some r.2
  | .error _ => none

/-- The direct target of a transfer, in bundles. -/
def directTarget (i : Nat) (op : Instr) : Option Int :=
  let go (f : SBF) : Option Int := some ((i : Int) + f.off.toInt)
  match op with
  | .br _ f => go f
  | .brp _ f => go f
  | .brsig _ f => go f
  | .loop _ f => go f
  | .call _ f => go f
  | _ => none

/-- Whether issue never falls through an operation (R515). -/
def noFall (op : Instr) : Bool :=
  match op with
  | .br .. => true
  | .bri .. => true
  | .ret .. => true
  | .rett .. => true
  | .endCtx .. => true
  | .taskEnd .. => true
  | .taskAbandon .. => true
  | _ => false

/-- The bundles a bundle leads to. -/
def leadsTo (ops : List Instr) (i n : Nat) : List Nat :=
  (if ops.any noFall then [] else [i + 1]).filter (· < n)
    ++ (ops.filterMap (directTarget i)).filterMap fun (t : Int) => if 0 ≤ t && t < (n : Int) then some t.toNat else none

/-- The bundles reached from those to visit. -/
def reachFrom (code : List Byte) (n : Nat) : Nat → List Nat → List Nat → List Nat
  | 0, _, seen => seen
  | _, [], seen => seen
  | f + 1, i :: r, seen =>
    if seen.contains i then reachFrom code n f r seen
    else reachFrom code n f (leadsTo ((bundleOps code i).getD []) i n ++ r) (i :: seen)

/-- Entries of a kernel's task table. -/
def taskTable (data : List Byte) (k : Kernel) : List Nat := (List.range k.ntask).map fun j => numAt data (k.ttab + 4 * j) 4

/-- The bundles a kernel reaches. -/
def kernelReach (o : ObjImage) (k : Kernel) : List Nat :=
  let start := [k.entry] ++ (if k.hndl = 0 then [] else [k.hndl - 1]) ++ taskTable o.data k
  reachFrom o.code o.nbund (3 * o.nbund + start.length + 1) (start.filter (· < o.nbund)) []

/-- An operation keeps to what a kernel declares (check 11). -/
def declaredBy (k : Kernel) (i : Instr) : Bool :=
  (rowFields i).all (fun n => decide (n < k.rows)) && (blockFields i).all (fun n => decide (n < k.acc))
    && (tokenFields i).all (fun n => decide (n < k.tokens))
    && (match pipeField i with
        | some (n, push) => k.pipes.any fun p => p.num = n && p.pop != push
        | none => true)
    && (!localAccess i || k.spad != 0) && (bankFields i).all fun n => decide (n < k.spad)

/-- Bundle `i` breaks the declarations of a kernel that reaches it, or, where none does, of some kernel. -/
def breaksResources (o : ObjImage) (reach : List (Kernel × List Nat)) (i : Nat) : Bool :=
  let ops := (bundleOps o.code i).getD []
  let mine := (reach.filter fun x => x.2.contains i).map Prod.fst
  (if mine.isEmpty then o.kernels else mine).any fun k => ops.any fun op => !declaredBy k op

/-- A direct target outside the code section. -/
def strayTarget (o : ObjImage) (i : Nat) : Bool :=
  (((bundleOps o.code i).getD []).filterMap (directTarget i)).any fun t => t < 0 || (o.nbund : Int) ≤ t

/-- Checks 10 to 12: the cause and the first offending bundle. -/
def codeFault (o : ObjImage) : Option (Nat × Nat) :=
  let all := List.range o.nbund
  let reach := o.kernels.map fun k => (k, kernelReach o k)
  match all.find? fun i => (bundleOps o.code i).isNone with
  | some i => some (0x07, i)
  | none => match all.find? (breaksResources o reach) with
    | some i => some (0x08, i)
    | none => match all.find? (strayTarget o) with
      | some i => some (0x09, i)
      | none =>
        if o.kernels.any fun k => o.nbund ≤ k.entry || o.nbund < k.hndl || (taskTable o.data k).any fun t => o.nbund ≤ t then some (0x09, 0)
        else none

/-! ### LOAD_CODE_OBJECT (R372, R373) -/

/-- The bytes of an object; none when they cannot be read. -/
def readObj (s : State) (fn at_ : Nat) : Option (List Byte) :=
  match mailRead s fn at_ 64 with
  | none => none
  | some h => if 2 ^ 56 < at_ + numAt h 16 8 then none else if numAt h 16 8 ≤ 64 then some h else mailRead s fn at_ (numAt h 16 8)

/-- Checks 3 to 12: the image, or the cause with a bundle index. -/
def checkObj (s : State) (b : List Byte) : Except (Nat × Nat) ObjImage :=
  match parseObj b with
  | none => .error (0x02, 0)
  | some o =>
    if !signerOk s o.slot o.sig then .error (0x03, 0)
    else if !sigEd o.sig o.signed || !sigMl o.sig o.signed then .error (0x04, 0)
    else if o.svn < (s.signer o.slot).minsvn then .error (0x05, 0)
    else if !latRecordOk o then .error (0x02, 0)
    else if !rewritesOk o then .error (0x06, 0)
    else match codeFault o with
      | some k => .error k
      | none => .ok o

/-- Code and data written at their bases; none when a destination cannot be written (check 13). -/
def placeObj (s : State) (fn : Nat) (o : ObjImage) (code data : Nat) : Option State :=
  match devWrite s (devAgent fn) fn code o.code with
  | .error _ => none
  | .ok (t, _) => if o.data.isEmpty then some t else match devWrite t (devAgent fn) fn data o.data with
    | .error _ => none
    | .ok (u, _) => some u

/-- A loaded object. -/
def codeObj (handle fn code data : Nat) (o : ObjImage) : CodeObj :=
  { handle := handle, fn := fn, codeBase := BitVec.ofNat 64 code, dataBase := BitVec.ofNat 64 data, nbund := o.nbund
    lat := Vector.ofFn fun i => (o.lat.getD i.val 1).toNat, kernels := o.kernels, unloading := false }

/-- A handle that no loaded object has, never 0 (R373): the free choice where it will do, else the lowest that does. -/
def newHandle (s : State) : Nat :=
  let ok (h : Nat) : Bool := h != 0 && !(s.objs.any fun o => o.handle = h)
  let h := (Config.freeHandle s.uid).toNat
  if ok h then h else ((List.range (s.objs.length + 2)).find? ok).getD 1

/-- LOAD_CODE_OBJECT: the checks in their order, the writes, the handle. -/
def execLoadCodeObject (fn : Nat) (s : State) : Host.Outcome State Fault Refusal :=
  match mailFor s fn 1 with
  | none => evNext s
  | some m =>
    match mailRead s fn m.arg 24 with
    | none => evNext (mailDone s fn 0x01 [])
    | some r =>
      let obj := numAt r 0 8
      let code := numAt r 8 8
      let data := numAt r 16 8
      if obj % 64 != 0 || code % 64 != 0 || data % 64 != 0 then evNext (mailDone s fn 0x02 [])
      else match readObj s fn obj with
        | none => evNext (mailDone s fn 0x01 [])
        | some b => (match checkObj s b with
          | .error k => evNext (mailDone s fn k.1 (zeros 3 ++ leBytes 4 k.2))
          | .ok o => (match placeObj s fn o code data with
            | none => evNext (mailDone s fn 0x0D [])
            | some t =>
              let h := newHandle t
              evNext (mailDone { t with uid := t.uid + 1, objs := t.objs ++ [codeObj h fn code data o] } fn 0 (zeros 7 ++ leBytes 8 h))))

end Sys2Proof.Machine
end

