-- ==== Sys2Proof/Machine/Nop.lean ====
section
/-!
DEFINITION. The bundle whose eight slots are all empty (02 R29): it issues and retires under its control word.
-/
namespace Sys2Proof.Machine

/-- NOP (R29): an empty bundle under control word `ctl`. -/
def execNop (ctl : BitVec 32) (s : State) : Host.Outcome State Fault Refusal :=
  issue [] { s with cur := { s.cur with ctl := ctl } }

end Sys2Proof.Machine
end

