-- ==== Sys2Proof/Machine/Registers.lean ====
section
/-!
DEFINITION. Writes by the host to the registers of BAR0 and BAR2 (00 R8, R9; 20 R475) and to memory (12 R328). A write of
four bytes acts on the fields it covers: `m` is the mask of the bits written.
-/
namespace Sys2Proof.Machine

/-- The bits of `m` that lie in `f` take the value of `v` (R8: RW). -/
def rw (old v m f : Word) : Word := (old &&& ~~~(m &&& f)) ||| (v &&& (m &&& f))
def lo32 (w : Word) : BitVec 32 := w.setWidth 32
def ext64 (w : BitVec 32) : Word := w.setWidth 64
/-- The 32-bit register in the low half of an 8-byte one takes a write. -/
def rw32 (old : BitVec 32) (v m : Word) (f : Word) : BitVec 32 := lo32 (rw (ext64 old) v m f)

/-- A write to the upper four bytes of an offset whose register has 32 bits, which is discarded (20 R475). -/
def upperOnly (m : Word) : Bool := m &&& 0xFFFFFFFF = 0

/-! ### Launch queues (16 R392) -/

/-- Whether the tail overruns the ring. -/
def LaunchQ.overrun (q : LaunchQ) : Bool := !q.isDev && q.depth < (q.tail - q.head).toNat

/-- The writes of the host by which function it made them: those before a tail pointer or doorbell are released by it
(12 R319). -/
def allHostWs (s : State) : List WRef := s.fns.flatMap fun f => f.2.hostWs

/-- A tail pointer releases its entries and every earlier host write; an overrun sets ERR. With DEV 1 the field is stored and
nothing comes of it. -/
def writeLqTail (s : State) (k : Nat) (v m : Word) : State :=
  let q := s.lq k
  let q1 := { q with tail := rw32 q.tail v m 0xFFFFFFFF, known := allHostWs s }
  let s1 := s.setLq k q1
  if upperOnly m then s else if q1.overrun then failQueue s1 k else s1

/-- LQCFG: ERR is cleared by 1; EN takes effect unless a device queue's word is not as it must be. -/
def writeLqCfg (s : State) (k : Nat) (v m : Word) : State :=
  let q := s.lq k
  let err := q.cfg.getLsbD 30 && !(v &&& m).getLsbD 30
  let c := rw32 q.cfg v m 0xA0001F0F &&& ~~~0x40000000
  let q1 := { q with cfg := if err then c ||| 0x40000000 else c }
  let s1 := s.setLq k q1
  if upperOnly m then s
  else if q1.en && ((q1.isDev && !devQueueOk s (k / 16) q1) || q1.overrun) then failQueue s1 k else s1

def writeLqBase (s : State) (k : Nat) (v m : Word) : State :=
  let q := s.lq k
  s.setLq k { q with base := rw q.base v m 0x00FFFFFFFFFFFFFF }

/-- LQTAIL_WRITE. -/
def execLqtailWrite (fn q : Nat) (v : Word) (s : State) : Host.Outcome State Fault Refusal :=
  if fnAnswers s fn && q < 16 then evNext (writeLqTail s (16 * fn + q) v (BitVec.allOnes 64)) else evNext s
/-- LQCFG_WRITE. -/
def execLqcfgWrite (fn q : Nat) (v : Word) (s : State) : Host.Outcome State Fault Refusal :=
  if fnAnswers s fn && q < 16 then evNext (writeLqCfg s (16 * fn + q) v (BitVec.allOnes 64)) else evNext s

/-! ### Translation state (18 R431, R433, R437, R442) -/

/-- Writable bits of word `w` of a range entry. -/
def rangeMask (w : Nat) : Word :=
  match w with
  | 0 => 0xFFFFFFFF0000008E
  | 1 => 0x0FFFFFFFFFFF0FFF
  | 2 => 0x003FFFFFFFFFFFFF
  | _ => BitVec.allOnes 64

/-- Word `w` of range entry `n`. -/
def writeRange (s : State) (fn n w : Nat) (v m : Word) : State :=
  let f := s.fn fn
  let e := (look n f.ranges).getD 0
  let old : Word := e.extractLsb' (64 * w) 64
  let new := rw old v m (rangeMask w)
  let e1 := e ^^^ ((old ^^^ new).setWidth 256 <<< (64 * w))
  markTr (s.setFn fn { f with ranges := if e1 = 0 then drp n f.ranges else put n e1 f.ranges }) fn

def writePtroot (s : State) (fn : Nat) (v m : Word) : State :=
  let f := s.fn fn
  markTr (s.setFn fn { f with ptroot := rw f.ptroot v m (BitVec.allOnes 64) }) fn

/-- TINV: bit 0 drops all of the function, else what covers a page. -/
def writeTinv (s : State) (fn : Nat) (v : Word) : State :=
  let page := bitsOf 12 44 v.toNat
  let gone (t : TlbEntry) : Bool := t.vf = fn && (v.getLsbD 0 || t.page = page / 2 ^ (9 * t.level))
  markTr { s with tlb := s.tlb.filter fun t => !gone t } fn

/-- TINV_WRITE. -/
def execTinvWrite (fn : Nat) (v : Word) (s : State) : Host.Outcome State Fault Refusal :=
  if fnAnswers s fn then evNext (writeTinv s fn v) else evNext s

/-- Whether an access that is to be performed with another one was translated before `t`. -/
def Along.oldBy (a : Along) (fn t : Nat) : Bool :=
  match a with
  | .glob g => g.vf = fn && decide (g.id < t)
  | .spad _ => false
/-- Whether a sync operation, or an access that goes with it, was translated before `t`. -/
def SOp.oldBy (o : SOp) (fn t : Nat) : Bool := o.vf = fn && decide (o.id < t) || o.along.any fun a => a.oldBy fn t
/-- Whether a copy's barrier, of a command in the window or of a row on its way, was translated before `t`. -/
def Window.oldBar (w : Window) (t : Nat) : Bool :=
  w.cmds.any (fun x => x.2.bar.isSome && decide (x.2.id < t) && decide (1 ≤ x.2.state) && decide (x.2.state ≤ 3))
    || w.q.toList.any fun b => b.rowsIn.any fun r => r.2.bar.isSome && decide (r.2.cmd < t)
/-- Whether an access of the function translated before its last change has still to be performed (R437, R443): on its way, registered
at its home, held back for a group's barrier, in a task's buffer, or a copy's post to come. -/
def oldAccess (s : State) (fn : Nat) : Bool :=
  let t := (s.fn fn).tmark
  s.gops.any (fun g => g.vf = fn && decide (g.id < t)) || (s.sops ++ s.syncRegs).any (fun o => o.oldBy fn t)
    || s.posts.any (fun p => (s.ctx p.cid).bind.vf = fn && decide (p.id < t))
    || s.groups.any (fun g => g.along.any fun a => a.2.oldBy fn t)
    || s.doms.any (fun d => d.vf = fn && d.tasks.any fun u => !u.buf.isEmpty && decide (u.bufAt < t))
    || s.allCtx.any fun c => c.bind.vf = fn && c.win.oldBar t

/-- A number that is not 0. -/
def nonzero (w : Word) : Word := if w = 0 then 1 else w

/-- TSYNC_READ: 0 once no such access is left. -/
def execTsyncRead (fn : Nat) (s : State) : Host.Outcome State Fault Refusal :=
  if fnAnswers s fn then
    let v : Word := if oldAccess s fn then nonzero (Config.freeWord s.fresh) else 0
    evNext { s.setFn fn { s.fn fn with tsync := v } with fresh := s.fresh + 1 }
  else evNext s

/-- KEYOWNk: OWN alone is writable. -/
def writeKeyOwn (s : State) (k : Nat) (v : BitVec 32) : State :=
  let x := s.keySlot k
  markTr (markTr { s with keys := put k { x with own := bitsOf 0 8 v.toNat } s.keys } x.own) (bitsOf 0 8 v.toNat)

/-! ### Partition and window (20 R476) -/

/-- Tiles that other functions hold. -/
def heldElsewhere (s : State) (fn : Nat) : BitVec 128 :=
  s.fns.foldl (fun m f => if f.1 = fn then m else m ||| f.2.part) (if fn = 0 || s.fns.any (fun f => f.1 = 0) then 0 else (Fn.reset 0).part)

/-- Word `w` of PARTf: a tile another function holds is not given. -/
def writeFnPart (s : State) (fn w : Nat) (v m : Word) : State :=
  let f := s.fn fn
  let old : Word := f.part.extractLsb' (64 * w) 64
  let other : Word := (heldElsewhere s fn).extractLsb' (64 * w) 64
  let new := rw old v m (BitVec.allOnes 64) &&& ~~~(other &&& ~~~old)
  s.setFn fn { f with part := f.part ^^^ ((old ^^^ new).setWidth 128 <<< (64 * w)) }

def writePwin (s : State) (fn : Nat) (v m : Word) : State :=
  let f := s.fn fn
  markTr (s.setFn fn { f with pwin := rw f.pwin v m 0x1C003FFFF }) fn

/-- PART_WRITE. -/
def execPartWrite (fn w : Nat) (v : Word) (s : State) : Host.Outcome State Fault Refusal :=
  if fnAnswers s 0 && fn ≤ 64 && w < 2 then evNext (writeFnPart s fn w v (BitVec.allOnes 64)) else evNext s
/-- PWIN_WRITE. -/
def execPwinWrite (fn : Nat) (v : Word) (s : State) : Host.Outcome State Fault Refusal :=
  if fnAnswers s 0 && fn ≤ 64 then evNext (writePwin s fn v (BitVec.allOnes 64)) else evNext s

/-! ### INJ, DEVID, RLOGHEAD (19 R451, R455; 20 R484; 18 R445) -/

/-- INJ: EN with N 0 is ignored; the count starts anew. A management access wakes the tile (R461). -/
def writeInj (s : State) (t : Nat) (v m : Word) : State :=
  let x := (s.tile t).svc
  let n := rw32 x.inj v m 0x80FFFFFF
  let s1 := wakeTile s t
  if (n.getLsbD 31 && n &&& 0xFFFFFF = 0) || upperOnly m then s1 else s1.updSvc t fun y => { y with inj := n, injSeen := 0 }
/-- INJ_WRITE. -/
def execInjWrite (t : Nat) (v : Word) (s : State) : Host.Outcome State Fault Refusal :=
  if fnAnswers s 0 && tileIdOk t then evNext (writeInj s t v (BitVec.allOnes 64)) else evNext s

/-- DEVID is written once. -/
def writeDevid (s : State) (v m : Word) : State :=
  if s.dev.devidSet || upperOnly m then s
  else { s with dev := { s.dev with devid := bitsOf 0 9 (v &&& m).toNat, dtag := bitsOf 16 16 (v &&& m).toNat, devidSet := true } }
/-- DEVID_WRITE. -/
def execDevidWrite (v : Word) (s : State) : Host.Outcome State Fault Refusal :=
  if fnAnswers s 0 then evNext (writeDevid s v (BitVec.allOnes 64)) else evNext s

def writeRlogHead (s : State) (v m : Word) : State :=
  if upperOnly m then s else postRlog 4097 { s with dev := { s.dev with rlogHead := rw32 s.dev.rlogHead v m 0xFFFFFFFF } }
/-- RLOGHEAD_WRITE: waiting records are posted into the space freed. -/
def execRlogheadWrite (v : Word) (s : State) : Host.Outcome State Fault Refusal :=
  if fnAnswers s 0 then evNext (writeRlogHead s v (BitVec.allOnes 64)) else evNext s

/-! ### Other registers of BAR0 (20 R475, R477, R478; 15 R518; 19 R460) -/

/-- A pending message goes out once its vector is unmasked (log 16). -/
def unmasked (s : State) (fn n : Nat) : State :=
  let f := s.fn fn
  if f.pba.getLsbD n && !(f.msix.toList.getD n 0).getLsbD 96 then
    raiseMsi (s.setFn fn { f with pba := f.pba &&& ~~~(1#32 <<< n) }) fn n
  else s
/-- Half `w` of MSI-X vector `n`. -/
def writeMsix (s : State) (fn n w : Nat) (v m : Word) : State :=
  let f := s.fn fn
  let e := f.msix.toList.getD n 0
  let old : Word := e.extractLsb' (64 * w) 64
  let new := rw old v m (if w = 0 then BitVec.allOnes 64 else 0x1FFFFFFFF)
  unmasked (s.setFn fn { f with msix := f.msix.setIfInBounds n (e ^^^ ((old ^^^ new).setWidth 128 <<< (64 * w))) }) fn n

/-- The 8-byte register of BAR0 at offset `o` takes the bits of `v` under `m`; FSTAT, LQHEAD, TSYNC, the pending bits and
offsets without a register ignore it. -/
def writeBar0 (s : State) (fn o : Nat) (v m : Word) : State :=
  let f := s.fn fn
  if o = 0x0008 then (if (v &&& m).getLsbD 63 then s.setFn fn { f with recfail := 0 } else s)
  else if o = 0x0100 then s.setFn fn { f with mail := { f.mail with addr := rw f.mail.addr v m (BitVec.allOnes 64) } }
  else if o = 0x0110 then s.setFn fn { f with mail := { f.mail with drop := f.mail.drop && !(v &&& m).getLsbD 1 } }
  else if 0x1000 ≤ o && o < 0x1200 then
    let k := 16 * fn + (o - 0x1000) / 32
    if o % 32 = 0 then writeLqBase s k v m else if o % 32 = 8 then writeLqCfg s k v m else if o % 32 = 16 then writeLqTail s k v m else s
  else if 0x4000 ≤ o && o < 0x6000 then writeRange s fn ((o - 0x4000) / 32) (o % 32 / 8) v m
  else if o = 0x6000 then writePtroot s fn v m
  else if o = 0x6008 then writeTinv s fn (v &&& m)
  else if o = 0x6100 then s.setFn fn { f with ltol := rw32 f.ltol v m 0xFFFFFFFF }
  else if 0xE000 ≤ o && o < 0xE200 then writeMsix s fn ((o - 0xE000) / 16) (o % 16 / 8) v m
  else s

/-! ### Other registers of BAR2 (20 R475; 14 R364; 19 R465, R467; 18 R443, R445; 20 R480) -/

/-- AUDITCFG: a K above 20 leaves K unchanged (R467). -/
def auditCfg (old : BitVec 32) (v m : Word) : BitVec 32 :=
  let n := rw32 old v m 0x80FF1F0F
  if 20 < bitsOf 8 5 n.toNat then (n &&& ~~~0x1F00) ||| (old &&& 0x1F00) else n

/-- RLOGCFG (R445): as LQCFG, with DEV and LEVEL reserved. -/
def rlogCfg (old : BitVec 32) (v m : Word) : BitVec 32 :=
  let c := rw32 old v m 0x80001F00 &&& ~~~0x40000000
  if old.getLsbD 30 && !(v &&& m).getLsbD 30 then c ||| 0x40000000 else c

/-- The 8-byte word of BAR2 at offset `o`; read-only registers and offsets without a register ignore it. -/
def writeBar2 (s : State) (o : Nat) (v m : Word) : State :=
  let d := s.dev
  if o = 0x7000 then { s with dev := { d with rlogBase := rw d.rlogBase v m 0x00FFFFFFFFFFFFFF } }
  else if o = 0x7008 then
    (if upperOnly m then s else postRlog 4097 { s with dev := { d with rlogCfg := rlogCfg d.rlogCfg v m } })
  else if o = 0x7018 then writeRlogHead s v m
  else if o = 0x7020 then { s with dev := { d with qthresh := (rw (BitVec.ofNat 64 d.qthresh) v m 0xFFFF).toNat } }
  else if 0x10000 ≤ o && o < 0x18000 then
    let k := (o - 0x10000) / 4
    let s1 := if m.getLsbD 0 then writeKeyOwn s k (lo32 v) else s
    if m.getLsbD 32 then writeKeyOwn s1 (k + 1) (lo32 (v >>> 32)) else s1
  else if 0x18000 ≤ o && o < 0x18000 + 16 * 65 then (if o % 16 = 0 then writePwin s ((o - 0x18000) / 16) v m else s)
  else if 0x19000 ≤ o && o < 0x19000 + 16 * 65 then writeFnPart s ((o - 0x19000) / 16) (o % 16 / 8) v m
  else if 0x1D000 ≤ o && o < 0x1D040 then
    let n := (o - 0x1D000) / 8
    { s with dev := { d with dspwait := d.dspwait.setIfInBounds n (rw (BitVec.ofNat 64 (d.dspwait.toList.getD n 0)) v m 0xFFFFFFFF).toNat } }
  else if o = 0x1E000 then { s with dev := { d with rbfloor := (rw (BitVec.ofNat 64 d.rbfloor) v m 0xFFFF).toNat } }
  else if o = 0x1F000 then { s with dev := { d with auditcfg := auditCfg d.auditcfg v m } }
  else if o = 0x1F008 then { s with dev := { d with auditlog := rw d.auditlog v m 0x000FFFFFFFFF0000 } }
  else if o = 0x1F100 then writeDevid s v m
  else if 0x20000 ≤ o && o < 0x24000 && tileIdOk ((o - 0x20000) / 128) then
    (if o % 128 = 0x18 then writeInj s ((o - 0x20000) / 128) v m else wakeTile s ((o - 0x20000) / 128))
  else s

/-- REGISTER_WRITE: 4 or 8 bytes, naturally aligned; BAR2 belongs to the PF. -/
def execRegisterWrite (r : RegAccess) (s : State) : Host.Outcome State Fault Refusal :=
  if !(r.size = 4 || r.size = 8) || r.off % r.size != 0 || 64 < r.fn then evNext s
  else
    let o := r.off / 8 * 8
    let high : Bool := r.off % 8 = 4
    let v : Word := if high then r.val <<< 32 else r.val
    let m : Word := if r.size = 8 then BitVec.allOnes 64 else if high then 0xFFFFFFFF00000000 else 0xFFFFFFFF
    let mail : Bool := !r.bar2 && (o = 0x100 || o = 0x110)
    if !r.bar2 && o = 0x108 then execMbdoorWrite r.fn (v &&& m) s
    else if !(fnAnswers s r.fn || (mail && !(s.fn r.fn).flr)) then evNext s
    else if !r.bar2 then evNext (writeBar0 s r.fn o v m)
    else if r.fn = 0 then evNext (writeBar2 s o v m) else evNext s

/-- A read of the registers (`RegRead.lean` says what it returns) changes nothing but that a management access wakes its tile
(19 R461). -/
def regReadBy (r : RegAccess) (s : State) : State :=
  if (r.size = 4 || r.size = 8) && r.off % r.size = 0 && r.bar2 && r.fn = 0 && fnAnswers s 0 && 0x20000 ≤ r.off && r.off < 0x24000
      && tileIdOk ((r.off - 0x20000) / 128) then wakeTile s ((r.off - 0x20000) / 128) else s

/-! ### HOST_MEMORY_WRITE (12 R328) -/

/-- The agent number of a function's host (R328). -/
def hostAgent (fn : Nat) : Nat := 2 ^ 69 + fn

/-- HOST_MEMORY_WRITE: bytes by a function's host at an address of its translation, in 16-byte pieces; the next tail pointer
releases it. A write that does not translate is dropped. -/
def execHostMemoryWrite (fn va : Nat) (bytes : List Byte) (s : State) : Host.Outcome State Fault Refusal :=
  match hostWrite s (hostAgent fn) fn va bytes with
  | .ok (t, w) => evNext (t.setFn fn { t.fn fn with hostWs := w :: (t.fn fn).hostWs })
  | .error _ => evNext s

end Sys2Proof.Machine
end

