-- ==== Sys2Proof/Machine/Resets.lean ====
section
/-!
DEFINITION. Device reset with its boot (20 R483, 01 R17, R18, 18 R446, 19 R449, R450, R459) and function-level reset
(20 R481).
-/
namespace Sys2Proof.Machine

/-! ### DEVICE_RESET -/

/-- The spare site of a die, when it has one that is healthy. -/
def spareOf (s : State) (die : Nat) : Option Nat := (List.range 13).find? fun i => (s.tile (16 * die + i)).svc.st = .spare
/-- The fenced site of a die that its spare replaces: the lowest. -/
def fencedOf (s : State) (die : Nat) : Option Nat :=
  (List.range 13).find? fun i => (s.tile (16 * die + i)).svc.st = .fenced || (s.tile (16 * die + i)).svc.st = .draining

/-- State of a site after reset (R18, R449): a fenced site is disabled, and the spare comes into service for the first. -/
def stateAfter (s : State) (t : Nat) : TileSt :=
  match (s.tile t).svc.st with
  | .enabled => .enabled
  | .disabled => .disabled
  | .spare => if (fencedOf s (t / 16)).isSome then .enabled else .spare
  | _ => .disabled

/-- Learned set points with the hints that waited (R459). -/
def hinted (v : Svc) : Vector Nat 5 := v.hints.foldl (fun m h => m.setIfInBounds h.1 h.2) v.mv

/-- Whether the margin table shows that bin 1 cannot be held: its learned set point lies beyond the ceiling, or the newest record of the
bin is a fence (R450, R457). -/
def Svc.noBin1 (v : Svc) : Bool :=
  decide (binCeil.toList.getD 1 0 < v.mv.toList.getD 1 0) || ((v.recs.filter fun r => r.bin = 1).getLast?.any fun r => r.evt = 2)

/-- The state in which a site comes up after a boot that has verified the firmware: in service it is fenced where bin 1 cannot be held
(R450). -/
def bootTile (s : State) (t : Nat) : TileSt :=
  match stateAfter s t with
  | .enabled => if { (s.tile t).svc with mv := hinted (s.tile t).svc }.noBin1 then .fenced else .enabled
  | x => x

/-- What a tile keeps in NVM over a reset: set points, limit, wear, suspicion, records; everything else starts anew. -/
def Tile.boot (s : State) (st : TileSt) (t : Nat) : Tile :=
  let v := (s.tile t).svc
  let x := Tile.reset t
  { x with svc := { x.svc with
      st := st, limit := v.limit, mv := hinted v, wear := v.wear, susp := v.susp, recs := v.recs, seq := v.seq
      temp := v.temp, age := v.age } }

/-- Tile die map of a die (R17). -/
def dieMap (f : Nat → TileSt) (die : Nat) : BitVec 32 :=
  let bits (p : TileSt → Bool) : Nat := ((List.range 13).map fun i => if p (f (16 * die + i)) then 2 ^ i else 0).sum
  let spare := ((List.range 13).find? fun i => f (16 * die + i) = .spare).getD 15
  BitVec.ofNat 32 (spare * 2 ^ 28 + bits (fun x => x = .disabled) * 2 ^ 13 + bits fun x => x = .enabled)

/-- The enabled tiles of a set of states, as a mask. -/
def enabledOf (f : Nat → TileSt) : BitVec 128 := BitVec.ofNat 128 (((List.range 128).map fun t => if tileIdOk t && f t = .enabled then 2 ^ t else 0).sum)

/-- Entries of the repair list left after the repairs that succeeded; they stay quarantined and are posted with UNREP. -/
def leftRepairs (s : State) (done : List Nat) : List RlogRec :=
  (s.dev.repairs.zipIdx.filter fun x => !done.contains x.2).map Prod.fst

/-- Every volatile register at its reset value, what NVM keeps, and the memory that is not the device's: host memory and remote windows.
The sectors of `left` stay quarantined. -/
def coldState (s : State) (st : Nat → TileSt) (left : List RlogRec) : State :=
  { State.reset with
    tiles := (s.tiles.map fun t => Tile.boot s (st t.tid) t.tid) ++
      ((List.range 8).filterMap fun d => match spareOf s d with
        | some i => if s.tiles.any (fun t => t.tid = 16 * d + i) then none else some (Tile.boot s (st (16 * d + i)) (16 * d + i))
        | none => none)
    mem := s.mem.filter fun c => 2 ^ 48 ≤ c.1
    poison := s.poison.filter fun x => 2 ^ 43 ≤ x || left.any fun r => r.pa / 32 ≤ x && x ≤ (r.pa + r.len - 1) / 32
    dev := { Dev.reset with
      quar := left, repairs := left, signers := s.dev.signers, serial := s.dev.serial, counter := s.dev.counter
      fwDigest := s.dev.fwDigest, fwSvn := s.dev.fwSvn }
    turns := s.turns, uid := s.uid, fresh := s.fresh }

/-- DEVICE_RESET: spares are brought into service, repairs applied and tiles fenced; a failed verification ends the boot before all that
and leaves only FSTAT and the mailbox (R483). -/
def bootState (s : State) (b : BootReport) : State :=
  match b.fail with
  | none =>
    let left := (leftRepairs s b.repaired).map fun r => { r with flags := r.flags ||| 2 }
    let t := coldState s (bootTile s) left
    { t with
      fns := [(0, { Fn.reset 0 with part := enabledOf (bootTile s) })]
      dev := { t.dev with tdmap := Vector.ofFn fun i => dieMap (bootTile s) i.val, rlogWait := left } }
  | some k =>
    let t := coldState s (fun x => (s.tile x).svc.st) s.dev.repairs
    { t with
      fns := (List.range 65).map fun f => (f, { Fn.reset f with ready := false, mail := ⟨0, none, false, k.cause⟩ })
      dev := { t.dev with boot := some k.cause } }

def execDeviceReset (b : BootReport) (s : State) : Host.Outcome State Fault Refusal := .next (bootState s b)

/-! ### FUNCTION_LEVEL_RESET (R481) -/

/-- The contexts of a function: members of its groups and contexts of its domains. -/
def fnCtxs (s : State) (f : Nat) : List Nat :=
  (s.groups.filter fun g => match s.launch g.launch with
    | some l => l.fn = f
    | none => false).flatMap Group.members ++ (s.doms.filter fun d => d.vf = f).flatMap Dom.ctxs

/-- Steps 1 and 2: tickets, nodes, launches, groups, domains and audits go without a record, contexts are free and scrubbed. -/
def dropWork (s : State) (f : Nat) : State :=
  let mine (l : Nat) : Bool := match s.launch l with
    | some x => x.fn = f
    | none => false
  let dead := fnCtxs s f
  let gs := (s.groups.filter fun g => mine g.launch).map Group.id
  let ds := (s.doms.filter fun d => d.vf = f).map Dom.id
  let tk := s.tickets.filter fun k => match k.dom with
    | some d => ds.contains d
    | none => mine k.launch
  let s1 := tk.foldl dropReservation s
  let s2 := dead.foldl (fun st c => withdraw (endLease (endArray st c) c) c) s1
  let ours (c : Option Nat) : Bool := match c with
    | some o => gs.contains o || ds.any fun d => o = domClaim d
    | none => false
  let free (b : BankSt) : BankSt :=
    { b with owner := if ours b.owner then none else b.owner, claim := if ours b.claim then none else b.claim }
  { s2 with
    cur := if dead.contains s2.cur.cid then Ctx.fresh s2.cur.cid else s2.cur
    others := s2.others.filter fun c => !dead.contains c.cid
    tickets := s2.tickets.filter fun k => !(tk.any fun x => x.id = k.id)
    tiles := s2.tiles.map fun t => { t with banks := t.banks.map free, berths := t.berths.filter fun b => !dead.contains b.1 }
    groups := s2.groups.filter fun g => !gs.contains g.id
    pipes := s2.pipes.filter fun p => !(gs.contains p.pushG || gs.contains p.popG)
    launches := s2.launches.filter fun l => l.fn != f
    dev := { s2.dev with early := s2.dev.early.filter fun e => e.1 / 2 ^ 56 != f }
    doms := s2.doms.filter fun d => d.vf != f
    audits := s2.audits.filter fun a => !mine a.launch
    parked := s2.parked.filter fun o => o.vf != f }

/-- Step 3: what is still on its way for the function is discarded; what was performed before the reset has been performed, and
nothing a read may still return lies before it. -/
def drainFn (s : State) (f : Nat) (dead : List Nat) : State :=
  { s with
    gops := s.gops.filter fun g => g.vf != f
    sops := s.sops.filter fun o => o.vf != f
    syncRegs := s.syncRegs.filter fun o => o.vf != f
    posts := s.posts.filter fun p => !dead.contains p.cid
    answers := s.answers.filter fun a => !dead.contains a.cid
    walks := startFree ((s.walks.filter fun w => w.vf != f && w.started).map Walk.die) (s.walks.filter fun w => w.vf != f)
    walkFaults := s.walkFaults.filter fun w => w.vf != f
    tlb := s.tlb.filter fun t => t.vf != f
    hist := s.hist.map fun w => if w.vf = f then { w with before := none } else w }

/-- Step 4: the banks of the function's tiles that no other function's work owns are zeroed, and its keys revoked. -/
def scrubFn (s : State) (f : Nat) : State :=
  let part := (s.fn f).part
  let mine (t b : Nat) : Bool :=
    let x := (s.tile t).banks.toList.getD b ⟨none, none, none⟩
    x.owner.isNone && (part.getLsbD t || x.lastFn = some f)
  { s with
    spad := s.spad.filter fun c => !mine (c.1 / 2 ^ 23) (c.1 % 2 ^ 23 / 2 ^ 18)
    keys := s.keys.map fun k => if k.2.own = f then (k.1, k.2.revoke) else k }

/-- Step 5: BAR0 at reset; PWIN and PART are registers of the PF. -/
def resetBar0 (s : State) (f : Nat) : State :=
  let x := s.fn f
  { s.setFn f { Fn.reset f with pwin := x.pwin, part := x.part, tmark := s.uid } with
    uid := s.uid + 1
    lqs := s.lqs.filter fun q => q.1 / 16 != f }

/-- The five steps for one function. -/
def resetFn (s : State) (f : Nat) : State := sweepObjs (resetBar0 (scrubFn (drainFn (dropWork s f) f (fnCtxs s f)) f) f)

/-- FUNCTION_LEVEL_RESET: of a VF, or, of the PF, of every function. -/
def execFunctionLevelReset (fn : Nat) (s : State) : Host.Outcome State Fault Refusal :=
  if 64 < fn then evNext s
  else if fn = 0 then evNext ((List.range 65).foldl resetFn s) else evNext (resetFn s fn)

end Sys2Proof.Machine
end

