-- ==== Sys2Proof/Machine/SlotOp.lean ====
section
/-!
DEFINITION. What each operation does in its slot, for bundles of several operations (02 R39) and for the entries RETT
re-injects (13 R340). RETT itself is never re-injected.
-/
namespace Sys2Proof.Machine

/-- The operation of an instruction; what is no operation of a slot does nothing. -/
def slotRun : Instr → State → Op State
  | .add _ f, s => opAdd f s
  | .sub _ f, s => opSub f s
  | .mul _ f, s => opMul f s
  | .mulh _ f, s => opMulh f s
  | .mulhn _ f, s => opMulhn f s
  | .div _ f, s => opDiv f s
  | .divn _ f, s => opDivn f s
  | .rem _ f, s => opRem f s
  | .remn _ f, s => opRemn f s
  | .and _ f, s => opAnd f s
  | .or _ f, s => opOr f s
  | .xor _ f, s => opXor f s
  | .andn _ f, s => opAndn f s
  | .shl _ f, s => opShl f s
  | .shr _ f, s => opShr f s
  | .sar _ f, s => opSar f s
  | .rot _ f, s => opRot f s
  | .clz _ f, s => opClz f s
  | .ctz _ f, s => opCtz f s
  | .popc _ f, s => opPopc f s
  | .min _ f, s => opMin f s
  | .max _ f, s => opMax f s
  | .minn _ f, s => opMinn f s
  | .maxn _ f, s => opMaxn f s
  | .sel _ f, s => opSel f s
  | .lea _ f, s => opLea f s
  | .cmp _ f, s => opCmp f s
  | .addi _ f, s => opAddi f s
  | .andi _ f, s => opAndi f s
  | .ori _ f, s => opOri f s
  | .xori _ f, s => opXori f s
  | .movi _ f, s => opMovi f s
  | .movhi _ f, s => opMovhi f s
  | .pand _ f, s => opPand f s
  | .por _ f, s => opPor f s
  | .pxor _ f, s => opPxor f s
  | .pnot _ f, s => opPnot f s
  | .sfadd _ f, s => opSfadd f s
  | .sfsub _ f, s => opSfsub f s
  | .sfmul _ f, s => opSfmul f s
  | .sffma _ f, s => opSffma f s
  | .sfdiv _ f, s => opSfdiv f s
  | .sfsqrt _ f, s => opSfsqrt f s
  | .sfcmp _ f, s => opSfcmp f s
  | .sfcvtI32 _ f, s => opSfcvtI32 f s
  | .sfcvtF32 _ f, s => opSfcvtF32 f s
  | .sigget _ f, s => opSigget f s
  | .sigset _ f, s => opSigset f s
  | .br _ f, s => opBr f s
  | .brp _ f, s => opBrp f s
  | .brsig _ f, s => opBrsig f s
  | .loop _ f, s => opLoop f s
  | .call _ f, s => opCall f s
  | .bri _ f, s => opBri f s
  | .ret _ f, s => opRet f s
  | .cread _ f, s => opCread f s
  | .cwrite _ f, s => opCwrite f s
  | .vadd _ inB f, s => opVadd inB f s
  | .vsub _ inB f, s => opVsub inB f s
  | .vmul _ inB f, s => opVmul inB f s
  | .vmulh _ inB f, s => opVmulh inB f s
  | .vmad _ inB f, s => opVmad inB f s
  | .vand _ inB f, s => opVand inB f s
  | .vor _ inB f, s => opVor inB f s
  | .vxor _ inB f, s => opVxor inB f s
  | .vnot _ inB f, s => opVnot inB f s
  | .vshl _ inB f, s => opVshl inB f s
  | .vshr _ inB f, s => opVshr inB f s
  | .vsar _ inB f, s => opVsar inB f s
  | .vmin _ inB f, s => opVmin inB f s
  | .vmax _ inB f, s => opVmax inB f s
  | .vabsdiff _ inB f, s => opVabsdiff inB f s
  | .vcmp _ inB f, s => opVcmp inB f s
  | .vsel _ inB f, s => opVsel inB f s
  | .vpopc _ inB f, s => opVpopc inB f s
  | .vfadd _ inB f, s => opVfadd inB f s
  | .vfsub _ inB f, s => opVfsub inB f s
  | .vfmul _ inB f, s => opVfmul inB f s
  | .vffma _ inB f, s => opVffma inB f s
  | .vfmin _ inB f, s => opVfmin inB f s
  | .vfmax _ inB f, s => opVfmax inB f s
  | .vfabs _ inB f, s => opVfabs inB f s
  | .vfneg _ inB f, s => opVfneg inB f s
  | .vfcmp _ inB f, s => opVfcmp inB f s
  | .vrcp _ inB f, s => opVrcp inB f s
  | .vrsqrt _ inB f, s => opVrsqrt inB f s
  | .vexp2 _ inB f, s => opVexp2 inB f s
  | .vlog2 _ inB f, s => opVlog2 inB f s
  | .vsigm _ inB f, s => opVsigm inB f s
  | .vcvt _ inB f, s => opVcvt inB f s
  | .vcbdec _ inB f, s => opVcbdec inB f s
  | .vcbenc _ inB f, s => opVcbenc inB f s
  | .vplane _ inB f, s => opVplane inB f s
  | .vunplane _ inB f, s => opVunplane inB f s
  | .vpadd _ inB f, s => opVpadd inB f s
  | .vpsub _ inB f, s => opVpsub inB f s
  | .vpand _ inB f, s => opVpand inB f s
  | .vpcnt _ inB f, s => opVpcnt inB f s
  | .vrsum _ inB f, s => opVrsum inB f s
  | .vrmax _ inB f, s => opVrmax inB f s
  | .vrmin _ inB f, s => opVrmin inB f s
  | .vrsigmin _ inB f, s => opVrsigmin inB f s
  | .vbcast _ inB f, s => opVbcast inB f s
  | .vext _ inB f, s => opVext inB f s
  | .vins _ inB f, s => opVins inB f s
  | .vperm _ inB f, s => opVperm inB f s
  | .vshiftl _ inB f, s => opVshiftl inB f s
  | .viota _ inB f, s => opViota inB f s
  | .vmov _ inB f, s => opVmov inB f s
  | .vfill _ inB f, s => opVfill inB f s
  | .vsig _ inB f, s => opVsig inB f s
  | .vsigset _ inB f, s => opVsigset inB f s
  | .vfmt _ inB f, s => opVfmt inB f s
  | .kand _ inB f, s => opKand inB f s
  | .kor _ inB f, s => opKor inB f s
  | .knot _ inB f, s => opKnot inB f s
  | .kpopc _ inB f, s => opKpopc inB f s
  | .lease _ f, s => opLease f s
  | .leaseTry _ f, s => opLeaseTry f s
  | .unlease _ f, s => opUnlease f s
  | .chainBegin _ f, s => opChainBegin f s
  | .chainEnd _ f, s => opChainEnd f s
  | .mmaBf16 _ f, s => opMmaBf16 f s
  | .mmaCb4 _ f, s => opMmaCb4 f s
  | .mmaPlane _ f, s => opMmaPlane f s
  | .mgath _ f, s => opMgath f s
  | .mldb _ f, s => opMldb f s
  | .cbload _ f, s => opCbload f s
  | .accZero _ f, s => opAccZero f s
  | .accRd _ f, s => opAccRd f s
  | .accWr _ f, s => opAccWr f s
  | .ldsRow _ f, s => opLdsRow f s
  | .ldsW32 _ f, s => opLdsW32 f s
  | .ldsW64 _ f, s => opLdsW64 f s
  | .ldgRow _ f, s => opLdgRow f s
  | .ldgW32 _ f, s => opLdgW32 f s
  | .ldgW64 _ f, s => opLdgW64 f s
  | .ldgTag _ f, s => opLdgTag f s
  | .pfg _ f, s => opPfg f s
  | .ldqDrop _ f, s => opLdqDrop f s
  | .stsRow _ f, s => opStsRow f s
  | .stsW32 _ f, s => opStsW32 f s
  | .stsW64 _ f, s => opStsW64 f s
  | .stgRow _ f, s => opStgRow f s
  | .stgW32 _ f, s => opStgW32 f s
  | .stgW64 _ f, s => opStgW64 f s
  | .stgTag _ f, s => opStgTag f s
  | .atomAdd _ f, s => opAtomAdd f s
  | .atomMin _ f, s => opAtomMin f s
  | .atomMax _ f, s => opAtomMax f s
  | .atomAnd _ f, s => opAtomAnd f s
  | .atomOr _ f, s => opAtomOr f s
  | .atomXor _ f, s => opAtomXor f s
  | .atomXchg _ f, s => opAtomXchg f s
  | .atomCas _ f, s => opAtomCas f s
  | .atomFadd _ f, s => opAtomFadd f s
  | .satom _ f, s => opSatom f s
  | .cpyTen _ f, s => opCpyTen f s
  | .cpyRow _ f, s => opCpyRow f s
  | .cpyGath _ f, s => opCpyGath f s
  | .cpyScat _ f, s => opCpyScat f s
  | .cpySpad _ f, s => opCpySpad f s
  | .cpyBind _ f, s => opCpyBind f s
  | .cpyBindOff _ f, s => opCpyBindOff f s
  | .cpyRed _ f, s => opCpyRed f s
  | .cpyFill _ f, s => opCpyFill f s
  | .cpyPoll _ f, s => opCpyPoll f s
  | .cpyPollWin _ f, s => opCpyPollWin f s
  | .cpyCancel _ f, s => opCpyCancel f s
  | .cpyCancelAll _ f, s => opCpyCancelAll f s
  | .tmap _ f, s => opTmap f s
  | .berthSet _ f, s => opBerthSet f s
  | .semInit _ f, s => opSemInit f s
  | .semPost _ f, s => opSemPost f s
  | .semWait _ f, s => opSemWait f s
  | .semTry _ f, s => opSemTry f s
  | .barInit _ f, s => opBarInit f s
  | .barArrive _ f, s => opBarArrive f s
  | .barExpect _ f, s => opBarExpect f s
  | .barWait _ f, s => opBarWait f s
  | .barTest _ f, s => opBarTest f s
  | .gbar _ f, s => opGbar f s
  | .moor _ f, s => opMoor f s
  | .unmoor _ f, s => opUnmoor f s
  | .acq _ f, s => opAcq f s
  | .rel _ f, s => opRel f s
  | .fence _ f, s => opFence f s
  | .tkwait _ f, s => opTkwait f s
  | .tkclr _ f, s => opTkclr f s
  | .pipePush _ f, s => opPipePush f s
  | .pipePop _ f, s => opPipePop f s
  | .pipePopTry _ f, s => opPipePopTry f s
  | .qPush _ f, s => opQPush f s
  | .qPop _ f, s => opQPop f s
  | .qPopTry _ f, s => opQPopTry f s
  | .qTry _ f, s => opQTry f s
  | .qPeek _ f, s => opQPeek f s
  | .qInfo _ f, s => opQInfo f s
  | .spawn _ f, s => opSpawn f s
  | .taskEnd _ f, s => opTaskEnd f s
  | .taskAbandon _ f, s => opTaskAbandon f s
  | .tsGet _ f, s => opTsGet f s
  | .bankRel _ f, s => opBankRel f s
  | .hintSucc _ f, s => opHintSucc f s
  | .waitvis _ f, s => opWaitvis f s
  | .complete _ f, s => opComplete f s
  | .phase _ f, s => opPhase f s
  | .trap _ f, s => opTrap f s
  | .yield _ f, s => opYield f s
  | .sleep _ f, s => opSleep f s
  | .endCtx _ f, s => opEndCtx f s
  | _, s => .ok s

end Sys2Proof.Machine
end

