-- ==== Sys2Proof/Machine/Rett.lean ====
section
/-!
DEFINITION. RETT (13 R340, R343): the frame read back, and the re-injection of its replay entries.
-/
namespace Sys2Proof.Machine

/-- How many bytes of the frame RETT reads: entries at and beyond NENT are dropped unread (R340). -/
def frameUsed (head : List Byte) : Nat := 4672 + 1344 * min 24 (byteAt head 2).toNat

/-- The frame as RETT finds it; none when it is malformed. -/
def readFrame (s : State) : Except VErr (Option Frame) :=
  let c := s.cur
  let base := (tfBase c).toNat
  match readVA s c.cid c.bind.vf base 64 with
  | .error e => .error e
  | .ok (h, _) =>
    match readVA s c.cid c.bind.vf base (frameUsed h) with
    | .error e => .error e
    | .ok (b, _) => .ok (frameOf b)

/-- A stopped copy starts again (09 R231, R235). -/
def restartCmd (x : CopyCmd) : CopyCmd := if x.state = 3 then { x with state := 2, fault := 0 } else x

/-- The entries of a frame as they are re-injected: with what the machine keeps beside each, where trap entry wrote it for the
operation that stands there; an added or replaced entry's bundle is none the frame names (log 13). -/
def withSides (n : Nat) (sides : List Beside) (es : List Replay) : List Replay :=
  es.zipIdx.map fun x => { x.1 with side := sideOf x.1 sides[x.2]? (Config.freeWord (n + x.2)) }
where
  /-- what was kept for this operation -/
  sideOf (e : Replay) (d : Option Beside) (pc : Word) : Beside :=
    (d.filter fun d => d.slotw = e.slotw && d.slot = e.slot).getD { Beside.none with slotw := e.slotw, slot := e.slot, pc := pc }

/-- What RETT restores: latches, REPI, the iteration at which issue goes on, the handler's end, the target, the entries to
re-inject. -/
def resumeCtx (n : Nat) (c : Ctx) (f : Frame) : Ctx :=
  { c with
    regs := c.regs.setLatches f.latches
    crs := { c.crs with intrap := false, repi := f.repi }
    resumeAt := some (BitVec.ofNat 16 f.nexti)
    sides := []
    iss := { c.iss with count := f.ncnt, target := some c.crs.tfpc }
    win := { c.win with cmds := c.win.cmds.map fun x => (x.1, restartCmd x.2) }
    reinj := some ((withSides n c.sides f.entries).filter fun e => !e.skip) }

/-- RETT reads the frame after the context's own stores (08 R208); a walk it needs stalls it (R205). -/
def opRett (_f : XCF) (s : State) : Op State :=
  let c := s.cur
  if !c.crs.intrap then trapOp 0x02 9
  else if anyStorePending s c.cid then holdOp s .stall
  else match readFrame s with
    | .error (.miss page) => holdOp (startWalk s c.cid c.bind.vf page (dieOf c.cid % 8)) .stall
    | .error (.fault _ _) => .ok (setAfter s (.retire { cls := 0x0B, sub := 6 }))
    | .ok none => .ok (setAfter s (.retire { cls := 0x0B, sub := 6 }))
    | .ok (some f) => .ok ({ s with fresh := s.fresh + 24 }.updCur fun x => resumeCtx s.fresh x f)

/-- RETT. -/
def execRett (g : Guard) (f : XCF) (s : State) : Host.Outcome State Fault Refusal := issueOne (.rett g f) (opRett f) s

/-! ### Re-injection (R340) -/

/-- A held row under its tag, or under that of the result where block 3 carries none of a row (R95). -/
def heldRow (b r : Row) : Row := if tagOk b.tag then b else normRow { b with tag := r.tag }
/-- The write of an entry's held result (HASRES). -/
def heldWrite (b : Row) : Write → Write
  | .row n r => .row n (heldRow b r)
  | .scalar n _ => .scalar n (scalarOfBlock b)
  | .pred n _ => .pred n (b.val.getLsbD 0)
  | .mask n _ => .mask n (b.val.setWidth 128)
def heldLatch (b : Row) : Latch → Latch
  | .invalid => .invalid
  | .row r => .row (heldRow b r)
  | .scalar _ => .scalar (scalarOfBlock b)
  | .mask _ => .mask (b.val.setWidth 128)

/-- What a held operation writes: the first of its results is block 3, the others are as they were kept (log 13). -/
def heldResult (e : Replay) : List Write → List Write
  | [] => []
  | w :: r => heldWrite e.b3 w :: r

/-- A result of a re-injected entry: visible DUE cycles after the first resumed bundle's issue; a held one is completed
without a floor check and with the flags it was withheld with (R137, R333). One that a later result had overwritten, or that was
to enter no latch, stays so (R45, R59). -/
def reinjected (e : Replay) (x : Flight) : Flight :=
  let y := { x with due := x.due + 1 + e.due, ready := x.due + 1 + e.due, rep := e, passed := e.side.passed }
  let z := if e.hasRes then
      { y with res := heldResult e y.res, latch := heldLatch e.b3 y.latch, flags := e.side.flags, below := none } else y
  { z with res := if e.side.lost then [] else z.res, latch := if e.side.noLatch then .invalid else z.latch }

/-- Flights added by an entry, in their place; `due` is reckoned from the pipe time of the re-injection. -/
def addReinjected (c0 : Ctx) (e : Replay) (c : Ctx) : Ctx :=
  let n := c0.fl.length
  { c with
    fl := c.fl.take n ++ (c.fl.drop n).map fun x => reinjected e { x with due := c0.pt }
    seq := c.seq + 1 }

/-- The context while an entry is performed: its own bundle's address and iteration, for the records it makes (R135), the control
registers it was issued under (R54), and the answer its bundle has had (R292). -/
def enterEntry (e : Replay) (c : Ctx) : Ctx :=
  let u := e.side.under.getD (underCtl c)
  { c with
    pc := e.side.pc, wait := e.side.ans, cb := u.cb
    crs := { c.crs with repi := e.iter, sigfloor := u.sigfloor, planew := u.planew }
    iss := { c.iss with slot := e.slot, rep := e, cap := some e, xcls := [] } }
/-- Whether an operation loads the codebook. -/
def loadsCb : Instr → Bool
  | .cbload _ _ => true
  | _ => false
/-- The context after it: as it was but for what the operation did. -/
def leaveEntry (e : Replay) (i : Instr) (c t : Ctx) : Ctx :=
  { t with
    pc := c.pc, wait := if e.side.ans.isSome || t.wait.isNone then c.wait else t.wait
    cb := if loadsCb i then t.cb else c.cb
    crs := { t.crs with repi := c.crs.repi, sigfloor := c.crs.sigfloor, planew := c.crs.planew } }

/-- An entry's operation performed with its captured operands. -/
def performEntry (e : Replay) (i : Instr) (s : State) : Op State :=
  match slotRun i { s with cur := enterEntry e s.cur } with
  | .error (.hold h t) => .error (.hold h { t with cur := leaveEntry e i s.cur t.cur })
  | .error x => .error x
  | .ok t => .ok { t with cur := leaveEntry e i s.cur (addReinjected s.cur e t.cur) }

/-- What an entry whose result is not computed again writes: what was kept of it, else the first register its fields name, which
HASRES says block 3 holds; a single row goes to EDST. -/
def keptWrites (s : State) (e : Replay) (i : Instr) : List Write :=
  let l := if e.side.kept then e.side.res else (resultNames s i).take 1
  if (rowDst i).isSome then l.map fun w => match w with
    | .row _ r => .row e.edst.toNat r
    | w => w
  else l
/-- Its latch. -/
def keptLatch (e : Replay) (i : Instr) (l : List Write) : Latch :=
  if e.side.kept then e.side.latch
  else if !entersLatch i then .invalid
  else match l with
    | .row _ r :: _ => .row r
    | .scalar _ x :: _ => .scalar x
    | .mask _ m :: _ => .mask m
    | _ => .invalid
/-- The result of an operation that is not performed again. -/
def keptFlight (c : Ctx) (e : Replay) (i : Instr) (l : List Write) : Flight where
  slot := e.slot
  pc := e.side.pc
  repi := e.iter
  seq := c.seq
  due := c.pt
  ready := c.pt
  passed := 0
  res := l
  latch := keptLatch e i l
  flags := e.side.flags
  below := e.side.below
  mode := sigMode (enterEntry e c)
  tkop := e.side.tkop
  rep := e
/-- The entry of an operation that is not performed again: its result goes into flight (R292, R339). -/
def completeEntry (e : Replay) (i : Instr) (s : State) : Op State :=
  let l := keptWrites s e i
  let x := keptFlight s.cur e i l
  if (rowDst i).isSome && !l.isEmpty && decide (s.cur.bind.rows ≤ e.edst.toNat) then trapOp 0x05 0
  else if l.isEmpty && x.latch = .invalid then .ok s
  else .ok (s.updCur fun c => { c with fl := c.fl ++ [reinjected e x], seq := c.seq + 1 })

/-- One entry re-injected: an operation of the slots M to Y whose result is held or kept is completed, any other performed. -/
def runEntry (e : Replay) (i : Instr) (s : State) : Op State :=
  if 3 ≤ e.slot && (e.hasRes || e.side.kept) then completeEntry e i s else performEntry e i s

/-- The operation of an entry; one that no longer decodes, or breaks its kernel's declarations, is illegal (R55, R340). -/
def entryOp (e : Replay) : OpIn :=
  match decodeSlot e.slot e.slotw with
  | some i => ⟨i, fun s => if wfInstr i && declared s i then runEntry e i s else trapOp 0x01 0⟩
  | none => ⟨.nop 0, fun _ => trapOp 0x01 0⟩

/-- Operations of entries one after the other. -/
def stageEntries : List OpIn → State → Op State
  | [], s => .ok s
  | o :: r, s =>
    match o.run s with
    | .ok t => stageEntries r t
    | .error (.trap k) => .error (.trap { k with slot := (slotOf o.ins).getD 0 })
    | .error e => .error e
/-- The entries' operations: END first, which is judged on the context before its bundle (R343), then in order. -/
def commitEntries (ops : List OpIn) (s : State) : Op State :=
  stageEntries (ops.filter (fun o => isEnd o.ins) ++ ops.filter fun o => !isEnd o.ins) s

/-- Whether an entry pops operand selector `n` again (SRCK). -/
def popsAgain (e : Replay) (n : Nat) : Bool :=
  match decodeSlot e.slot e.slotw with
  | none => false
  | some i =>
    (selSrcs i).any (fun x => x.2.toNat = n && e.srck.getLsbD x.1)
      || (n = 328 && match qselPop i with
          | some p => e.srck.getLsbD p
          | none => false)

/-- A queue an entry pops again is empty: the re-injection waits (R37). -/
def popAgainHold (s : State) (e : Replay) : Option Hold :=
  let why {α : Type} (r : Op α) : Option Hold := match r with
    | .error (.hold h _) => some h
    | _ => none
  (if popsAgain e 328 then why (ldqHead s) else none).or
    ((List.range 8).findSome? fun q => if popsAgain e (320 + q) then why (streamHead s q) else none)

/-- What re-injection pops: the LDQ once, each stream register once (R37). -/
def popAgain (es : List Replay) (c : Ctx) : Ctx :=
  let c1 := if es.any fun e => popsAgain e 328 then popLdq c else c
  ((List.range 8).filter fun q => es.any fun e => popsAgain e (320 + q)).foldl popStream c1

/-- The context in the re-injection's cycle: no control word, no issue scratch, but the count under way; a full window that its
bundle has been counted for is not counted again (R228). -/
def reinjectCtx (es : List Replay) (c : Ctx) : Ctx :=
  { c with
    ctl := 0, iss := { Iss.none with count := c.iss.count, tok0 := c.tok, ws0 := c.tokWs, ldq0 := c.ldq.length }
    reads := if es.any (fun e => c.counted = some e.side.pc) && !c.reads.contains stallMark then stallMark :: c.reads else c.reads }

/-- A held re-injection: as a stalled issue, with what resumption needs kept. -/
def holdReinject (s : State) (c : Ctx) (h : Hold) : State :=
  let t := holdBundle s h
  t.updCur fun x => { x with
    pc := c.pc, reinj := c.reinj, status := .running, crs := { x.crs with repi := c.crs.repi }
    resumeAt := c.resumeAt, iss := { x.iss with count := c.iss.count } }

/-- An entry that goes back into a frame: an answer that was a fault is forgotten, since its operation had no effect (R293). -/
def Replay.backInFrame (e : Replay) : Replay := e.withAns (e.side.ans.filter fun p => p.answer = some 0 || p.answer = some 1)

/-- A trap of a re-injected entry: the entries go back into a frame. -/
def trapReinject (s : State) (k : Cause) (es : List Replay) : State :=
  let c := if k.cls = 0x23 then s.cur.countStall else s.cur
  takeTrap { s with cur := { c with reinj := none } } k (flightEntries c (c.pt + 1) ++ es.map Replay.backInFrame)
    ⟨c.pc, c.nexti.toNat, c.iss.count⟩

/-- The re-injection has issued: pops, control registers, dropped entries; the first resumed bundle comes one cycle
later. -/
def retireReinject (es : List Replay) (c : Ctx) : Ctx :=
  let i := c.iss
  let c1 := popAgain es c
  let c2 := dropEntries i (es.any fun e => popsAgain e 328) c1
  let c3 := { c2 with crs := i.atRetire.foldl (fun r (x : Nat × Word) => r.write x.1 x.2) c2.crs }
  { c3.advance 1 with
    resume := c3.pt + 1, wait := none, reinj := none, iss := { Iss.none with count := i.count }
    reads := if c.counted = some c.pc && !(es.any fun e => c.counted = some e.side.pc) then [stallMark] else []
    counted := none }

/-- An answer that has come belongs to the first entry that waits for one, and to the entries of its bundle (R290, R292). -/
def giveAnswer (es : List Replay) (waits : List Replay) (p : Pending) : List Replay :=
  match waits with
  | [] => es
  | w :: _ => es.map fun e => if e = w || e.side.pc = w.side.pc && e.iter = w.iter && e.side.ans.isNone then e.withAns (some p) else e

/-- The entries have been checked one by one, and none waits for an answer: they are re-injected together. -/
def commitReinject (es : List Replay) (ops : List OpIn) (s : State) : Host.Outcome State Fault Refusal :=
  match commitEntries ops s with
  | .error (.trap k) => .next (trapReinject s k es).tick
  | .error (.hold h _) => .next (holdReinject s s.cur h)
  | .error (.fault f) => .fault f
  | .error (.refused r) => .refused r
  | .ok t =>
    let after := t.cur.iss.after
    let t1 := dropWalkFaults (spendCycles (t.updCur (retireReinject es)) s.cur.cid 1 1) s.cur.cid
    .next (afterBundle t1 after).tick

/-- An entry's operation that must be answered is sent once every other entry has passed the checks it makes with the others
(R291), with the accesses that go with it (R290). -/
def sendReinject (es : List Replay) (o : OpIn) (others : List OpIn) (s : State) : Host.Outcome State Fault Refusal :=
  match commitEntries others s with
  | .error (.trap k) => .next (trapReinject s k es).tick
  | .error (.hold h _) => .next (holdReinject s s.cur h)
  | .error (.fault f) => .fault f
  | .error (.refused r) => .refused r
  | .ok t =>
    match o.run { s with uid := t.uid, cur := { s.cur with iss := { s.cur.iss with along := t.cur.iss.along } } } with
    | .error (.hold h s1) => .next (holdReinject s1 s.cur h)
    | .error (.trap k) => .next (trapReinject s { k with slot := (slotOf o.ins).getD 0 } es).tick
    | .error (.fault f) => .fault f
    | .error (.refused r) => .refused r
    | .ok _ => .next (holdReinject s s.cur .stall)

/-- The entries RETT left are re-injected as one issue (R340), all of them or none (R53). -/
def reinjectNow (es : List Replay) (s0 : State) : Host.Outcome State Fault Refusal :=
  let s := s0.updCur (reinjectCtx es)
  let ops := es.map entryOp
  let results := ops.map fun o => (o, o.run s)
  match firstOf isHold results with
  | some (_, .error (.hold h s1)) => .next (holdReinject s1 s.cur h)
  | _ =>
    match firstOf isStopped results with
    | some (o, .error (.trap k)) =>
      (match es.findSome? (popAgainHold s) with
       | some h => .next (holdReinject s s.cur h)
       | none => .next (trapReinject s { k with slot := (slotOf o.ins).getD 0 } es).tick)
    | some (_, .error (.fault f)) => .fault f
    | some (_, .error (.refused r)) => .refused r
    | _ =>
      match firstOf isSend results, s.cur.wait with
      | some (o, _), none =>
        sendReinject es o ((results.filter fun x => !isSend x.2).map Prod.fst) s
      | some _, some p =>
        if p.answer.isNone then .next (holdReinject s s.cur .stall)
        else
          let waits := ((es.zip results).filter fun x => isSend x.2.2).map Prod.fst
          .next (s.updCur fun c => { c with wait := none, reinj := some (giveAnswer es waits p) })
      | none, _ => commitReinject es ops s

end Sys2Proof.Machine
end

