-- ==== Sys2Proof/Machine/TaskEvents.lean ====
section
/-!
DEFINITION. Dispatch, commit and completion of the tasks of a domain (17 R409 to R411, R418, R427).
-/
namespace Sys2Proof.Machine

/-! ### TASK_DISPATCH (R409 to R411) -/

/-- Lines that tasks placed on a tile hold in its write buffer. -/
def Dom.linesOn (d : Dom) (t : Nat) : Nat := ((d.tasks.filter fun x => x.tile = t).map fun x => (bufLines x.buf).length).sum

/-- The queued task of a tile with the least order key. -/
def Dom.nextOn (d : Dom) (t : Nat) : Option Task := leastTask (d.tasks.filter fun x => x.tile = t && x.st = .queued)

/-- The frontier task is `q`. -/
def Dom.isFront (d : Dom) (q : Nat) : Bool := match d.frontier with
  | some t => t.seq = q
  | none => false

/-- The latest-ordered task of some. -/
def latestTask : List Task → Option Task
  | [] => none
  | t :: r => match latestTask r with
    | some u => if t.before u then some u else some t
    | none => some t

/-- The task that holds a context on a tile and orders latest there (R410). -/
def Dom.latestOn (d : Dom) (t : Nat) : Option Task := latestTask (d.tasks.filter fun x => x.tile = t && x.ctx.isSome)

/-- A free task context of a domain on a tile. -/
def freeTaskOn (s : State) (d : Dom) (t : Nat) : Option Nat :=
  d.ctxs.find? fun c => tileOf c = t && (s.ctx c).task.isNone && (s.ctx c).status = .free

/-- The entry state of a dispatched task (R411): everything as in a fresh context but the rows and what the binding set. -/
def taskCtx (d : Dom) (t : Task) (front : Bool) (c : Ctx) : Ctx :=
  let f := Ctx.fresh c.cid
  let put (r : Vector Scalar 32) (n : Nat) (v : Word) : Vector Scalar 32 := r.setIfInBounds n ⟨v, 24⟩
  { f with
    status := .ready
    pc := c.bind.codeBase + BitVec.ofNat 64 (64 * d.table.getD t.entry 0)
    regs := { Regs.reset with
      rows := c.regs.rows
      s := put (put (put (put Regs.reset.s 1 t.a0) 2 t.a1) 3 (BitVec.ofNat 64 t.entry)) 4 d.dataBase }
    crs := { Crs.reset with lpad := c.crs.lpad, lilk := c.crs.lilk, tvec := c.crs.tvec, codebase := c.crs.codebase, sabase := c.crs.sabase }
    lat := c.lat, bind := c.bind, win := { Window.reset with strict := c.win.strict }, counts := c.counts, pt := c.pt, seq := c.seq
    task := some ⟨d.id, t.seq, t.ts, !front, front, t.reex, t.aborts, (d.known t.tile).1, (d.known t.tile).2⟩ }

/-- A queued task takes a context. -/
def startTask (s : State) (d : Dom) (t : Task) (c : Nat) : State :=
  (((flushCore s (hwOf c / 4)).updTask d.id t.seq fun u => { u with st := .running, ctx := some c }).updDom d.id
      fun x => { x with tstart := some (x.tstart.getD s.htime) }).updCtx c (taskCtx d t (d.isFront t.seq))

/-- TASK_DISPATCH: task `t` of domain `d`, the next of its tile. -/
def execTaskDispatch (d t : Nat) (s : State) : Host.Outcome State Fault Refusal :=
  match s.dom d with
  | none => evNext s
  | some x =>
    match x.task t with
    | none => evNext s
    | some u =>
      let front := x.isFront t
      if !x.resident || u.st != .queued || (x.nextOn u.tile).map Task.seq != some t then evNext s
      else match freeTaskOn s x u.tile with
        | some c => if front || x.linesOn u.tile + 64 ≤ 8192 then evNext (startTask s x u c) else evNext s
        | none => (match front, x.latestOn u.tile with
          | true, some v => evNext (learn (abortTask s d v.seq) d)
          | _, _ => evNext s)

/-! ### TASK_COMMIT (R418) -/

/-- The loads that a context has on their way are performed, each piece as the latest write left it (R412): what the task's buffer
holds comes after them (R407). -/
def readPending (s : State) (cid : Nat) : State :=
  (s.gops.filter fun g => g.agent = cid && !g.writes).foldl (fun st g =>
    (List.range g.parts.length).foldl (fun u _ => match u.gops.find? fun x => x.id = g.id with
      | some x => (match x.parts with
        | p :: _ => performRead u x 0 p 0
        | [] => u)
      | none => u) st) s

/-- The frontier task, if it runs, goes on directly, once its earlier loads have been performed; if it is parked it is queued for its run at the frontier, its
descendants discarded (R414, R419, R422). -/
def becomeFront (s : State) (d : Nat) : State :=
  match s.dom d with
  | none => s
  | some x =>
    match x.frontier with
    | none => s
    | some t =>
      match t.st with
      | .running => learn (drainTask (match t.ctx with
          | some c => readPending s c
          | none => s) d t) d
      | .parked => learn ((discardDescendants s d t.seq).updTask d t.seq fun u => { u.requeue with reex := true }) d
      | _ => learn s d


/-- TASK_COMMIT: the finished frontier task drains, as one act, once its direct stores have been performed. -/
def execTaskCommit (d : Nat) (s : State) : Host.Outcome State Fault Refusal :=
  match s.dom d with
  | none => evNext s
  | some x =>
    match x.frontier with
    | none => evNext s
    | some t =>
      if t.st != .finished || s.gops.any fun g => g.task = some (d, t.seq) && g.writes then evNext s
      else
        let s1 := (drainTask s d t).updDom d fun y => { y with
          tasks := y.tasks.filter fun u => u.seq != t.seq
          committed := y.committed + 1
          taint := y.taint || t.poison
          corrected := y.corrected || t.corrected }
        evNext (becomeFront s1 d)

/-! ### DOMAIN_COMPLETE (R427) -/

/-- The banks and contexts of a domain are free again (R405). -/
def releaseDomain (s : State) (d : Dom) : State :=
  let open_ (b : BankSt) : BankSt := if b.owner = some (domClaim d.id) then { b with owner := none } else b
  { s with
    tiles := s.tiles.map fun t => { t with banks := t.banks.map open_ }
    others := s.others.filter fun c => !(d.ctxs.contains c.cid)
    doms := s.doms.filter fun y => y.id != d.id }

/-- DOMAIN_COMPLETE: once every write that its record carries has been performed (12 R317, R319), the reservation is freed and the record
written. -/
def execDomainComplete (d : Nat) (s : State) : Host.Outcome State Fault Refusal :=
  match s.dom d with
  | none => evNext s
  | some x =>
    if !x.resident || !x.tasks.isEmpty || !carryDone s x.ws then evNext s
    else
      let why := x.stopped.getD (0, 0, 0)
      let verdict := if x.taint then 2 else if x.corrected then 1 else 0
      let tail := recordTail 0 (x.tstart.getD 0) x.tend (x.committed % 2 ^ 32) (if x.taint then 1 else 0) why.2.2
      evNext (sweepObjs (writeRecord (releaseDomain s x) x.vf x.record tail (recordStatus why.1 why.2.1 verdict)).1)

end Sys2Proof.Machine
end

