-- ==== Sys2Proof/Machine/Dispatch.lean ====
section
/-!
DEFINITION. Which meaning each instruction has: one arm for each constructor of `Instr`.
-/
namespace Sys2Proof.Machine

def exec (i : Instr) (s : State) : Host.Outcome State Fault Refusal :=
  match i with
  | .add g f => Sys2Proof.Machine.execAdd g f s
  | .sub g f => Sys2Proof.Machine.execSub g f s
  | .mul g f => Sys2Proof.Machine.execMul g f s
  | .mulh g f => Sys2Proof.Machine.execMulh g f s
  | .mulhn g f => Sys2Proof.Machine.execMulhn g f s
  | .div g f => Sys2Proof.Machine.execDiv g f s
  | .divn g f => Sys2Proof.Machine.execDivn g f s
  | .rem g f => Sys2Proof.Machine.execRem g f s
  | .remn g f => Sys2Proof.Machine.execRemn g f s
  | .and g f => Sys2Proof.Machine.execAnd g f s
  | .or g f => Sys2Proof.Machine.execOr g f s
  | .xor g f => Sys2Proof.Machine.execXor g f s
  | .andn g f => Sys2Proof.Machine.execAndn g f s
  | .shl g f => Sys2Proof.Machine.execShl g f s
  | .shr g f => Sys2Proof.Machine.execShr g f s
  | .sar g f => Sys2Proof.Machine.execSar g f s
  | .rot g f => Sys2Proof.Machine.execRot g f s
  | .clz g f => Sys2Proof.Machine.execClz g f s
  | .ctz g f => Sys2Proof.Machine.execCtz g f s
  | .popc g f => Sys2Proof.Machine.execPopc g f s
  | .min g f => Sys2Proof.Machine.execMin g f s
  | .max g f => Sys2Proof.Machine.execMax g f s
  | .minn g f => Sys2Proof.Machine.execMinn g f s
  | .maxn g f => Sys2Proof.Machine.execMaxn g f s
  | .sel g f => Sys2Proof.Machine.execSel g f s
  | .lea g f => Sys2Proof.Machine.execLea g f s
  | .cmp g f => Sys2Proof.Machine.execCmp g f s
  | .addi g f => Sys2Proof.Machine.execAddi g f s
  | .andi g f => Sys2Proof.Machine.execAndi g f s
  | .ori g f => Sys2Proof.Machine.execOri g f s
  | .xori g f => Sys2Proof.Machine.execXori g f s
  | .movi g f => Sys2Proof.Machine.execMovi g f s
  | .movhi g f => Sys2Proof.Machine.execMovhi g f s
  | .pand g f => Sys2Proof.Machine.execPand g f s
  | .por g f => Sys2Proof.Machine.execPor g f s
  | .pxor g f => Sys2Proof.Machine.execPxor g f s
  | .pnot g f => Sys2Proof.Machine.execPnot g f s
  | .sfadd g f => Sys2Proof.Machine.execSfadd g f s
  | .sfsub g f => Sys2Proof.Machine.execSfsub g f s
  | .sfmul g f => Sys2Proof.Machine.execSfmul g f s
  | .sffma g f => Sys2Proof.Machine.execSffma g f s
  | .sfdiv g f => Sys2Proof.Machine.execSfdiv g f s
  | .sfsqrt g f => Sys2Proof.Machine.execSfsqrt g f s
  | .sfcmp g f => Sys2Proof.Machine.execSfcmp g f s
  | .sfcvtI32 g f => Sys2Proof.Machine.execSfcvtI32 g f s
  | .sfcvtF32 g f => Sys2Proof.Machine.execSfcvtF32 g f s
  | .sigget g f => Sys2Proof.Machine.execSigget g f s
  | .sigset g f => Sys2Proof.Machine.execSigset g f s
  | .br g f => Sys2Proof.Machine.execBr g f s
  | .brp g f => Sys2Proof.Machine.execBrp g f s
  | .brsig g f => Sys2Proof.Machine.execBrsig g f s
  | .loop g f => Sys2Proof.Machine.execLoop g f s
  | .call g f => Sys2Proof.Machine.execCall g f s
  | .bri g f => Sys2Proof.Machine.execBri g f s
  | .ret g f => Sys2Proof.Machine.execRet g f s
  | .cread g f => Sys2Proof.Machine.execCread g f s
  | .cwrite g f => Sys2Proof.Machine.execCwrite g f s
  | .nop ctl => Sys2Proof.Machine.execNop ctl s
  | .vadd g inB f => Sys2Proof.Machine.execVadd g inB f s
  | .vsub g inB f => Sys2Proof.Machine.execVsub g inB f s
  | .vmul g inB f => Sys2Proof.Machine.execVmul g inB f s
  | .vmulh g inB f => Sys2Proof.Machine.execVmulh g inB f s
  | .vmad g inB f => Sys2Proof.Machine.execVmad g inB f s
  | .vand g inB f => Sys2Proof.Machine.execVand g inB f s
  | .vor g inB f => Sys2Proof.Machine.execVor g inB f s
  | .vxor g inB f => Sys2Proof.Machine.execVxor g inB f s
  | .vnot g inB f => Sys2Proof.Machine.execVnot g inB f s
  | .vshl g inB f => Sys2Proof.Machine.execVshl g inB f s
  | .vshr g inB f => Sys2Proof.Machine.execVshr g inB f s
  | .vsar g inB f => Sys2Proof.Machine.execVsar g inB f s
  | .vmin g inB f => Sys2Proof.Machine.execVmin g inB f s
  | .vmax g inB f => Sys2Proof.Machine.execVmax g inB f s
  | .vabsdiff g inB f => Sys2Proof.Machine.execVabsdiff g inB f s
  | .vcmp g inB f => Sys2Proof.Machine.execVcmp g inB f s
  | .vsel g inB f => Sys2Proof.Machine.execVsel g inB f s
  | .vpopc g inB f => Sys2Proof.Machine.execVpopc g inB f s
  | .vfadd g inB f => Sys2Proof.Machine.execVfadd g inB f s
  | .vfsub g inB f => Sys2Proof.Machine.execVfsub g inB f s
  | .vfmul g inB f => Sys2Proof.Machine.execVfmul g inB f s
  | .vffma g inB f => Sys2Proof.Machine.execVffma g inB f s
  | .vfmin g inB f => Sys2Proof.Machine.execVfmin g inB f s
  | .vfmax g inB f => Sys2Proof.Machine.execVfmax g inB f s
  | .vfabs g inB f => Sys2Proof.Machine.execVfabs g inB f s
  | .vfneg g inB f => Sys2Proof.Machine.execVfneg g inB f s
  | .vfcmp g inB f => Sys2Proof.Machine.execVfcmp g inB f s
  | .vrcp g inB f => Sys2Proof.Machine.execVrcp g inB f s
  | .vrsqrt g inB f => Sys2Proof.Machine.execVrsqrt g inB f s
  | .vexp2 g inB f => Sys2Proof.Machine.execVexp2 g inB f s
  | .vlog2 g inB f => Sys2Proof.Machine.execVlog2 g inB f s
  | .vsigm g inB f => Sys2Proof.Machine.execVsigm g inB f s
  | .vcvt g inB f => Sys2Proof.Machine.execVcvt g inB f s
  | .vcbdec g inB f => Sys2Proof.Machine.execVcbdec g inB f s
  | .vcbenc g inB f => Sys2Proof.Machine.execVcbenc g inB f s
  | .vplane g inB f => Sys2Proof.Machine.execVplane g inB f s
  | .vunplane g inB f => Sys2Proof.Machine.execVunplane g inB f s
  | .vpadd g inB f => Sys2Proof.Machine.execVpadd g inB f s
  | .vpsub g inB f => Sys2Proof.Machine.execVpsub g inB f s
  | .vpand g inB f => Sys2Proof.Machine.execVpand g inB f s
  | .vpcnt g inB f => Sys2Proof.Machine.execVpcnt g inB f s
  | .vrsum g inB f => Sys2Proof.Machine.execVrsum g inB f s
  | .vrmax g inB f => Sys2Proof.Machine.execVrmax g inB f s
  | .vrmin g inB f => Sys2Proof.Machine.execVrmin g inB f s
  | .vrsigmin g inB f => Sys2Proof.Machine.execVrsigmin g inB f s
  | .vbcast g inB f => Sys2Proof.Machine.execVbcast g inB f s
  | .vext g inB f => Sys2Proof.Machine.execVext g inB f s
  | .vins g inB f => Sys2Proof.Machine.execVins g inB f s
  | .vperm g inB f => Sys2Proof.Machine.execVperm g inB f s
  | .vshiftl g inB f => Sys2Proof.Machine.execVshiftl g inB f s
  | .viota g inB f => Sys2Proof.Machine.execViota g inB f s
  | .vmov g inB f => Sys2Proof.Machine.execVmov g inB f s
  | .vfill g inB f => Sys2Proof.Machine.execVfill g inB f s
  | .vsig g inB f => Sys2Proof.Machine.execVsig g inB f s
  | .vsigset g inB f => Sys2Proof.Machine.execVsigset g inB f s
  | .vfmt g inB f => Sys2Proof.Machine.execVfmt g inB f s
  | .kand g inB f => Sys2Proof.Machine.execKand g inB f s
  | .kor g inB f => Sys2Proof.Machine.execKor g inB f s
  | .knot g inB f => Sys2Proof.Machine.execKnot g inB f s
  | .kpopc g inB f => Sys2Proof.Machine.execKpopc g inB f s
  | .lease g f => Sys2Proof.Machine.execLease g f s
  | .leaseTry g f => Sys2Proof.Machine.execLeaseTry g f s
  | .unlease g f => Sys2Proof.Machine.execUnlease g f s
  | .chainBegin g f => Sys2Proof.Machine.execChainBegin g f s
  | .chainEnd g f => Sys2Proof.Machine.execChainEnd g f s
  | .mmaBf16 g f => Sys2Proof.Machine.execMmaBf16 g f s
  | .mmaCb4 g f => Sys2Proof.Machine.execMmaCb4 g f s
  | .mmaPlane g f => Sys2Proof.Machine.execMmaPlane g f s
  | .mgath g f => Sys2Proof.Machine.execMgath g f s
  | .mldb g f => Sys2Proof.Machine.execMldb g f s
  | .cbload g f => Sys2Proof.Machine.execCbload g f s
  | .accZero g f => Sys2Proof.Machine.execAccZero g f s
  | .accRd g f => Sys2Proof.Machine.execAccRd g f s
  | .accWr g f => Sys2Proof.Machine.execAccWr g f s
  | .ldsRow g f => Sys2Proof.Machine.execLdsRow g f s
  | .ldsW32 g f => Sys2Proof.Machine.execLdsW32 g f s
  | .ldsW64 g f => Sys2Proof.Machine.execLdsW64 g f s
  | .ldgRow g f => Sys2Proof.Machine.execLdgRow g f s
  | .ldgW32 g f => Sys2Proof.Machine.execLdgW32 g f s
  | .ldgW64 g f => Sys2Proof.Machine.execLdgW64 g f s
  | .ldgTag g f => Sys2Proof.Machine.execLdgTag g f s
  | .pfg g f => Sys2Proof.Machine.execPfg g f s
  | .ldqDrop g f => Sys2Proof.Machine.execLdqDrop g f s
  | .stsRow g f => Sys2Proof.Machine.execStsRow g f s
  | .stsW32 g f => Sys2Proof.Machine.execStsW32 g f s
  | .stsW64 g f => Sys2Proof.Machine.execStsW64 g f s
  | .stgRow g f => Sys2Proof.Machine.execStgRow g f s
  | .stgW32 g f => Sys2Proof.Machine.execStgW32 g f s
  | .stgW64 g f => Sys2Proof.Machine.execStgW64 g f s
  | .stgTag g f => Sys2Proof.Machine.execStgTag g f s
  | .atomAdd g f => Sys2Proof.Machine.execAtomAdd g f s
  | .atomMin g f => Sys2Proof.Machine.execAtomMin g f s
  | .atomMax g f => Sys2Proof.Machine.execAtomMax g f s
  | .atomAnd g f => Sys2Proof.Machine.execAtomAnd g f s
  | .atomOr g f => Sys2Proof.Machine.execAtomOr g f s
  | .atomXor g f => Sys2Proof.Machine.execAtomXor g f s
  | .atomXchg g f => Sys2Proof.Machine.execAtomXchg g f s
  | .atomCas g f => Sys2Proof.Machine.execAtomCas g f s
  | .atomFadd g f => Sys2Proof.Machine.execAtomFadd g f s
  | .satom g f => Sys2Proof.Machine.execSatom g f s
  | .cpyTen g f => Sys2Proof.Machine.execCpyTen g f s
  | .cpyRow g f => Sys2Proof.Machine.execCpyRow g f s
  | .cpyGath g f => Sys2Proof.Machine.execCpyGath g f s
  | .cpyScat g f => Sys2Proof.Machine.execCpyScat g f s
  | .cpySpad g f => Sys2Proof.Machine.execCpySpad g f s
  | .cpyBind g f => Sys2Proof.Machine.execCpyBind g f s
  | .cpyBindOff g f => Sys2Proof.Machine.execCpyBindOff g f s
  | .cpyRed g f => Sys2Proof.Machine.execCpyRed g f s
  | .cpyFill g f => Sys2Proof.Machine.execCpyFill g f s
  | .cpyPoll g f => Sys2Proof.Machine.execCpyPoll g f s
  | .cpyPollWin g f => Sys2Proof.Machine.execCpyPollWin g f s
  | .cpyCancel g f => Sys2Proof.Machine.execCpyCancel g f s
  | .cpyCancelAll g f => Sys2Proof.Machine.execCpyCancelAll g f s
  | .tmap g f => Sys2Proof.Machine.execTmap g f s
  | .berthSet g f => Sys2Proof.Machine.execBerthSet g f s
  | .semInit g f => Sys2Proof.Machine.execSemInit g f s
  | .semPost g f => Sys2Proof.Machine.execSemPost g f s
  | .semWait g f => Sys2Proof.Machine.execSemWait g f s
  | .semTry g f => Sys2Proof.Machine.execSemTry g f s
  | .barInit g f => Sys2Proof.Machine.execBarInit g f s
  | .barArrive g f => Sys2Proof.Machine.execBarArrive g f s
  | .barExpect g f => Sys2Proof.Machine.execBarExpect g f s
  | .barWait g f => Sys2Proof.Machine.execBarWait g f s
  | .barTest g f => Sys2Proof.Machine.execBarTest g f s
  | .gbar g f => Sys2Proof.Machine.execGbar g f s
  | .moor g f => Sys2Proof.Machine.execMoor g f s
  | .unmoor g f => Sys2Proof.Machine.execUnmoor g f s
  | .acq g f => Sys2Proof.Machine.execAcq g f s
  | .rel g f => Sys2Proof.Machine.execRel g f s
  | .fence g f => Sys2Proof.Machine.execFence g f s
  | .tkwait g f => Sys2Proof.Machine.execTkwait g f s
  | .tkclr g f => Sys2Proof.Machine.execTkclr g f s
  | .pipePush g f => Sys2Proof.Machine.execPipePush g f s
  | .pipePop g f => Sys2Proof.Machine.execPipePop g f s
  | .pipePopTry g f => Sys2Proof.Machine.execPipePopTry g f s
  | .qPush g f => Sys2Proof.Machine.execQPush g f s
  | .qPop g f => Sys2Proof.Machine.execQPop g f s
  | .qPopTry g f => Sys2Proof.Machine.execQPopTry g f s
  | .qTry g f => Sys2Proof.Machine.execQTry g f s
  | .qPeek g f => Sys2Proof.Machine.execQPeek g f s
  | .qInfo g f => Sys2Proof.Machine.execQInfo g f s
  | .spawn g f => Sys2Proof.Machine.execSpawn g f s
  | .taskEnd g f => Sys2Proof.Machine.execTaskEnd g f s
  | .taskAbandon g f => Sys2Proof.Machine.execTaskAbandon g f s
  | .tsGet g f => Sys2Proof.Machine.execTsGet g f s
  | .bankRel g f => Sys2Proof.Machine.execBankRel g f s
  | .hintSucc g f => Sys2Proof.Machine.execHintSucc g f s
  | .waitvis g f => Sys2Proof.Machine.execWaitvis g f s
  | .complete g f => Sys2Proof.Machine.execComplete g f s
  | .phase g f => Sys2Proof.Machine.execPhase g f s
  | .trap g f => Sys2Proof.Machine.execTrap g f s
  | .rett g f => Sys2Proof.Machine.execRett g f s
  | .yield g f => Sys2Proof.Machine.execYield g f s
  | .sleep g f => Sys2Proof.Machine.execSleep g f s
  | .endCtx g f => Sys2Proof.Machine.execEndCtx g f s
  | .resultVisible c => Sys2Proof.Machine.execResultVisible c s
  | .trapEntry c => Sys2Proof.Machine.execTrapEntry c s
  | .loadEntryReturn c => Sys2Proof.Machine.execLoadEntryReturn c s
  | .globalAccessPerformed op piece pick => Sys2Proof.Machine.execGlobalAccessPerformed op piece pick s
  | .atomicAtHome op => Sys2Proof.Machine.execAtomicAtHome op s
  | .pageWalkComplete w => Sys2Proof.Machine.execPageWalkComplete w s
  | .copyStart c e => Sys2Proof.Machine.execCopyStart c e s
  | .berthGrant t => Sys2Proof.Machine.execBerthGrant t s
  | .copySector c e j pick => Sys2Proof.Machine.execCopySector c e j pick s
  | .streamRowArrive c q slot => Sys2Proof.Machine.execStreamRowArrive c q slot s
  | .sectorPost p => Sys2Proof.Machine.execSectorPost p s
  | .syncOpAtHome op => Sys2Proof.Machine.execSyncOpAtHome op s
  | .syncAnswer c => Sys2Proof.Machine.execSyncAnswer c s
  | .queueOpAtHome op => Sys2Proof.Machine.execQueueOpAtHome op s
  | .pipeRowArrive p => Sys2Proof.Machine.execPipeRowArrive p s
  | .tokenWaitRelease c => Sys2Proof.Machine.execTokenWaitRelease c s
  | .leaseGrant t => Sys2Proof.Machine.execLeaseGrant t s
  | .mmaStep t op ti tj tk => Sys2Proof.Machine.execMmaStep t op ti tj tk s
  | .mgathFill t op => Sys2Proof.Machine.execMgathFill t op s
  | .mldbLoad t op => Sys2Proof.Machine.execMldbLoad t op s
  | .accOpPerformed t op => Sys2Proof.Machine.execAccOpPerformed t op s
  | .chainComplete t => Sys2Proof.Machine.execChainComplete t s
  | .chainOverrun t => Sys2Proof.Machine.execChainOverrun t s
  | .sleepDeadline c => Sys2Proof.Machine.execSleepDeadline c s
  | .preemptRequest c => Sys2Proof.Machine.execPreemptRequest c s
  | .contextSave c => Sys2Proof.Machine.execContextSave c s
  | .restoreRequest gr => Sys2Proof.Machine.execRestoreRequest gr s
  | .contextRestore c => Sys2Proof.Machine.execContextRestore c s
  | .launchPop => Sys2Proof.Machine.execLaunchPop s
  | .ticketReserve k => Sys2Proof.Machine.execTicketReserve k s
  | .preemptTimeout k => Sys2Proof.Machine.execPreemptTimeout k s
  | .groupReady gr => Sys2Proof.Machine.execGroupReady gr s
  | .bankFree t b => Sys2Proof.Machine.execBankFree t b s
  | .completionRecordWrite l => Sys2Proof.Machine.execCompletionRecordWrite l s
  | .nodeFire n => Sys2Proof.Machine.execNodeFire n s
  | .auditReplay a => Sys2Proof.Machine.execAuditReplay a s
  | .auditCompare a => Sys2Proof.Machine.execAuditCompare a s
  | .taskDispatch d t => Sys2Proof.Machine.execTaskDispatch d t s
  | .taskCommit d => Sys2Proof.Machine.execTaskCommit d s
  | .domainComplete d => Sys2Proof.Machine.execDomainComplete d s
  | .loadCodeObject fn => Sys2Proof.Machine.execLoadCodeObject fn s
  | .unload fn => Sys2Proof.Machine.execUnload fn s
  | .domainOpen fn => Sys2Proof.Machine.execDomainOpen fn s
  | .nodeReleaseCancel fn => Sys2Proof.Machine.execNodeReleaseCancel fn s
  | .readMarginTable fn => Sys2Proof.Machine.execReadMarginTable fn s
  | .attestationQuote fn => Sys2Proof.Machine.execAttestationQuote fn s
  | .keyLoad fn => Sys2Proof.Machine.execKeyLoad fn s
  | .keyRevoke fn => Sys2Proof.Machine.execKeyRevoke fn s
  | .raiseMinsvn fn => Sys2Proof.Machine.execRaiseMinsvn fn s
  | .guardBandHint fn => Sys2Proof.Machine.execGuardBandHint fn s
  | .writeSignerDigest fn => Sys2Proof.Machine.execWriteSignerDigest fn s
  | .lqtailWrite fn q v => Sys2Proof.Machine.execLqtailWrite fn q v s
  | .lqcfgWrite fn q v => Sys2Proof.Machine.execLqcfgWrite fn q v s
  | .tinvWrite fn v => Sys2Proof.Machine.execTinvWrite fn v s
  | .tsyncRead fn => Sys2Proof.Machine.execTsyncRead fn s
  | .partWrite fn w v => Sys2Proof.Machine.execPartWrite fn w v s
  | .pwinWrite fn v => Sys2Proof.Machine.execPwinWrite fn v s
  | .injWrite t v => Sys2Proof.Machine.execInjWrite t v s
  | .devidWrite v => Sys2Proof.Machine.execDevidWrite v s
  | .rlogheadWrite v => Sys2Proof.Machine.execRlogheadWrite v s
  | .registerWrite r => Sys2Proof.Machine.execRegisterWrite r s
  | .deviceReset b => Sys2Proof.Machine.execDeviceReset b s
  | .functionLevelReset fn => Sys2Proof.Machine.execFunctionLevelReset fn s
  | .timingReplay t fails => Sys2Proof.Machine.execTimingReplay t fails s
  | .marginUpWindow t => Sys2Proof.Machine.execMarginUpWindow t s
  | .marginDownWindow t => Sys2Proof.Machine.execMarginDownWindow t s
  | .tileDrained t => Sys2Proof.Machine.execTileDrained t s
  | .powerStateEnter t => Sys2Proof.Machine.execPowerStateEnter t s
  | .tileWake t => Sys2Proof.Machine.execTileWake t s
  | .powerMeasure watts busy => Sys2Proof.Machine.execPowerMeasure watts busy s
  | .boostLeaseExpire t => Sys2Proof.Machine.execBoostLeaseExpire t s
  | .budgetMessage m => Sys2Proof.Machine.execBudgetMessage m s
  | .budgetLeaseExpire ti => Sys2Proof.Machine.execBudgetLeaseExpire ti s
  | .thermalLimit => Sys2Proof.Machine.execThermalLimit s
  | .dramQuarantine q => Sys2Proof.Machine.execDramQuarantine q s
  | .ucieLinkDown u => Sys2Proof.Machine.execUcieLinkDown u s
  | .portRetrain p => Sys2Proof.Machine.execPortRetrain p s
  | .portTraining p lanes peer tag => Sys2Proof.Machine.execPortTraining p lanes peer tag s
  | .timeSync inSync => Sys2Proof.Machine.execTimeSync inSync s
  | .remoteAccess r => Sys2Proof.Machine.execRemoteAccess r s
  | .hostMemoryWrite fn va bytes => Sys2Proof.Machine.execHostMemoryWrite fn va bytes s
  | .tmapCbloadReadArrive c => Sys2Proof.Machine.execTmapCbloadReadArrive c s
  | .mbdoorWrite fn v => Sys2Proof.Machine.execMbdoorWrite fn v s
  | .launchCancel l => Sys2Proof.Machine.execLaunchCancel l s
  | .thermalRecovery => Sys2Proof.Machine.execThermalRecovery s
  | .wearIntegration t secs mv sense => Sys2Proof.Machine.execWearIntegration t secs mv sense s
  | .hbmScrub pa e => Sys2Proof.Machine.execHbmScrub pa e s
  | .clockStretch t periods => Sys2Proof.Machine.execClockStretch t periods s

end Sys2Proof.Machine
end

