-- ==== Sys2Proof/Machine/Fetch.lean ====
section
/-!
DEFINITION. A core's move (13 R330 to R332, R335, R343, R344; 02 R28, R39, R50, R55): which context issues, what comes
before its next bundle, and how the bundle at its program counter is fetched, decoded and issued.
-/
namespace Sys2Proof.Machine

/-! ### Which context of a core issues (R331, R332) -/

/-- The context standing on a core that issues next: the running one, else the first after the one that gave up the core. -/
def corePick (s : State) (k : Nat) : Option Nat :=
  match s.allCtx.find? fun c => hwOf c.cid / 4 = k && c.status = .running with
  | some c => some c.cid
  | none =>
    let last := (s.tile (k / 4)).lastCtx.toList.getD (k % 4) 0
    (List.range 4).findSome? fun i =>
      (s.allCtx.find? fun c => hwOf c.cid = 4 * k + (last + 1 + i) % 4 && choosable s c).map Ctx.cid

/-- Whether a core can issue at all: the device runs, and its tile is in service and awake with no margin step to decide (19 R449, R456,
R461; 20 R482, R483). -/
def coreLive (s : State) (k : Nat) : Bool :=
  let v := (s.tile (k / 4)).svc
  !s.dev.stopped && s.dev.boot.isNone && v.pst = .run && !v.due && (v.st = .enabled || v.st = .draining)

/-- The chosen context in focus and running. -/
def chooseCtx (s : State) (k cid : Nat) : State :=
  let s0 := flushCore s k
  let t := s0.tile (k / 4)
  let s1 := (s0.setTile { t with lastCtx := t.lastCtx.setIfInBounds (k % 4) (ctxNo cid) }).focus cid
  { s1 with cur := { s1.cur with status := .running } }

/-! ### Fetching a bundle -/

/-- What a fetch finds: the 64 bytes, a translation fault with SUB, or a page to walk. -/
inductive Fetched where
  | bytes (l : List Byte)
  | fault (sub : Nat)
  | miss (page : Nat)
  deriving DecidableEq, Repr

/-- The bundle's bytes, read with execute permission (R28, 18 R438, R439). -/
def fetchBytes (s : State) : Fetched :=
  match translate s s.cur.cid s.cur.bind.vf .x s.cur.pc with
  | .ok t => .bytes (physRead s t.pa 64 t.key)
  | .fault k => .fault k
  | .miss p => .miss p

/-- The control word of the bundle that comes up stands in the context; the last bundle is no longer the one a pre-emption
is taken after (R344). A bundle that does not repeat leaves no count and no iteration behind. -/
def bundleUp (c : Ctx) (ctl : BitVec 32) : Ctx :=
  if ctlRep ctl then { c with ctl := ctl, atSwp := false, crs := { c.crs with repi := c.nexti } }
  else { c with ctl := ctl, atSwp := false, crs := { c.crs with repi := 0 }, resumeAt := none, iss := { c.iss with count := 0 } }

/-- A repeated bundle of which RETT has left no iteration to issue (R50). -/
def repDone (c : Ctx) : Bool :=
  ctlRep c.ctl && (c.crs.repi != 0 || c.iss.count != 0) && c.iss.count ≤ c.crs.repi.toNat

/-- A bundle passed over. -/
def passOver (c : Ctx) : Ctx := { c with pc := c.pc + 64, crs := { c.crs with repi := 0 }, resumeAt := none, iss := Iss.none }

/-- A decoded bundle is issued: an operation alone in it, or none, is its instruction's meaning; several issue together. -/
def runBundle (ctl : BitVec 32) (ops : List Instr) (s : State) : Host.Outcome State Fault Refusal :=
  match ops with
  | [] => exec (.nop ctl) s
  | [i] => exec i s
  | _ => issue (ops.map fun i => ⟨i, slotRun i⟩) s

/-- The context in focus fetches and issues its next bundle. -/
def fetchIssue (s : State) : Host.Outcome State Fault Refusal :=
  match fetchBytes s with
  | .miss p =>
    .next (holdBundle ((startWalk s s.cur.cid s.cur.bind.vf p (dieOf s.cur.cid % 8)).updCur fun c => { c with ctl := 0 }) .stall)
  | .fault k =>
    if asleep s then .next (holdBundle (s.updCur fun c => { c with ctl := 0 }) .stall)
    else .next (trapBetween s { cls := 0x07, sub := k + 16, addr := s.cur.pc.toNat }).tick
  | .bytes l =>
    match decode l with
    | .error _ =>
      if asleep s then .next (holdBundle (s.updCur fun c => { c with ctl := 0 }) .stall)
      else .next (trapWhole s { cls := 0x01 }).tick
    | .ok ((ctl, ops), _) =>
      let t := s.updCur fun c => bundleUp c ctl
      if repDone t.cur then .next (t.updCur passOver).tick else runBundle ctl ops t

/-- The next move of the context in focus: results that are due, RETT's re-injection, a pending trap, a pre-emption, or its
next bundle. -/
def moveCtx (s : State) : Host.Outcome State Fault Refusal :=
  let c := s.cur
  if !(dueNow s c).isEmpty then execResultVisible c.cid s
  else match c.reinj with
    | some es => reinjectNow es s
    | none =>
      if trapDue s c then execTrapEntry c.cid s
      else if c.preempt && takeable s c then execContextSave c.cid s
      else fetchIssue s

/-- Whether a core has a context to issue. -/
def canIssue (s : State) (k : Nat) : Bool := coreLive s k && (corePick s k).isSome
/-- The cycle at which a core can issue next. -/
def issueCycle (s : State) (k : Nat) : Nat := max (s.tile (k / 4)).cyc ((s.tile (k / 4)).nextAt.toList.getD (k % 4) 0)
/-- No other core of the tile has something to issue in an earlier cycle: the cores of a tile run on one clock (R11, R199). -/
def coreFirst (s : State) (k : Nat) : Bool :=
  (List.range 4).all fun i =>
    let j := k / 4 * 4 + i
    j = k || !canIssue s j || issueCycle s k ≤ issueCycle s j

/-- Core `k` makes its next move; a core that cannot issue, or whose cycle has not come, lets a tick pass. -/
def issueOn (k : Nat) (s : State) : Host.Outcome State Fault Refusal :=
  if !coreLive s k || !coreFirst s k then .next s.tick
  else match corePick s k with
    | none => .next s.tick
    | some cid => moveCtx (chooseCtx (tileHears s cid) k cid)

/-- Place a bundle where the context in focus fetches next: its page mapped for execution and reading by range entry 0 of
its function, its tile awake with no margin step due, its core free for
it, and nothing in flight. -/
def placeBundle (s : State) (bytes : List Byte) : State :=
  let c := s.cur
  let pc : Word := c.pc &&& 0x00FFFFFFFFFFFFC0#64
  let k := hwOf c.cid / 4
  let page := pc.toNat / 4096
  let f := c.bind.vf
  let fetchPage : BitVec 256 := BitVec.ofNat 256 (0x8A + page * 2 ^ 32 + page * 2 ^ 80 + (page % 2 ^ 20) * 2 ^ 128)
  let pa := pc.toNat % 2 ^ 32
  let ctx : Ctx := { c with
    status := .running, pc := pc, fl := [], pends := [], preempt := false, reinj := none, sleepTill := none, wait := none,
    reads := [], iss := Iss.none, resumeAt := none, crs := { c.crs with repi := 0 } }
  let off (x : Ctx) : Ctx := if hwOf x.cid / 4 = k && x.status = .running then { x with status := .ready } else x
  let s1 : State := { s with cur := ctx, others := s.others.map off, turns := [.issue k], dev := { s.dev with stopped := false, boot := none } }
  let t := s1.tile (k / 4)
  let s2 := s1.setTile { t with
    nextAt := t.nextAt.setIfInBounds (k % 4) t.cyc, svc := { t.svc.freshWindows with st := .enabled, pst := .run } }
  let g := s2.fn f
  let s3 := s2.setFn f { g with ranges := put 0 fetchPage g.ranges, pwin := (Fn.reset 0).pwin }
  physWrite s3 pa bytes (List.replicate bytes.length true) none false

end Sys2Proof.Machine
end

