-- ==== Sys2Proof/Machine/Schedule.lean ====
section
/-!
DEFINITION. Whose move is next (log 4). The spec leaves open when the happenings of the device fall between the bundles of
its cores; the list of turns in the state says it. Where the list is empty one fixed order is taken: what is due in the
context in focus, then the first happening inside the device that has something to act on, then the core whose issue
comes first.
-/
namespace Sys2Proof.Machine

/-- A happening as it changes the state. -/
abbrev Act := State → Host.Outcome State Fault Refusal

/-! ### Happenings inside the device that may be due -/

/-- What may happen to a context. -/
def ctxMoves (c : Ctx) : List Act :=
  let n := c.cid
  [execResultVisible n, execSyncAnswer n, execTmapCbloadReadArrive n, execLoadEntryReturn n, execTokenWaitRelease n, execSleepDeadline n,
    execContextSave n, execContextRestore n]
  ++ c.win.cmds.flatMap (fun x => [execCopyStart n x.1, execCopySector n x.1 x.2.cursor 0])
  ++ (c.win.q.toList.zipIdx.flatMap fun x => x.1.rowsIn.map fun y => execStreamRowArrive n x.2 y.1)

/-- The first step of a queued MMA that has not been performed (R274). -/
def nextStep (t : Nat) (o : ArrOp) : List Act :=
  let d := descOf (o.ops.getD 2 0)
  match (List.range (d.mb * d.nb * d.kb)).find? fun n => !o.steps.contains n with
  | some n => [execMmaStep t o.id (n / d.kb / d.nb) (n / d.kb % d.nb) (n % d.kb)]
  | none => []

/-- What may happen in a tile. -/
def tileMoves (t : Tile) : List Act :=
  [execLeaseGrant t.tid, execBerthGrant t.tid, execChainOverrun t.tid]
  ++ t.arr.flatMap (fun o => nextStep t.tid o ++ [execMgathFill t.tid o.id, execMldbLoad t.tid o.id, execAccOpPerformed t.tid o.id])
  ++ [execChainComplete t.tid, execTileDrained t.tid, execTileWake t.tid, execMarginUpWindow t.tid, execMarginDownWindow t.tid, execBoostLeaseExpire t.tid]
  ++ (List.range 32).map fun b => execBankFree t.tid b

/-- What may happen to accesses on their way. -/
def accessMoves (s : State) : List Act :=
  (s.walks.map fun w => execPageWalkComplete w.id)
  ++ s.gops.flatMap (fun g => [execGlobalAccessPerformed g.id 0 0, execAtomicAtHome g.id])
  ++ (s.sops.map fun o => execSyncOpAtHome o.id)
  ++ (s.syncRegs.map fun o => execSyncOpAtHome o.id)
  ++ (s.posts.map fun p => execSectorPost p.id)
  ++ s.pipes.map fun p => execPipeRowArrive p.id

/-- The command a mailbox performs, by its operation code (R478). -/
def mailMove (f : Nat) (m : MailCmd) : List Act :=
  match m.op with
  | 1 => [execLoadCodeObject f]
  | 2 => [execUnload f]
  | 3 => [execDomainOpen f]
  | 4 => [execNodeReleaseCancel f]
  | 5 => [execReadMarginTable f]
  | 6 => [execAttestationQuote f]
  | 0x10 => [execKeyLoad f]
  | 0x11 => [execKeyRevoke f]
  | 0x12 => [execRaiseMinsvn f]
  | 0x13 => [execGuardBandHint f]
  | 0x14 => [execWriteSignerDigest f]
  | _ => []

/-- What may happen to launches, groups, domains and audits. -/
def launchMoves (s : State) : List Act :=
  (s.fns.flatMap fun f => match f.2.mail.cmd with
    | some m => mailMove f.1 m
    | none => [])
  ++ s.groups.flatMap (fun g => [execGroupReady g.id, execRestoreRequest g.id])
  ++ s.doms.flatMap (fun d => [execTaskCommit d.id] ++ (d.tasks.map fun t => execTaskDispatch d.id t.seq) ++ [execDomainComplete d.id])
  ++ s.launches.flatMap (fun l => [execCompletionRecordWrite l.id, execNodeFire l.id])
  ++ s.tickets.flatMap (fun t => [execTicketReserve t.id, execPreemptTimeout t.id])
  ++ s.audits.flatMap (fun a => [execAuditReplay a.id, execAuditCompare a.id])
  ++ [execLaunchPop]

/-- Every happening inside the device that may be due, those of the context in focus first. -/
def moves (s : State) : List Act :=
  ctxMoves s.cur ++ s.others.flatMap ctxMoves ++ accessMoves s ++ s.tiles.flatMap tileMoves ++ launchMoves s

/-! ### Whether a happening acts -/

/-- A number for the state of a context. -/
def statusStamp (c : Ctx) : Nat :=
  match c.status with
  | .free => 0
  | .loaded => 1
  | .ready => 2
  | .running => 3
  | .blocked _ => 4
  | .saving => 5
  | .saved => 6
  | .restoring => 7
  | .retired => 8

/-- Figures of a context that every happening to it moves. -/
def ctxStamp (c : Ctx) : List Nat :=
  [c.cid, statusStamp c, c.pc.toNat, c.fl.length, c.ldq.length, (c.ldq.filter LdEntry.returned).length, c.tok.toNat, c.pends.length,
    (c.reads.filter fun r => r.data.isSome).length, if (c.wait.any fun p => p.answer.isSome) then 1 else 0, c.win.head, c.pt,
    c.task.isSome.toNat, c.preempt.toNat, c.sleepTill.isSome.toNat]
  ++ c.win.cmds.flatMap (fun x => [x.2.state, x.2.cursor, x.2.done.length])
  ++ c.win.q.toList.flatMap (fun b => [b.arr.toNat, b.rowsIn.length])

/-- Figures of a tile. -/
def tileStamp (t : Tile) : List Nat :=
  [t.tid, t.arr.length, (t.arr.map fun o => o.steps.length).sum, t.lease.reqs.length, t.lease.holder.getD 0, t.lease.next.isSome.toNat,
    t.chain.isSome.toNat, (t.berths.map Prod.snd).sum, (t.banks.toList.filter fun b => b.owner.isSome).length,
    t.svc.seq, t.svc.bin, if t.svc.st = .fenced then 1 else 0, if t.svc.pst = .run then 1 else 0]

/-- Figures of the state that every happening with something to act on moves. -/
def stamp (s : State) : List Nat :=
  [s.uid, s.fresh, s.walks.length, s.walkFaults.length, s.tlb.length, s.gops.length, (s.gops.map fun g => g.parts.length).sum,
    s.hist.length, s.sops.length, s.syncRegs.length, s.answers.length, s.posts.length, (s.pipes.map fun p => p.free + (p.rows.filter PipeRow.arrived).length).sum,
    s.objs.length, s.launches.length, s.tickets.length, s.groups.length, s.audits.length, (s.launches.map Launch.issued).sum]
  ++ s.doms.flatMap (fun d => [d.id, d.tasks.length, d.committed, (d.tasks.filter fun t => t.ctx.isSome).length])
  ++ s.groups.flatMap (fun g => [g.id, g.members.length, g.st.ctorIdx, g.releasing.length])
  ++ (s.tickets.flatMap fun t => [t.id, t.groups.length, t.rows, t.die.getD 8])
  ++ (s.lqs.map fun q => q.2.head.toNat) ++ (s.fns.map fun f => f.2.mail.cmd.isSome.toNat)
  ++ s.allCtx.flatMap ctxStamp ++ s.tiles.flatMap tileStamp

/-- Whether a happening acts on a state whose figures are `n`: the figures move, or the step stops. -/
def acts (s : State) (n : List Nat) (a : Act) : Bool :=
  match a s with
  | .next t => stamp t != n
  | _ => true

/-! ### The move where no turn is given -/

/-- The core whose next issue comes first among some. -/
def earliest (s : State) : List Nat → Option Nat
  | [] => none
  | k :: r =>
    match earliest s r with
    | some j => if issueCycle s j < issueCycle s k then some j else some k
    | none => some k

/-- The cores on which contexts stand. -/
def coresUsed (s : State) : List Nat := (s.allCtx.filter Ctx.onCore).map fun c => hwOf c.cid / 4

/-- Cycles of a tile in which no core of it issues: its counter goes on; a tile with work to do is not idle (R460). -/
def idleTile (s : State) (t n : Nat) : State :=
  let x := s.tile t
  let c := x.cyc + n
  s.setTile { x with cyc := c, svc := if tileIdle s t then x.svc else { x.svc with sinceCyc := c } }

/-- `n` cycles pass in a tile whose cores have nothing to issue; where one has, nothing but a tick passes. -/
def passIdle (t n : Nat) (s : State) : State :=
  if (List.range 4).any fun j => canIssue s (4 * t + j) then s.tick else (idleTile s t n).tick

/-- One cycle of every tile with resident contexts. -/
def idleAll (s : State) : State := ((coresUsed s).map fun k => k / 4).eraseDups.foldl (fun st t => idleTile st t 1) s

/-- The move taken where the state gives no turn. -/
def defaultMove (s : State) : Host.Outcome State Fault Refusal :=
  match (moves s).find? (acts s (stamp s)) with
  | some a => a s
  | none =>
    match earliest s ((coresUsed s).filter (canIssue s)) with
    | some k => issueOn k s
    | none => .next (idleAll s).tick

/-- Whether an instruction is a happening of the device or of the world outside it, not the content of a bundle. -/
def isEvent (i : Instr) : Bool :=
  match i with
  | .nop _ => false
  | _ => (slotOf i).isNone

/-- The move a turn names. -/
def runTurn (t : Turn) (s : State) : Host.Outcome State Fault Refusal :=
  match t with
  | .issue k => issueOn k s
  | .event i => if isEvent i then exec i s else .fault .badTurn
  | .read r => .next (regReadBy r s).tick
  | .ticks n => .next { s with htime := s.htime + n }
  | .idle x n => .next (passIdle x n s)

/-- Whether a turn is a reset of the device. -/
def Turn.boots (t : Turn) : Bool :=
  match t with
  | .event (.deviceReset _) => true
  | _ => false

/-- One move: the turn the state gives, else the fixed order. A device that has stopped does nothing but wait for its reset (20 R482). -/
def nextMove (s : State) : Host.Outcome State Fault Refusal :=
  match s.turns with
  | [] => if s.dev.stopped then .next s.tick else defaultMove s
  | t :: r => if s.dev.stopped && !t.boots then .next { s with turns := r }.tick else runTurn t { s with turns := r }

end Sys2Proof.Machine
end

