-- ==== Sys2Proof/Machine/Step.lean ====
section
/-!
DEFINITION. One step of the machine: the next move (Machine/Schedule.lean), which issues one bundle of one core
(Machine/Fetch.lean) or performs one happening of the device.
-/
namespace Sys2Proof.Machine

/-- A word's next waiting operation is examined when a registration before it has gone (11 R299). -/
def settleHomes (old new : State) : State :=
  let gone := old.syncRegs.filter fun r => !(new.syncRegs.any fun x => x.id = r.id)
  ((gone.map SOp.word).eraseDups).foldl (fun t w => serveWord w t.syncRegs.length t) new

/-- A move with what follows it at the homes of sync words. -/
def withHomes (old : State) : Host.Outcome State Fault Refusal → Host.Outcome State Fault Refusal
  | .next t => .next (settleHomes old t)
  | o => o

/-- One step. -/
def step (s : State) : Host.Outcome State Fault Refusal := withHomes s (nextMove s)

/-- The state with an instruction's bundle stored where the next step fetches: the bits of `w` below `nbits`, the other bits
of the 64 bytes zero. -/
def State.withFetchWord (s : State) (nbits w : Nat) : State := placeBundle s (leBytes 64 (w % 2 ^ nbits))

end Sys2Proof.Machine
end

