-- ==== Sys2Proof/Safety.lean ====
section
/-!
DEFINITION. The words in which claims speak of the machine: runs of steps, the canonical form of the memories, and a
bundle of one operation: when nothing holds it, the state its operation is performed on, and what its retirement leaves
as it was.
-/
namespace Sys2Proof.Machine

/-! ### Runs -/

/-- Both memories are in canonical form: cells strictly rising, none equal to what an unlisted address reads as. -/
def State.memOk (s : State) : Bool := Memory.wf s.mem && Memory.wf s.spad

/-- The machine answers a next state. -/
def goesOn (s : State) : Prop := ∃ t, step s = .next t

/-- State `t` is reached from `s` by steps. -/
inductive Reaches : State → State → Prop where
  | refl (s : State) : Reaches s s
  | step (s t u : State) (h : Reaches s t) (k : step t = .next u) : Reaches s u

/-- A safe state: every state reached from it has canonical memories and goes on. -/
def Safe (s : State) : Prop := ∀ t, Reaches s t → t.memOk = true ∧ goesOn t

/-! ### A bundle of one operation -/

/-- A bundle opens: the scratch of the one before it is gone. -/
def opened (s : State) : State := { s with cur := openCtx s.cur 0 }

/-- Nothing holds the bundle of operation `i`: its kernel declares what it names (R515), its predicate lets it execute
(R39), no result is overdue and none more than 16 in flight (R42, R59), no SLEEP's deadline has still to come (R343), no queue it
pops waits for its head (R37), and the declared latencies are at least 1 (R57). -/
structure Opens (i : Instr) (s : State) : Prop where
  declares : declared s i = true
  executes : executes s.cur i = true
  room : s.cur.fl.length ≤ 16
  ontime : ∀ e ∈ s.cur.fl, e.overdue s.cur = false
  awake : asleep s = false
  supplied : popHold (opened s) i = none
  lats : ∀ n ∈ s.cur.lat.toList, 1 ≤ n

/-- Nothing holds it, and it neither repeats nor is a switch point (R30). -/
structure Ready (i : Instr) (s : State) : Prop extends Opens i s where
  once : ctlRep s.cur.ctl = false
  noSwitch : ctlSwp s.cur.ctl = false
  first : s.cur.crs.repi = 0

/-- The same as a test. -/
def readyB (i : Instr) (s : State) : Bool :=
  declared s i && executes s.cur i && !ctlRep s.cur.ctl && !ctlSwp s.cur.ctl && s.cur.crs.repi = 0
    && decide (s.cur.fl.length ≤ 16) && s.cur.fl.all (fun e => !e.overdue s.cur) && !asleep s
    && (popHold (opened s) i).isNone && s.cur.lat.toList.all fun n => decide (1 ≤ n)

/-- The state on which operation `i`, alone in its bundle, is performed. -/
def staged (i : Instr) (s : State) : State :=
  let o := opened s
  { o with cur := { o.cur with iss := { o.cur.iss with
      slot := (slotOf i).getD 0, rep := captureOp o i true, xcls := popClasses o.cur i } } }

/-- The state after the bundle of operation `i` has retired, where the operation left `u` (R53, R157). -/
def retired (i : Instr) (s u : State) : State := retire (opened s) u [i] []

/-- The context's queues after what the operation's sources pop (R37, R251). -/
def popped (i : Instr) (c : Ctx) : Ctx :=
  ((popsStream i).eraseDups).foldl popStream (if popsLdq i then popLdq c else c)

/-- A context without the counters of its phases (R365). -/
def noCounts (c : Ctx) : Ctx := { c with counts := [] }
/-- A tile without its counter of cycles and the counters of its service windows (R163, R456). -/
def noClock (x : Tile) : Tile :=
  { x with cyc := 0, nextAt := Vector.replicate 4 0,
           svc := { x.svc with since := 0, sinceCyc := 0, injSeen := 0, caught := false, trepl := 0, up := ⟨0, 0⟩, down := ⟨0, 0⟩, cool := none } }

/-- What every bundle leaves as it was outside its context: memory, scratchpads, everything on its way, every other context
but its counters, every tile but its clock. -/
structure OutsideKept (s t : State) : Prop where
  mem : t.mem = s.mem
  spad : t.spad = s.spad
  poison : t.poison = s.poison
  skey : t.skey = s.skey
  others : t.others.map noCounts = s.others.map noCounts
  tiles : ∀ n, noClock (t.tile n) = noClock (s.tile n)
  fns : t.fns = s.fns
  keys : t.keys = s.keys
  tlb : t.tlb = s.tlb
  walks : t.walks = s.walks
  gops : t.gops = s.gops
  hist : t.hist = s.hist
  sops : t.sops = s.sops
  syncRegs : t.syncRegs = s.syncRegs
  answers : t.answers = s.answers
  rels : t.rels = s.rels
  posts : t.posts = s.posts
  doms : t.doms = s.doms
  objs : t.objs = s.objs
  launches : t.launches = s.launches
  tickets : t.tickets = s.tickets
  groups : t.groups = s.groups
  pipes : t.pipes = s.pipes
  lqs : t.lqs = s.lqs
  lastLq : t.lastLq = s.lastLq
  parked : t.parked = s.parked
  turns : t.turns = s.turns
  audits : t.audits = s.audits
  dev : t.dev = s.dev

/-- What a bundle leaves as it was in its own context, apart from what is in flight, its queues and its program counter:
registers, codebook, accumulator blocks, tokens, moorings, maps, binding and task. -/
structure CtxKept (s t : State) : Prop where
  cid : t.cur.cid = s.cur.cid
  status : t.cur.status = s.cur.status
  regs : t.cur.regs = s.cur.regs
  cb : t.cur.cb = s.cur.cb
  acc : t.cur.acc = s.cur.acc
  tok : t.cur.tok = s.cur.tok
  tokBind : t.cur.tokBind = s.cur.tokBind
  tokWs : t.cur.tokWs = s.cur.tokWs
  moor : t.cur.moor = s.cur.moor
  view : t.cur.view = s.cur.view
  maps : t.cur.maps = s.cur.maps
  bind : t.cur.bind = s.cur.bind
  pends : t.cur.pends = s.cur.pends
  phase : t.cur.phase = s.cur.phase
  preempt : t.cur.preempt = s.cur.preempt
  task : t.cur.task = s.cur.task

/-- The queues and the control registers have changed by the operation's pops alone. -/
structure QueuesPopped (i : Instr) (s t : State) : Prop where
  ldq : t.cur.ldq = (popped i s.cur).ldq
  win : t.cur.win = (popped i s.cur).win
  crs : t.cur.crs = (popped i s.cur).crs

/-- The result of an operation that has gone into flight (R40): what it writes, what enters its slot's latch, its flags, when
it becomes visible; the mode its counts are checked under and the lowest of its checked lanes below the floor (R134, R335). -/
structure IsResult (e : Flight) (i : Instr) (s : State) (cls : Nat) (res : List Write) (latch : Latch) (fl : Flags)
    (below : Option Nat := none) : Prop where
  res : e.res = res
  latch : e.latch = latch
  flags : e.flags = fl
  slot : some e.slot = slotOf i
  due : e.due = s.cur.pt + resultLat s.cur cls (popClasses s.cur i)
  ready : e.ready = s.cur.pt + resultLat s.cur cls (popClasses s.cur i) + resultLate s.cur cls (popClasses s.cur i)
  pc : e.pc = s.cur.pc
  below : e.below = below
  mode : e.mode = sigMode s.cur

/-- The bundle of operation `i` completes with no result; the context goes on at `pc` after `gap` cycles. -/
def MovesTo (i : Instr) (s : State) (pc : Word) (gap : Nat) : Prop :=
  ∃ t, exec i s = .next t ∧ t.cur.fl = (s.cur.advance gap).fl ∧ t.cur.pc = pc ∧ t.cur.pt = s.cur.pt + gap
    ∧ CtxKept s t ∧ QueuesPopped i s t ∧ OutsideKept s t

/-- The bundle of operation `i` completes, its only effect a result of class `cls` that goes into flight; the context goes on
at `pc` after `gap` cycles. -/
def GivesAndMoves (i : Instr) (s : State) (pc : Word) (gap : Nat) (cls : Nat) (res : List Write) (latch : Latch) (fl : Flags)
    (below : Option Nat := none) : Prop :=
  ∃ t e, exec i s = .next t ∧ t.cur.fl = ({ s.cur with fl := s.cur.fl ++ [e] }.advance gap).fl
    ∧ IsResult e i s cls res latch fl below ∧ t.cur.pc = pc ∧ t.cur.pt = s.cur.pt + gap ∧ CtxKept s t ∧ QueuesPopped i s t
    ∧ OutsideKept s t

/-- The same where the context goes on at the next bundle in the next cycle. -/
def Gives (i : Instr) (s : State) (cls : Nat) (res : List Write) (latch : Latch) (fl : Flags) (below : Option Nat := none) : Prop :=
  GivesAndMoves i s (s.cur.pc + 64) 1 cls res latch fl below

/-- A scalar result whose count is 24 (R107, R140). -/
def GivesScalar (i : Instr) (s : State) (cls : Nat) (d : BitVec 5) (v : Word) (fl : Flags) : Prop :=
  Gives i s cls [.scalar d ⟨v, 24⟩] (.scalar ⟨v, 24⟩) fl
/-- A predicate result. -/
def GivesPred (i : Instr) (s : State) (cls : Nat) (d : BitVec 3) (b : Bool) (fl : Flags) : Prop :=
  Gives i s cls [.pred d b] .invalid fl

/-- The rows a vector operation writes and what enters its latch: with `t` set no row; under a write mask the elements the
mask leaves out stay as they were (R169). -/
def rowOut (f : VF) (s : State) (new : Row) : Row :=
  if f.t || f.k = 0 then new else mergeRows (s.cur.regs.mask f.k) new (s.cur.regs.row f.dst.toNat)
/-- A write mask needs a destination row of the result's tag (R169). -/
def maskFits (f : VF) (s : State) (tag : Byte) : Bool := f.t || f.k = 0 || (s.cur.regs.row f.dst.toNat).tag = tag
/-- Whether the write mask enables no lane of a row of the tag, so that no register is written (R193). -/
def maskEmpty (f : VF) (s : State) (tag : Byte) : Bool := f.k != 0 && noLane (s.cur.regs.mask f.k) (tagFmt tag)
/-- The flags of the lanes that the mask enables (R171). -/
def laneFlags (f : VF) (s : State) (tag : Byte) (l : List (Nat × Lane)) : Flags :=
  orFlags ((l.filter fun x => laneOn (s.cur.regs.mask f.k) (tagFmt tag) x.1).map Prod.snd)
/-- The lowest lane below the floor among those the mask enables, of an operation whose counts are checked (R134). -/
def laneBelow (f : VF) (s : State) (tag : Byte) (l : List (Nat × Lane)) (chk : Bool) : Option Nat :=
  if chk then belowFloor s.cur (fmtPrec (tagFmt tag))
    ((l.filter fun x => laneOn (s.cur.regs.mask f.k) (tagFmt tag) x.1).map fun x => (x.1, x.2.cnt))
  else none
/-- The bundle completes with row `new`, delivered under the write mask, as its only effect; under a mask without a lane the row
enters its slot's latch alone. `chk`: the counts of its lanes are checked against FLOOR. -/
def GivesRow (i : Instr) (f : VF) (s : State) (cls : Nat) (new : Row) (lanes : List (Nat × Lane)) (chk : Bool := false) : Prop :=
  Gives i s cls (if f.t || maskEmpty f s new.tag then [] else [.row f.dst.toNat (rowOut f s new)]) (.row (rowOut f s new))
    (laneFlags f s new.tag lanes) (laneBelow f s new.tag lanes chk)
/-- The same for a row given lane by lane. -/
def GivesLanes (i : Instr) (f : VF) (s : State) (cls : Nat) (tag : Byte) (l : List Lane) (chk : Bool := false) : Prop :=
  GivesRow i f s cls (rowOfLanes tag l) (numbered 0 l) chk
/-- The same where k is no write mask (R175, R187, R189). -/
def GivesWhole (i : Instr) (f : VF) (s : State) (cls : Nat) (new : Row) (fl : Flags) (below : Option Nat := none) : Prop :=
  Gives i s cls (if f.t then [] else [.row f.dst.toNat new]) (.row new) fl below

/-- The base row of an operation that produces part of a row: the destination where it has the tag, else zero (R170). -/
def oldRow (f : VF) (s : State) (tag : Byte) : Row :=
  if !f.t && (s.cur.regs.row f.dst.toNat).tag = tag then s.cur.regs.row f.dst.toNat
  else rowOfLanes tag (List.replicate (laneCount (tagFmt tag)) (Lane.zero (fmtPrec (tagFmt tag))))
/-- A row whose lanes from `i0` on are `l` and whose others are the base row's. -/
def partRow (f : VF) (s : State) (tag : Byte) (i0 : Nat) (l : List Lane) : Row :=
  rowOfLanes tag ((rowLanes (oldRow f s tag)).take i0 ++ l ++ (rowLanes (oldRow f s tag)).drop (i0 + l.length))
/-- The plane slots of the base row. -/
def oldSlots (f : VF) (s : State) (tag : Byte) : List Nat :=
  if !f.t && (s.cur.regs.row f.dst.toNat).tag = tag then slotsOf (s.cur.regs.row f.dst.toNat) else List.replicate 16 0
/-- The row and the lanes of a plane operation, element by element in every group (R186). -/
def planeRow (f : VF) (s : State) (v : Int → Int → Int) (a b : Row) : Row × List (Nat × Lane) :=
  let w := planeW s.cur
  let rd (r : Row) (g j : Nat) := readInt (planeSgn s.cur) w (plElem w (slotsOf r) g j)
  let groups := (List.range (planeGroups w)).map fun g =>
    (List.range 128).map fun j => intLane (planeSgn s.cur) (f.mod.getLsbD 3) w (v (rd a g j) (rd b g j))
  (rowOfSlots (tagPL w) (groups.flatMap fun l => plSlots w (l.map Lane.val)), groups.flatMap (numbered 0))

/-! ### Bundles whose operation has another effect than a result -/

/-- The bundle of operation `i` has closed on `u`, which its operation made of `s`: but for the pops, the cycles, the counters
and the program counter the machine is as `u`. -/
structure Closes (i : Instr) (s u t : State) : Prop where
  fl : t.cur.fl = (u.cur.advance 1).fl
  pc : t.cur.pc = s.cur.pc + 64
  pt : t.cur.pt = s.cur.pt + 1
  ctx : CtxKept u t
  queues : QueuesPopped i u t
  outside : OutsideKept u t

/-- The bundle of operation `i` completes with effect `u`. -/
def Does (i : Instr) (s u : State) : Prop := ∃ t, exec i s = .next t ∧ Closes i s u t
/-- The bundle completes with effect `u`, and then what follows its retirement happens (R343). -/
def DoesThen (i : Instr) (s u : State) (after : State → State) : Prop :=
  ∃ t, exec i s = .next (after t).tick ∧ Closes i s u t
/-- The bundle completes with effect `u` and a result. -/
def DoesAndGives (i : Instr) (s u : State) (cls : Nat) (res : List Write) (latch : Latch) (fl : Flags)
    (below : Option Nat := none) : Prop :=
  ∃ t e, exec i s = .next t ∧ Closes i s { u with cur := { u.cur with fl := u.cur.fl ++ [e] } } t
    ∧ IsResult e i s cls res latch fl below

/-- An event has the effect `u`; one tick of harbour time passes. -/
def Happens (i : Instr) (s u : State) : Prop := exec i s = .next u.tick

end Sys2Proof.Machine
end

