-- ==== Sys2Proof/Certificates/Slice0/Obligations.lean ====
section
/-!
DEFINITION. The statements put to the provers. `Sys2Proof.Claims` holds the shapes that several of them share; the words in
which they speak of a bundle (`Ready`, `Gives`, `MovesTo`) are in Sys2Proof/Safety.lean.
-/
namespace Sys2Proof.Claims

open Sys2Proof.Machine

/-! ### Shapes: slot S -/

/-- Scalar source `n` of operation `i`, a register or the entry that QSEL pops, is readable and holds `x` (R139, R140). -/
def Src (i : Instr) (s : State) (f : SRF) (n : Nat) (x : Scalar) : Prop := srcS (staged i s) f n = .ok x

/-- An operation of two scalar sources and one scalar result of count 24. -/
def TwoScalars (mk : Guard → SRF → Instr) (cls : Nat) (v : SRF → Word → Word → Word) (fl : SRF → Word → Word → Flags) : Prop :=
  ∀ g f s a b, Ready (mk g f) s → Src (mk g f) s f 1 a → Src (mk g f) s f 2 b →
    GivesScalar (mk g f) s cls f.sd (v f a.val b.val) (fl f a.val b.val)

/-- An operation of one scalar source and one scalar result of count 24. -/
def OneScalar (mk : Guard → SRF → Instr) (cls : Nat) (v : SRF → Word → Word) : Prop :=
  ∀ g f s a, Ready (mk g f) s → Src (mk g f) s f 1 a → GivesScalar (mk g f) s cls f.sd (v f a.val) 0

/-- No flag. -/
def noFlag : SRF → Word → Word → Flags := fun _ _ _ => 0
/-- DZ where the divisor is 0. -/
def dzFlag : SRF → Word → Word → Flags := fun _ _ b => if b = 0 then flDZ else 0

/-- The result of ADD, SUB or MUL of type TY, exact value `x` (R142). -/
def tyValue (f : SRF) (x : Int) : Word := (narrowTy (f.ext.toNat % 8) (f.ext.getLsbD 3) x).1
def tyFlag (f : SRF) (x : Int) : Flags := (narrowTy (f.ext.toNat % 8) (f.ext.getLsbD 3) x).2
/-- A source as TY reads it. -/
def tyRead (f : SRF) (a : Word) : Int := readInt (tySigned (f.ext.toNat % 8)) (tyBits (f.ext.toNat % 8)) a.toNat

/-- A shift or rotation by `n` from 0 to 63: sb[5:0], or ext[5:0] with ext[6] = 1 (R145). -/
def Shifts (mk : Guard → SRF → Instr) (v : Word → Nat → Word) : Prop :=
  (∀ g f s a b, Ready (mk g f) s → f.ext.getLsbD 6 = false → Src (mk g f) s f 1 a → Src (mk g f) s f 2 b →
      GivesScalar (mk g f) s 0 f.sd (v a.val (b.val.toNat % 64)) 0)
  ∧ (∀ g f s a, Ready (mk g f) s → f.ext.getLsbD 6 = true → Src (mk g f) s f 1 a →
      GivesScalar (mk g f) s 0 f.sd (v a.val (f.ext.toNat % 64)) 0)

/-- An operation of slot S on a register and the sign-extended immediate (R148). -/
def Immediate (mk : Guard → SIF → Instr) (v : Word → BitVec 38 → Word) : Prop :=
  ∀ g f s, Ready (mk g f) s → GivesScalar (mk g f) s 0 f.sd (v (s.cur.regs.scalar f.sa).val f.imm) 0

/-- An operation on two predicates, inverted as ext[0] and ext[1] say (R150). -/
def TwoPredicates (mk : Guard → SRF → Instr) (v : Bool → Bool → Bool) : Prop :=
  ∀ g f s, Ready (mk g f) s →
    GivesPred (mk g f) s 14 f.pd
      (v (s.cur.regs.pred f.pa != f.ext.getLsbD 0) (s.cur.regs.pred f.pb != f.ext.getLsbD 1)) 0

/-- A scalar FP result: its 32 bits, bits 63:32 clear, its count; checked against FLOOR (R82, R134, R151). -/
def GivesFp (i : Instr) (s : State) (cls : Nat) (d : BitVec 5) (r : FRes) (cnt : Nat) : Prop :=
  let x : Scalar := ⟨BitVec.ofNat 64 (r.bits % 2 ^ 32), BitVec.ofNat 5 (clampCount 24 r.bits cnt)⟩
  Gives i s cls [.scalar d x] (.scalar x) r.flags (belowFloor s.cur 24 [(0, x.cnt.toNat)])

/-- A scalar FP operation on two sources, rounded by ext[1:0]. -/
def TwoFp (mk : Guard → SRF → Instr) (cls : Nat) (v : BitVec 2 → FVal → FVal → FRes) (k : FRes → TOp → TOp → Nat) : Prop :=
  ∀ g f s a b, Ready (mk g f) s → Src (mk g f) s f 1 a → Src (mk g f) s f 2 b →
    GivesFp (mk g f) s cls f.sd (v (srRm f) (fp32 a).val (fp32 b).val)
      (k (v (srRm f) (fp32 a).val (fp32 b).val) (fp32 a) (fp32 b))

end Sys2Proof.Claims

namespace Sys2Proof.Claims

open Sys2Proof.Machine

/-! ### Shapes: slots A and B -/

/-- Operand `pos` of a vector operation, through any selector of R35, is readable and supplies `x`. -/
def VSrc (i : Instr) (inB : Bool) (s : State) (pos : Nat) (sel : BitVec 10) (x : Opd) : Prop := rdV (staged i s) inB pos sel = .ok x
/-- The same at a position that takes only a row (R516). -/
def VRow (i : Instr) (inB : Bool) (s : State) (pos : Nat) (sel : BitVec 10) (x : Row) : Prop := rdVRow (staged i s) inB pos sel = .ok x
/-- The same at a position that takes only a scalar (R191). -/
def VScalar (i : Instr) (inB : Bool) (s : State) (pos : Nat) (sel : BitVec 10) (x : Scalar) : Prop :=
  rdVScalar (staged i s) inB pos sel = .ok x
/-- The lanes a typed operation takes from an operand of the required tag, a scalar spread over them (R96). -/
def Lanes (tag : Byte) (x : Opd) (l : List Lane) : Prop := typed tag x = .ok l

/-- Two typed sources, one row of the same tag, lane by lane; `chk`: the counts of its lanes are checked against FLOOR (R134). -/
def VecTwo (mk : Guard → Bool → VF → Instr) (cls : Nat) (tag : VF → Byte) (v : VF → Lane → Lane → Lane) (chk : Bool := false) : Prop :=
  ∀ g inB f s a b la lb, Ready (mk g inB f) s → VSrc (mk g inB f) inB s 0 f.a a → VSrc (mk g inB f) inB s 1 f.b b →
    Lanes (tag f) a la → Lanes (tag f) b lb → maskFits f s (tag f) = true →
    GivesLanes (mk g inB f) f s cls (tag f) (zip2 (v f) la lb) chk
/-- Three typed sources. -/
def VecThree (mk : Guard → Bool → VF → Instr) (cls : Nat) (tag : VF → Byte) (v : VF → Lane → Lane → Lane → Lane)
    (chk : Bool := false) : Prop :=
  ∀ g inB f s a b c la lb lc, Ready (mk g inB f) s → VSrc (mk g inB f) inB s 0 f.a a → VSrc (mk g inB f) inB s 1 f.b b →
    VSrc (mk g inB f) inB s 2 f.c c → Lanes (tag f) a la → Lanes (tag f) b lb → Lanes (tag f) c lc → maskFits f s (tag f) = true →
    GivesLanes (mk g inB f) f s cls (tag f) (zip3 (v f) la lb lc) chk
/-- One typed source. -/
def VecOne (mk : Guard → Bool → VF → Instr) (cls : Nat) (tag : VF → Byte) (v : VF → Lane → Lane) : Prop :=
  ∀ g inB f s a la, Ready (mk g inB f) s → VSrc (mk g inB f) inB s 0 f.a a → Lanes (tag f) a la → maskFits f s (tag f) = true →
    GivesLanes (mk g inB f) f s cls (tag f) (la.map (v f))

/-- The integer tag WID names, and a lane as SGN reads it (R167). -/
def intTag (f : VF) : Byte := tagInt (vWid f)
def laneInt (f : VF) (x : Lane) : Int := readInt (vSigned f) (vBits f) x.val
/-- An exact integer result as a lane: modulo 2^n, or clamped with OF when SAT is set (R88, R173). -/
def outInt (f : VF) (x : Int) : Lane := intLane (vSigned f) (vSat f) (vBits f) x
/-- A lane of bits without count or flag. -/
def bitLane (f : VF) (x : Nat) : Lane := ⟨x % 2 ^ vBits f, 0, 0⟩

/-- Bitwise over 256 bytes: the tag of the first row source; a scalar spread over the lanes of that tag (R173). -/
def VecBits (mk : Guard → Bool → VF → Instr) (v : RowBits → RowBits → RowBits) : Prop :=
  ∀ g inB f s a b tag, Ready (mk g inB f) s → VSrc (mk g inB f) inB s 0 f.a a → VSrc (mk g inB f) inB s 1 f.b b →
    firstTag a b = .ok tag → maskFits f s (bitRow tag (v (bitsIn tag a) (bitsIn tag b))).tag = true →
    GivesRow (mk g inB f) f s 4 (bitRow tag (v (bitsIn tag a) (bitsIn tag b))) []

/-- A lane FP operation on two sources in the format FT names, with its count. -/
def fpTwo (v : Nat → BitVec 2 → FVal → FVal → FRes) (k : Nat → FRes → TOp → TOp → Nat) (f : VF) (a b : Lane) : Lane :=
  fLane (v (vFp f) (vRm f) (a.op (vFp f)).val (b.op (vFp f)).val)
    (k (vFp f) (v (vFp f) (vRm f) (a.op (vFp f)).val (b.op (vFp f)).val) (a.op (vFp f)) (b.op (vFp f)))

/-- A transcendental: every lane within the bound of R179, the choice a free value; the counter of free values moves on. -/
def VecTrans (mk : Guard → Bool → VF → Instr) (op : TransOp) : Prop :=
  ∀ g inB f s a la, Ready (mk g inB f) s → VSrc (mk g inB f) inB s 0 f.a a → Lanes (vFtag f) a la → maskFits f s (vFtag f) = true →
    GivesLanes (mk g inB f) f s 6 (vFtag f) ((numbered 0 la).map (transLane (vFp f) op s.fresh)) true

/-- The result of a transcendental on a finite operand other than zero: where the exact value is one of the format's, that value
without a flag; else NX, and the value beyond the format's an infinity, the one below its subnormals a zero, any other within 2
units in the last place of the exact value or that value rounded to nearest; VSIGM takes no value above 1.0 but a nearest one
(R179, R180). -/
def TransBound (op : TransOp) : Prop :=
  ∀ p pick neg m0 e0, m0 ≠ 0 → ((op = .rsqrt ∨ op = .log2) → neg = false) →
    let x := transApprox op neg m0 e0
    let near := fRound p 0 x.1 x.2.1 x.2.2 (!transExact op m0 e0)
    let r := fTrans p op pick (.num neg m0 e0)
    (x.2.1 ≠ 0 → transExact op m0 e0 = true → near.exact = true → r = near)
    ∧ (x.2.1 = 0 → r.bits = fZero p false ∧ (transExact op m0 e0 = true → r.flags = 0))
    ∧ (x.2.1 ≠ 0 → (transExact op m0 e0 && near.exact) = false → r.flags &&& flNX = flNX
        ∧ (r.bits = fInf p x.1 ∧ r.flags = flOF ||| flNX
          ∨ r.bits = fZero p x.1 ∧ r.flags = flUF ||| flNX ∧ (Nat.log2 x.2.1 : Int) + x.2.2 < -126 - ((p : Int) - 1)
          ∨ ∃ c, r.bits = fSign p x.1 + c
              ∧ (within2ulp p c x.2.1 x.2.2 = true ∧ (op = .sigm → c ≤ 127 * 2 ^ (p - 1))
                ∨ c = near.bits % 2 ^ (p + 7) ∨ near.bits % 2 ^ (p + 7) = fInf p false ∧ c = fMax p false)))

/-- A special operand of a transcendental gives these bits and flags (R180). -/
def TransSpecial (op : TransOp) (a : FVal) (bits : Nat → Nat) (fl : Flags) : Prop :=
  ∀ p pick, (fTrans p op pick a).bits = bits p ∧ (fTrans p op pick a).flags = fl

/-- A reduction of the lanes K enables, delivered to every lane or, with SD = 1, to a scalar (R188, R189). -/
def VecReduce (mk : Guard → Bool → VF → Instr) (ok : Byte → Bool) (v : VF → Row → Mask → Lane × Flags) : Prop :=
  ∀ g inB f s a, Ready (mk g inB f) s → VRow (mk g inB f) inB s 0 f.a a → ok a.tag = true →
    let r := v f a (s.cur.regs.mask f.k)
    let below := belowFloor s.cur (fmtPrec (tagFmt a.tag)) [(0, r.1.cnt)]
    if f.mod.getLsbD 3 then
      Gives (mk g inB f) s 9 [.scalar (f.dst.setWidth 5) (laneScalar a.tag (!f.mod.getLsbD 2) r.1)]
        (.scalar (laneScalar a.tag (!f.mod.getLsbD 2) r.1)) r.2 below
    else GivesWhole (mk g inB f) f s 9 (rowOfLanes a.tag (List.replicate (laneCount (tagFmt a.tag)) r.1)) r.2 below

/-- The fixed pairwise tree over the enabled lanes, and the result of an empty one (R188). -/
def treeResult (f : Nat → Lane → Lane → Lane) (g : Nat → Lane → Lane → Lane) (ef ei : Nat → Lane) (a : Row) (k : Mask) : Lane × Flags :=
  let fmt := tagFmt a.tag
  let leaves := (numbered 0 (rowLanes a)).map fun x => if laneOn k fmt x.1 then some x.2 else none
  let r := treeOf (if fmtPrec fmt = 0 then g (fmtBits fmt) else f (fmtPrec fmt)) 8 (leaves, 0)
  (r.1.getD (if fmtPrec fmt = 0 then ei (fmtBits fmt) else ef (fmtPrec fmt)), r.2)

/-- An operation on masks. -/
def MaskTwo (mk : Guard → Bool → VF → Instr) (v : Mask → Mask → Mask) : Prop :=
  ∀ g inB f s, Ready (mk g inB f) s →
    let m := v (s.cur.regs.mask (f.a.setWidth 3)) (s.cur.regs.mask (f.b.setWidth 3))
    Gives (mk g inB f) s 14 [.mask (f.dst.setWidth 3) m] (.mask m) 0

end Sys2Proof.Claims


namespace Sys2Proof.Claims

open Sys2Proof.Machine

/-! ### Shapes: slots L and W -/

/-- The address of an access: base, index where the form takes one and names it, and the signed offset (R194). -/
def address (s : State) (f : MXF) (useIndex : Bool) : Word :=
  if useIndex && f.index != 0 then
    (s.cur.regs.scalar f.base).val + (s.cur.regs.scalar f.index).val + f.off.signExtend 64
  else (s.cur.regs.scalar f.base).val + f.off.signExtend 64

/-- Where byte `j` of a scratchpad access at `a` lies. -/
def spadCell (s : State) (a j : Nat) : Nat := spadKey (tileOf s.cur.cid) (s.cur.spadOff (a + j))
/-- No posting operation of the context is on its way to a word of the access (R290). -/
def SpadQuiet (s : State) (a n : Nat) : Prop :=
  ∀ o ∈ s.sops, o.cid = s.cur.cid → o.answered = false →
    ∀ j < n, ¬ (o.word ≤ spadPlace (spadCell s a j) ∧ spadPlace (spadCell s a j) < o.word + 16)
/-- No access of the bundle has been performed ahead of it: it waits for no answer and stands at no barrier (R290, R317). -/
def NoneAhead (s : State) : Prop := wentOf s = []
/-- No store or SATOM of another core writes to a byte of the access in this cycle (R198, R199). -/
def OwnCycle (s : State) (a n : Nat) : Prop := ∀ o ∈ (cycleTile s s.cur).spOps, ∀ j < n, spadCell s a j ∉ o.op.keys
/-- The scratchpads of `t` are those of `s` but for the bytes the mask enables at `a`; a released bank takes none. -/
def SpadStored (s t : State) (a : Nat) (bytes : List Byte) (mask : List Bool) : Prop :=
  (∀ k, (∀ j < bytes.length, mask.getD j false = true → k ≠ spadCell s a j) → memByte t.spad k = memByte s.spad k)
  ∧ ∀ j < bytes.length, mask.getD j false = true → bankReleased s s.cur (a + j) = false →
      memByte t.spad (spadCell s a j) = bytes.getD j 0

/-- The bytes a load finds in the scratchpad: zero in a bank given up (R377); outside the ring of a stream register the byte before the
stores of the same cycle (R199), else the byte of the memory or, of a piece an engine wrote that has not reached the load, what
stood there before it (R318, R490). -/
def SpadFinds (s : State) (a n : Nat) (l : List Byte) : Prop :=
  l.length = n ∧ ∀ j < n,
    let t := s.tile (tileOf s.cur.cid)
    let k := spadCell s a j
    (bankReleased s s.cur (a + j) = true → l.getD j 0 = 0)
    ∧ (bankReleased s s.cur (a + j) = false → inRing s s.cur (a + j) = false →
        (∀ b, t.spCyc = cycNow s s.cur → look k t.spLog = some b → l.getD j 0 = b)
        ∧ ((t.spCyc ≠ cycNow s s.cur ∨ look k t.spLog = none) →
            l.getD j 0 = memByte s.spad k
            ∨ ∃ w ∈ s.hist, w.piece = spadPiece k ∧ ∃ b, w.before = some b ∧ l.getD j 0 = b.getD (k % 16) 0))

/-- A scalar load from the scratchpad. -/
def SpadLoads (mk : Guard → MXF → Instr) (n : Nat) : Prop :=
  ∀ g f s, Ready (mk g f) s →
    let v := staged (mk g f) s
    let a := spadAddr s.cur (address s f true) n
    SpadQuiet s a n → NoneAhead s →
    let x := loadedScalar n (f.mod.getLsbD 0) (loadBytes v v.cur a n) 24
    SpadFinds s a n (loadBytes v v.cur a n) ∧ DoesAndGives (mk g f) s (ldsFrom v a n) 10 [.scalar (f.data.setWidth 5) x] (.scalar x) 0
/-- The bundle completes with a store of masked bytes at `a` of the scratchpad, and nothing else; where no other core writes
there in the same cycle, they are the bytes stored. -/
def SpadWrites (i : Instr) (s : State) (a : Nat) (bytes : List Byte) (mask : List Bool) : Prop :=
  let v := staged i s
  NoneAhead s → ∃ t, exec i s = .next t ∧ Closes i s (storeBytes (needLines v v.cur a bytes.length) v.cur a bytes mask) t
    ∧ (OwnCycle s a bytes.length → SpadStored s t a bytes mask)
/-- A scalar store to the scratchpad. -/
def SpadStores (mk : Guard → MXF → Instr) (n : Nat) : Prop :=
  ∀ g f s x, Ready (mk g f) s → rdScalarSrc (staged (mk g f) s) 0 f.data = .ok x →
    SpadQuiet s (spadAddr s.cur (address s f true) n) n →
    SpadWrites (mk g f) s (spadAddr s.cur (address s f true) n) (leBytes n x.val.toNat) (allOnes n)

/-- A global address within 2^56 and aligned (R195, R206). -/
def GlobalAt (ea : Word) (align : Nat) : Prop := bitsOf 56 8 ea.toNat = 0 ∧ ea.toNat % align = 0

/-- The access of a load on its way: its parts and counts, the moorings and the acquired writes it is issued under, and over it what
a task's own buffer holds of it (R200, R207, R318, R412). -/
def loadAccess (s : State) (va n : Nat) (kind : GKind) (cnts : List Byte) (parts : List Part) : GOp :=
  { id := s.uid, agent := s.cur.cid, vf := s.cur.bind.vf, va := va, len := n, kind := kind, moors := s.cur.moorings,
    nAcq := s.cur.view.acqs.length, nKnown := s.cur.view.known.length, parts := parts, data := List.replicate n 0, cnts := cnts,
    overlay := ownBytes s parts false 0 ++ ownBytes s parts true n, poison := false, shBytes := [], shMask := []
    task := taskId s.cur }

/-- A global load: with room in the LDQ and every page translated, an entry is pushed at the LDQ's tail and the access sets off
toward its home; where it went ahead with the bundle's answered operation, the entry takes what it found (R290). -/
def GlobalLoads (mk : Guard → MXF → Instr) (form : MXF → Bool) (n align : Nat) (esz p : State → MXF → Nat) (demand isRow : Bool)
    (kind : State → MXF → Nat → GKind) : Prop :=
  ∀ g f s runs c, form f = true → Ready (mk g f) s → s.cur.ldq.length < 32 → GlobalAt (address s f true) align →
    let v := staged (mk g f) s
    let va := (address s f true).toNat
    let parts := dataParts va runs ++ c.2
    trAccess v .r va n = .ok runs → loadCounts v (esz s f) (p s f) demand va runs = .ok c → readSetFull v parts = false →
    (wentLoad s = none → Does (mk g f) s { v with
        uid := s.uid + 1
        gops := s.gops ++ [loadAccess s va n (kind s f s.uid) c.1 parts]
        cur := { v.cur with ldq := s.cur.ldq ++ [⟨s.uid, isRow, none, false, false⟩] } })
    ∧ (∀ w, wentLoad s = some w → Does (mk g f) s { v with cur := { v.cur with ldq := s.cur.ldq ++ [wentEntry w isRow] } })

/-- The access of a store on its way to memory. -/
def storeAccess (s : State) (va : Nat) (bytes : List Byte) (mask : List Bool) (parts : List Part) (shBytes : List Byte)
    (shMask : List Bool) : GOp :=
  { id := s.uid, agent := s.cur.cid, vf := s.cur.bind.vf, va := va, len := bytes.length, kind := .store bytes mask, moors := [],
    nAcq := 0, nKnown := 0, parts := parts, data := [], cnts := [], overlay := [], poison := false, shBytes := shBytes,
    shMask := shMask, task := taskId s.cur }

/-- A global store of masked bytes at an address that translates. One that writes a byte sets off: a speculative task's into
its buffer while the buffer has room, any other toward memory; an audited context's elements enter its signature. -/
def GlobalStores (i : Instr) (s : State) (ea : Word) (align : Nat) (bytes : List Byte) (mask : List Bool)
    (tagged : Option (Nat × List Nat)) (els : List (Nat × List Byte)) : Prop :=
  GlobalAt ea align → NoneAhead s → ∀ runs sh,
    let v := staged i s
    let va := ea.toNat
    let parts := (dataParts va runs ++ sh.1).filter (livePart mask sh.2.2)
    let seen (u : State) : State := auditAdd u s.cur.cid (els.map fun e => (va + e.1, e.2))
    trAccess v .w va bytes.length = .ok runs → storeShadow v .w mask tagged va 0 runs = .ok sh →
    (parts = [] → Does i s (seen v))
    ∧ (parts ≠ [] → speculative s.cur = false →
        Does i s (seen { v with
          uid := v.uid + 1
          gops := s.gops ++ [storeAccess v va bytes mask parts sh.2.1 sh.2.2]
          cur := { v.cur with view := { s.cur.view with own := ⟨s.uid, s.cur.bind.vf, va, bytes.length⟩ :: s.cur.view.own } } }))
    ∧ (∀ t r, parts ≠ [] → speculative s.cur = true → s.taskOf s.cur = some t → s.cur.task = some r →
        (bufLines (bufParts t.buf bytes sh.2.1 mask sh.2.2 parts)).length ≤ 64 →
        Does i s (seen (v.updTask r.dom r.seq fun u => { u with
          buf := bufParts t.buf bytes sh.2.1 mask sh.2.2 parts, bufAt := if u.buf.isEmpty then s.uid else u.bufAt })))

/-- A scalar global store. -/
def GlobalScalarStores (mk : Guard → MXF → Instr) (n : Nat) : Prop :=
  ∀ g f s x, Ready (mk g f) s → rdScalarSrc (staged (mk g f) s) 0 f.data = .ok x →
    GlobalStores (mk g f) s (address s f true) n (leBytes n x.val.toNat) (allOnes n) none [(0, leBytes n x.val.toNat)]

/-- An atomic on 32 or 64 bits of a location that translates and takes it: it is sent to its home, and with mod[3] an entry of
the LDQ waits for the old value. -/
def AtomicsSent (mk : Guard → MXF → Instr) (op : Nat) : Prop :=
  ∀ g f s x runs sh, Ready (mk g f) s → rdScalarSrc (staged (mk g f) s) 0 f.data = .ok x →
    let v := staged (mk g f) s
    let wide := f.mod.getLsbD 0
    let ret := f.mod.getLsbD 3
    let n := if wide then 8 else 4
    let ea := address s f (op != 7)
    let va := ea.toNat
    let cmp : Word := if op = 7 then (s.cur.regs.scalar f.index).val else 0
    (ret = true → s.cur.ldq.length < 32) → GlobalAt ea n → NoneAhead s → trAccess v .rw va n = .ok runs →
    (∀ y ∈ runs, paRegion y.2.2.pa = 1 → op = 0 ∨ op = 6 ∨ op = 7) → atomShadow v op n va ret runs = .ok sh →
    speculative s.cur = false →
    Does (mk g f) s { v with
      uid := v.uid + 1
      gops := s.gops ++ [{
        id := s.uid, agent := s.cur.cid, vf := s.cur.bind.vf, va := va, len := n,
        kind := .atomic op (f.mod.getLsbD 2) wide x.val cmp (if ret then some s.uid else none), moors := [], nAcq := 0, nKnown := 0,
        parts := dataParts va runs ++ sh.1, data := [], cnts := [BitVec.ofNat 8 (atomCount op runs)], overlay := [],
        poison := false, shBytes := sh.2.1, shMask := sh.2.2, task := taskId s.cur }]
      cur := { v.cur with
        ldq := if ret then s.cur.ldq ++ [⟨s.uid, false, none, false, false⟩] else s.cur.ldq
        view := { s.cur.view with own := ⟨s.uid, s.cur.bind.vf, va, n⟩ :: s.cur.view.own } } }

end Sys2Proof.Claims

namespace Sys2Proof.Claims

open Sys2Proof.Machine

/-! ### Shapes: slot M -/

/-- The value of a scalar register of the context. -/
def reg (s : State) (n : BitVec 5) : Word := (s.cur.regs.scalar n).val

/-- The context's tile has this chain, the context's own and open (R267, R273). -/
def ChainOpen (s : State) (ch : Chain) : Prop := s.myTile.chain = some ch ∧ ch.owner = s.cur.cid ∧ ch.ending = false
/-- The token an engine operation produces is not pending (R227). -/
def TokenFree (s : State) (f : ENF) : Prop := s.cur.tok.getLsbD f.tkd.toNat = false
/-- The blocks lie in the group's part and in no bank of the context's open chain (R284). -/
def BlocksFree (s : State) (l : List Nat) : Prop :=
  (∀ b ∈ l, b < s.cur.bind.acc) ∧ (inChainBank s l = false ∨ chainOf s s.cur ≠ some false)

/-- The bundle completes with an operation at the end of the array's queue and its token pending, the tile otherwise `t`. -/
def JoinsArray (i : Instr) (s : State) (f : ENF) (o : ArrOp) (t : Tile) : Prop := Does i s (queueArr (staged i s) f o t)

/-- An MMA under the checks of R271 and R273. -/
def MmaJoins (mk : Guard → ENF → Instr) (plane cb4 : Bool) : Prop :=
  ∀ g f s ch la lb, Ready (mk g f) s → s.cur.task = none → ChainOpen s ch → ch.i32 = plane → TokenFree s f →
    (cb4 = true → s.cur.cb.valid = true) →
    let sa := reg s (f.ext.extractLsb' 16 5)
    let sb := reg s (f.ext.extractLsb' 11 5)
    let sg := reg s (f.ext.extractLsb' 6 5)
    let d := descOf sg
    descOk sg plane = true → (∀ b ∈ d.blocks, b < s.cur.bind.acc ∧ ch.mask.getLsbD b = true) →
    (if f.ext.getLsbD 5 then s.myTile.gatherLat.head? = some la ∧ d.mb = 1 ∧ d.kb = la.kt else la = ⟨0, true, 0, d.kb, 1⟩) →
    (if f.ext.getLsbD 4 then s.myTile.bLat.head? = some lb ∧ d.kb = lb.kt ∧ d.nb = lb.nt else lb = ⟨0, true, 0, d.kb, d.nb⟩) →
    let t := s.myTile
    JoinsArray (mk g f) s f
      { arrOp (staged (mk g f) s) (mk anyGuard f) f [sa, sb, sg] with
        base := d.blocks.map fun b => (b, (look b ch.kno).getD 0), latA := la.id, latB := lb.id }
      { t with
        chain := some { ch with kno := d.blocks.foldl (fun l b => put b ((look b l).getD 0 + d.kb) l) ch.kno }
        lease := { t.lease with run := t.lease.run - 1 } }

/-! ### Shapes: slot C -/

/-- A copy command takes the window's entry at the tail, its token pending; rows for a stream register get their places (R226,
R251). -/
def TakesEntry (i : Instr) (s : State) (f : ENF) (ops : List Word) (bytes : Nat) (map : BitVec 768) (dst : Loc)
    (bar : Option CopyBar) : Prop :=
  s.cur.win.full = false → TokenFree s f →
    let v := staged i s
    let r := match dst with
      | .stream q _ => assignRows (lateAssign v.cur q) q (bytes / 256)
      | _ => (v.cur, none)
    let w := s.cur.win
    ∃ x : CopyCmd, Does i s { v with
        uid := v.uid + 1
        cur := bindToken { r.1 with win := { r.1.win with tail := (w.tail + 1) % 32, cmds := put (w.tail % 16) x w.cmds } } f.tkd.toNat s.uid }
      ∧ x.id = s.uid ∧ x.state = 1 ∧ x.ops = ops ∧ x.total = bytes / 32 ∧ x.cursor = 0 ∧ x.done = [] ∧ x.map = map
      ∧ x.waits = consumed s.cur f ∧ x.tk = f.tkd.toNat ∧ x.ringPos = r.2 ∧ x.pc = s.cur.pc
      ∧ x.bar = bar.map fun b => { b with cmd := s.uid }

/-- The barrier field of a command is fit: no barrier, or one that translates. -/
def BarIs (i : Instr) (s : State) (n : BitVec 5) (bar : Option CopyBar) : Prop :=
  copyBar (staged i s) n (reg s n) = .ok bar
/-- The barrier scalar a command captures: SBR 0 names none, and its slot is zero (R224, R233). -/
def barWord (s : State) (n : BitVec 5) : Word := if n = 0 then 0 else reg s n
/-- A location word is of a kind the command takes. -/
def LocIs (i : Instr) (s : State) (w : Word) (flat glob here remote stream : Bool) (l : Loc) : Prop :=
  (if flat then flatLoc else copyLoc) (staged i s) w glob here remote stream = .ok l
/-- A length from 32 to 1,048,576 in steps of 32, bits 63:32 as given (R248). -/
def LenIs (w : Word) (hi n : Nat) : Prop :=
  bitsOf 0 32 w.toNat = n ∧ bitsOf 32 32 w.toNat = hi ∧ n % 32 = 0 ∧ 32 ≤ n ∧ n ≤ 1048576

/-- What gather and scatter ask of the map, the list and the count (R245). -/
def ListIs (s : State) (m : BitVec 768) (si : Nat) (w n : Word) : Prop :=
  si ≤ 30 ∧ mapNdim m = 2 ∧ mapBox m 1 = 1
  ∧ (match parseLoc w with
     | .glob va => va % 2 = 0
     | .here off => off % 2 = 0 ∧ s.cur.bind.banks ≠ 0
     | _ => False)
  ∧ mapBox m 0 * mapEsize m % 32 = 0 ∧ 1 ≤ n.toNat ∧ n.toNat ≤ 65536 ∧ n.toNat * (mapBox m 0 * mapEsize m) ≤ 1048576

/-! ### Shapes: slot Y -/

/-- A sync address is well formed and stands for `a`. -/
def SyncIs (i : Instr) (s : State) (w : Word) (tagged : Bool) (a : SyncAt) : Prop := syncAddr (staged i s) w tagged = .ok a
/-- The operand n of R296: a register's low 32 bits, or the field. -/
def amount (s : State) (f : SYF) : Nat := if f.ext.getLsbD 16 then (reg s f.sb).toNat % 2 ^ 32 else bitsOf 0 16 f.ext.toNat

/-- A posting operation: it is sent, and the bundle completes (R291). -/
def Posts (mk : Guard → SYF → Instr) (tagged rel : Bool) (ok : State → SYF → Prop) (n : State → SYF → Nat) : Prop :=
  ∀ g f s a, Ready (mk g f) s → s.cur.task = none → ok s f → SyncIs (mk g f) s (reg s f.sa) tagged a →
    Does (mk g f) s (postSync (staged (mk g f) s) (mk anyGuard f) a (n s f) rel)

/-- The answer to the bundle's operation has come, and is no fault (R292, R293). -/
def Answer (s : State) (p : Pending) (code : Nat) : Prop :=
  s.cur.wait = some p ∧ p.answer = some code ∧ code ≠ 2 ∧ code ≠ 3 ∧ code ≠ 4 ∧ code ≠ 7

/-- An answered operation that waits: with its answer it completes and acquires what the answer brings (R294). -/
def AnsweredWait (mk : Guard → SYF → Instr) (tagged : Bool) : Prop :=
  ∀ g f s a p code, Ready (mk g f) s → s.cur.task = none → SyncIs (mk g f) s (reg s f.sa) tagged a → Answer s p code →
    Does (mk g f) s (takeAcq (staged (mk g f) s) p)
/-- One that tries: its predicate says whether it succeeded. -/
def AnsweredTry (mk : Guard → SYF → Instr) (tagged : Bool) : Prop :=
  ∀ g f s a p code, Ready (mk g f) s → speculative s.cur = false → SyncIs (mk g f) s (reg s f.sa) tagged a → Answer s p code →
    DoesAndGives (mk g f) s (takeAcq (staged (mk g f) s) p) 14 [.pred f.pd (code = 1)] .invalid 0
/-- A push to a queue: its status says whether there was room. -/
def QueuePush (mk : Guard → SYF → Instr) (cls : Nat) (ok : State → Prop) : Prop :=
  ∀ g f s a r p code, Ready (mk g f) s → ok s → rdRowSrc (staged (mk g f) s) 99 1 (syQSel f) = .ok r →
    SyncIs (mk g f) s (reg s f.sa) false a → Answer s p code → GivesPred (mk g f) s cls f.pd (code = 1) 0
/-- A pop or peek: on success the row, what the release carried, and a true status; else a false status alone. -/
def QueuePop (mk : Guard → SYF → Instr) (ok : State → Prop) : Prop :=
  ∀ g f s a p code, Ready (mk g f) s → ok s → SyncIs (mk g f) s (reg s f.sa) false a → Answer s p code →
    match p.row with
    | some r => DoesAndGives (mk g f) s (markPoison (takeAcq (staged (mk g f) s) p) p) 13
        [.row (syQSel f).toNat r, .pred f.pd true] .invalid 0
    | none => GivesPred (mk g f) s 13 f.pd false 0

end Sys2Proof.Claims

namespace Sys2Proof.Claims

open Sys2Proof.Machine

/-! ### Shapes: traps -/

/-- The bundle of operation `i` takes a precise trap: the cause with its slot and address, after what is in flight the operation
itself in the replay queue, with the answer it already has, to go on behind the bundle (R53, R338, R339). -/
def TrapsAt (i : Instr) (s : State) (cls sub addr : Nat) : Prop :=
  exec i s = .next (takeTrap (opened s) { cls := cls, sub := sub, addr := addr, slot := (slotOf i).getD 0 }
    (flightEntries s.cur (s.cur.pt + 1) ++ [({ captureOp (opened s) i false with due := bundleDue s.cur i } : Replay).withAns (keptAnswer s.cur)])
    ⟨s.cur.pc + 64, 0, 0⟩).tick

/-- A masked form whose result has the tag takes a format fault where the destination row has another (R169). -/
def NeedsTag (i : Instr) (f : VF) (s : State) (tag : Byte) : Prop := maskFits f s tag = false → TrapsAt i s 0x03 0 0
/-- The same of an operation on two typed sources. -/
def NeedsTagTwo (mk : Guard → Bool → VF → Instr) (tag : VF → Byte) : Prop :=
  ∀ g inB f s a b la lb, Ready (mk g inB f) s → VSrc (mk g inB f) inB s 0 f.a a → VSrc (mk g inB f) inB s 1 f.b b →
    Lanes (tag f) a la → Lanes (tag f) b lb → NeedsTag (mk g inB f) f s (tag f)
/-- Of one on three. -/
def NeedsTagThree (mk : Guard → Bool → VF → Instr) (tag : VF → Byte) : Prop :=
  ∀ g inB f s a b c la lb lc, Ready (mk g inB f) s → VSrc (mk g inB f) inB s 0 f.a a → VSrc (mk g inB f) inB s 1 f.b b →
    VSrc (mk g inB f) inB s 2 f.c c → Lanes (tag f) a la → Lanes (tag f) b lb → Lanes (tag f) c lc → NeedsTag (mk g inB f) f s (tag f)
/-- Of one on a single typed source. -/
def NeedsTagOne (mk : Guard → Bool → VF → Instr) (tag : VF → Byte) : Prop :=
  ∀ g inB f s a la, Ready (mk g inB f) s → VSrc (mk g inB f) inB s 0 f.a a → Lanes (tag f) a la → NeedsTag (mk g inB f) f s (tag f)
/-- Of a bitwise one. -/
def NeedsTagBits (mk : Guard → Bool → VF → Instr) : Prop :=
  ∀ g inB f s a b tag, Ready (mk g inB f) s → VSrc (mk g inB f) inB s 0 f.a a → VSrc (mk g inB f) inB s 1 f.b b →
    firstTag a b = .ok tag → NeedsTag (mk g inB f) f s tag
/-- Of one on a row that the operation takes, and whose result has a tag of its own. -/
def NeedsTagRow (mk : Guard → Bool → VF → Instr) (ok : VF → State → Row → Prop) (tag : VF → State → Row → Byte) : Prop :=
  ∀ g inB f s a, Ready (mk g inB f) s → VRow (mk g inB f) inB s 0 f.a a → ok f s a → NeedsTag (mk g inB f) f s (tag f s a)
/-- Of one on two rows. -/
def NeedsTagRows (mk : Guard → Bool → VF → Instr) (ok : VF → State → Row → Row → Prop) (tag : VF → State → Row → Byte) : Prop :=
  ∀ g inB f s a b, Ready (mk g inB f) s → VRow (mk g inB f) inB s 0 f.a a → VRow (mk g inB f) inB s 1 f.b b → ok f s a b →
    NeedsTag (mk g inB f) f s (tag f s a)

/-- An access whose address lies beyond 2^56 or is not aligned traps. -/
def AddressTraps (i : Instr) (s : State) (ea : Word) (align : Nat) : Prop :=
  (bitsOf 56 8 ea.toNat ≠ 0 → TrapsAt i s 0x07 1 ea.toNat)
  ∧ (bitsOf 56 8 ea.toNat = 0 → ea.toNat % align ≠ 0 → TrapsAt i s 0x04 0 ea.toNat)

/-! ### Shapes: words -/

/-- A bundle with one operation, in slot `n`, its fields as R28 and R32 place them. -/
def slotAt (n op pred operands : Nat) : Nat := 2 ^ (32 + 60 * n) * (op * 2 ^ 52 + pred * 2 ^ 49 + operands)

end Sys2Proof.Claims
open Sys2Proof Sys2Proof.Machine Sys2Proof.Claims

/-! ### Slot S -/

/-- ADD, SUB and MUL complete for every type and saturation, MULH and MULHN on 64 bits: the exact result narrowed as R142 says,
in class 0 or 1, and nothing else changes (R142, R143). -/
def Obligations.ScalarArithmeticCompletes : Prop :=
  TwoScalars .add 0 (fun f a b => tyValue f (tyRead f a + tyRead f b)) (fun f a b => tyFlag f (tyRead f a + tyRead f b))
  ∧ TwoScalars .sub 0 (fun f a b => tyValue f (tyRead f a - tyRead f b)) (fun f a b => tyFlag f (tyRead f a - tyRead f b))
  ∧ TwoScalars .mul 1 (fun f a b => tyValue f (tyRead f a * tyRead f b)) (fun f a b => tyFlag f (tyRead f a * tyRead f b))
  ∧ TwoScalars .mulh 1 (fun _ a b => BitVec.ofInt 64 (a.toInt * b.toInt / 2 ^ 64)) noFlag
  ∧ TwoScalars .mulhn 1 (fun _ a b => BitVec.ofNat 64 (a.toNat * b.toNat / 2 ^ 64)) noFlag

/-- Without SAT the 64-bit types wrap and raise nothing: ADD, SUB and MUL of TY 0 or 1 give the sum, difference and product
modulo 2^64 (R142). -/
def Sys2Proof.Claims.ScalarArithmeticWraps : Prop :=
  ∀ g f s a b, f.ext.toNat % 8 ≤ 1 → f.ext.getLsbD 3 = false →
    (Ready (.add g f) s → Src (.add g f) s f 1 a → Src (.add g f) s f 2 b → GivesScalar (.add g f) s 0 f.sd (a.val + b.val) 0)
    ∧ (Ready (.sub g f) s → Src (.sub g f) s f 1 a → Src (.sub g f) s f 2 b → GivesScalar (.sub g f) s 0 f.sd (a.val - b.val) 0)
    ∧ (Ready (.mul g f) s → Src (.mul g f) s f 1 a → Src (.mul g f) s f 2 b → GivesScalar (.mul g f) s 1 f.sd (a.val * b.val) 0)

/-- The divisions and remainders complete for every divisor: by zero they give −1, all ones and the dividend, with DZ; by
another the truncated quotient and its remainder, −2^63 by −1 included, without a flag (R143, R144). -/
def Obligations.DivisionNeverFaults : Prop :=
  TwoScalars .div 2 (fun _ a b => if b = 0 then BitVec.allOnes 64 else BitVec.ofInt 64 (a.toInt.tdiv b.toInt)) dzFlag
  ∧ TwoScalars .divn 2 (fun _ a b => if b = 0 then 0xFFFFFFFFFFFFFFFF else a / b) dzFlag
  ∧ TwoScalars .rem 2 (fun _ a b => if b = 0 then a else BitVec.ofInt 64 (a.toInt.tmod b.toInt)) dzFlag
  ∧ TwoScalars .remn 2 (fun _ a b => if b = 0 then a else a % b) dzFlag
  ∧ (∀ f : SRF, ∀ g s a b, a.val = 0x8000000000000000 → b.val = 0xFFFFFFFFFFFFFFFF →
      (Ready (.div g f) s → Src (.div g f) s f 1 a → Src (.div g f) s f 2 b →
        GivesScalar (.div g f) s 2 f.sd 0x8000000000000000 0)
      ∧ (Ready (.rem g f) s → Src (.rem g f) s f 1 a → Src (.rem g f) s f 2 b → GivesScalar (.rem g f) s 2 f.sd 0 0))

/-- The bitwise, selecting and counting integer operations complete with the results of R143. -/
def Sys2Proof.Claims.ScalarBitwiseCompletes : Prop :=
  TwoScalars .and 0 (fun _ a b => a &&& b) noFlag
  ∧ TwoScalars .or 0 (fun _ a b => a ||| b) noFlag
  ∧ TwoScalars .xor 0 (fun _ a b => a ^^^ b) noFlag
  ∧ TwoScalars .andn 0 (fun _ a b => a &&& ~~~b) noFlag
  ∧ TwoScalars .min 0 (fun _ a b => if b.slt a then b else a) noFlag
  ∧ TwoScalars .max 0 (fun _ a b => if a.slt b then b else a) noFlag
  ∧ TwoScalars .minn 0 (fun _ a b => if b.ult a then b else a) noFlag
  ∧ TwoScalars .maxn 0 (fun _ a b => if a.ult b then b else a) noFlag
  ∧ OneScalar .clz 0 (fun _ a => BitVec.ofNat 64 (clzN 64 a.toNat))
  ∧ OneScalar .ctz 0 (fun _ a => BitVec.ofNat 64 (ctzN 64 a.toNat))
  ∧ OneScalar .popc 0 (fun _ a => BitVec.ofNat 64 (popN 64 a.toNat))

/-- The shifts and the rotation complete in both forms, by an amount from 0 to 63 (R145). -/
def Sys2Proof.Claims.ScalarShiftsComplete : Prop :=
  Shifts .shl (fun a n => a <<< n) ∧ Shifts .shr (fun a n => a >>> n) ∧ Shifts .sar (fun a n => a.sshiftRight n)
  ∧ Shifts .rot (fun a n => a.rotateLeft n)

/-- The bitwise, selecting and counting integer operations complete with the results of R143. The shifts and the rotation
complete in both forms, by an amount from 0 to 63 (R145). -/
def Obligations.ScalarBitwiseAndShiftsComplete : Prop := ScalarBitwiseCompletes ∧ ScalarShiftsComplete

/-- SEL, LEA and the instructions with an immediate complete with the results of R146 to R148; the FP form of SEL moves bits
31:0 with the count. -/
def Sys2Proof.Claims.ScalarMovesComplete : Prop :=
  (∀ g f s a b, Ready (.sel g f) s → f.ext.getLsbD 0 = false → Src (.sel g f) s f 1 a → Src (.sel g f) s f 2 b →
      GivesScalar (.sel g f) s 0 f.sd (if s.cur.regs.pred f.pa then a.val else b.val) 0)
  ∧ (∀ g f s a b, Ready (.sel g f) s → f.ext.getLsbD 0 = true → Src (.sel g f) s f 1 a → Src (.sel g f) s f 2 b →
      let x := if s.cur.regs.pred f.pa then a else b
      let v : Word := (x.val.setWidth 32).setWidth 64
      let y : Scalar := ⟨v, BitVec.ofNat 5 (clampCount 24 v.toNat x.cnt.toNat)⟩
      Gives (.sel g f) s 0 [.scalar f.sd y] (.scalar y) 0)
  ∧ (∀ g f s a, Ready (.lea g f) s → f.ext.getLsbD 16 = true → Src (.lea g f) s f 1 a →
      GivesScalar (.lea g f) s 0 f.sd (a.val + (f.ext.extractLsb' 0 13).signExtend 64) 0)
  ∧ (∀ g f s a b, Ready (.lea g f) s → f.ext.getLsbD 16 = false → Src (.lea g f) s f 1 a → Src (.lea g f) s f 2 b →
      GivesScalar (.lea g f) s 0 f.sd
        (a.val + (b.val <<< (f.ext.extractLsb' 13 3).toNat) + (f.ext.extractLsb' 0 13).signExtend 64) 0)
  ∧ Immediate .addi (fun a m => a + m.signExtend 64)
  ∧ Immediate .andi (fun a m => a &&& m.signExtend 64)
  ∧ Immediate .ori (fun a m => a ||| m.signExtend 64)
  ∧ Immediate .xori (fun a m => a ^^^ m.signExtend 64)
  ∧ Immediate .movi (fun _ m => m.signExtend 64)
  ∧ Immediate .movhi (fun a m => ((m.extractLsb' 0 26).setWidth 64 <<< 38) ||| (a &&& 0x3FFFFFFFFF))

/-- The comparisons and the operations on predicates complete with the predicate of R149, R150 and R152. -/
def Obligations.PredicatesComplete : Prop :=
  (∀ g f s a b, Ready (.cmp g f) s → Src (.cmp g f) s f 1 a → Src (.cmp g f) s f 2 b →
      GivesPred (.cmp g f) s 14 f.pd (cmpInt (f.ext.toNat % 16) 64 a.val b.val) 0)
  ∧ (∀ g f s a b, Ready (.sfcmp g f) s → Src (.sfcmp g f) s f 1 a → Src (.sfcmp g f) s f 2 b →
      GivesPred (.sfcmp g f) s 14 f.pd (fCmp (f.ext.toNat % 16) (fp32 a).val (fp32 b).val).1
        (fCmp (f.ext.toNat % 16) (fp32 a).val (fp32 b).val).2)
  ∧ TwoPredicates .pand (fun x y => x && y)
  ∧ TwoPredicates .por (fun x y => x || y)
  ∧ TwoPredicates .pxor (fun x y => x != y)
  ∧ (∀ g f s, Ready (.pnot g f) s → GivesPred (.pnot g f) s 14 f.pd (!s.cur.regs.pred f.pa) 0)

/-- The scalar floating-point operations and conversions complete: value, flags and count as R109, R110 and R151 to R154 give
them, rounded by ext[1:0]. -/
def Obligations.ScalarFloatCompletes : Prop :=
  TwoFp .sfadd 3 (fAdd 24) (fun r a b => cntAdd 24 r [a, b])
  ∧ TwoFp .sfsub 3 (fSub 24) (fun r a b => cntAdd 24 r [a, b])
  ∧ TwoFp .sfmul 3 (fMul 24) (cntMul 24)
  ∧ TwoFp .sfdiv 2 (fDiv 24) (cntMul 24)
  ∧ (∀ g f s a b c, Ready (.sffma g f) s → Src (.sffma g f) s f 1 a → Src (.sffma g f) s f 2 b → Src (.sffma g f) s f 3 c →
      let r := fFma 24 (srRm f) (fp32 a).val (fp32 b).val (fp32 c).val
      GivesFp (.sffma g f) s 3 f.sd r (cntFma 24 r (fp32 a) (fp32 b) (fp32 c)))
  ∧ (∀ g f s a, Ready (.sfsqrt g f) s → Src (.sfsqrt g f) s f 1 a →
      let r := fSqrt 24 (srRm f) (fp32 a).val
      GivesFp (.sfsqrt g f) s 2 f.sd r (cntSqrt 24 r (fp32 a)))
  ∧ (∀ g f s a, Ready (.sfcvtI32 g f) s → Src (.sfcvtI32 g f) s f 1 a →
      let r := fToInt (srRm f) (cvtSigned f) (cvtBits f) (fp32 a).val
      GivesScalar (.sfcvtI32 g f) s 7 f.sd (extend (cvtSigned f) (cvtBits f) r.1) r.2)
  ∧ (∀ g f s a, Ready (.sfcvtF32 g f) s → Src (.sfcvtF32 g f) s f 1 a →
      GivesFp (.sfcvtF32 g f) s 7 f.sd (intToF 24 (srRm f) (readInt (cvtSigned f) (cvtBits f) a.val.toNat)) 24)

/-- SIGGET gives the count of its source as an integer; SIGSET copies all 64 bits with the count min(sb, 24), and 0 for an
infinity or a NaN in bits 31:0 (R105, R155). -/
def Sys2Proof.Claims.ScalarCountsComplete : Prop :=
  (∀ g f s a, Ready (.sigget g f) s → Src (.sigget g f) s f 1 a → GivesScalar (.sigget g f) s 0 f.sd (a.cnt.setWidth 64) 0)
  ∧ (∀ g f s a b, Ready (.sigset g f) s → Src (.sigset g f) s f 1 a → Src (.sigset g f) s f 2 b →
      let x : Scalar := ⟨a.val, BitVec.ofNat 5 (clampCount 24 (a.val.toNat % 2 ^ 32) (min b.val.toNat 24))⟩
      Gives (.sigset g f) s 0 [.scalar f.sd x] (.scalar x) 0)

/-- The direct transfers: BR always, BRP on its predicate, BRSIG on a count below its field, with 2 cycles to the next issue
when taken and 1 when not; CALL writes the address of the following bundle (R156 to R159). -/
def Sys2Proof.Claims.DirectTransfersComplete : Prop :=
  (∀ g f s, Ready (.br g f) s → MovesTo (.br g f) s (s.cur.pc + (f.off.signExtend 64 <<< 6)) 2)
  ∧ (∀ g f s, Ready (.brp g f) s →
      if s.cur.regs.pred f.pa != f.ext.getLsbD 0 then MovesTo (.brp g f) s (s.cur.pc + (f.off.signExtend 64 <<< 6)) 2
      else MovesTo (.brp g f) s (s.cur.pc + 64) 1)
  ∧ (∀ g f s, Ready (.brsig g f) s →
      if (s.cur.regs.scalar f.sa).cnt.toNat < f.sb.toNat then MovesTo (.brsig g f) s (s.cur.pc + (f.off.signExtend 64 <<< 6)) 2
      else MovesTo (.brsig g f) s (s.cur.pc + 64) 1)
  ∧ (∀ g f s, Ready (.call g f) s →
      GivesAndMoves (.call g f) s (s.cur.pc + (f.off.signExtend 64 <<< 6)) 2 0 [.scalar f.sa ⟨s.cur.pc + 64, 24⟩]
        (.scalar ⟨s.cur.pc + 64, 24⟩) 0)

/-- LOOP on 0 writes 0 and does not transfer; otherwise it writes sa − 1 and transfers when that is not zero; the written value
has class 0 and count 24 (R160). -/
def Obligations.LoopCountsDown : Prop :=
  ∀ g f s, Ready (.loop g f) s →
    let a := (s.cur.regs.scalar f.sa).val
    (a = 0 → GivesScalar (.loop g f) s 0 f.sa 0 0)
    ∧ (a = 1 → GivesScalar (.loop g f) s 0 f.sa 0 0)
    ∧ (1 < a.toNat → GivesAndMoves (.loop g f) s (s.cur.pc + (f.off.signExtend 64 <<< 6)) 2 0 [.scalar f.sa ⟨a - 1, 24⟩]
        (.scalar ⟨a - 1, 24⟩) 0)

/-- BRI and RET go to an aligned target, with 3 cycles to the next issue (R156, R157). -/
def Sys2Proof.Claims.IndirectTransfersComplete : Prop :=
  (∀ g f s a b, Ready (.bri g f) s → Src (.bri g f) s f 1 a → Src (.bri g f) s f 2 b → (a.val + (b.val <<< 6)).toNat % 64 = 0 →
      MovesTo (.bri g f) s (a.val + (b.val <<< 6)) 3)
  ∧ (∀ g f s a, Ready (.ret g f) s → Src (.ret g f) s f 1 a → a.val.toNat % 64 = 0 → MovesTo (.ret g f) s a.val 3)

/-- The direct transfers: BR always, BRP on its predicate, BRSIG on a count below its field, with 2 cycles to the next issue
when taken and 1 when not; CALL writes the address of the following bundle (R156 to R159). BRI and RET go to an aligned target,
with 3 cycles to the next issue (R156, R157). -/
def Obligations.TransfersComplete : Prop := DirectTransfersComplete ∧ IndirectTransfersComplete

/-- CREAD gives the register's value in class 15; in an audited group the value of a register that changes by itself also enters
the group's log (R468). CWRITE of a value the register's rule takes writes it when its bundle retires, and nothing else changes
(R161, R162). -/
def Obligations.ControlRegistersComplete : Prop :=
  (∀ g f s, Ready (.cread g f) s → (crLogged (crNumber f) = false ∨ auditOf s s.cur.cid = none) →
      GivesScalar (.cread g f) s 15 f.sd (crValue s (crNumber f)) 0)
  ∧ (∀ g f s, Ready (.cread g f) s → crLogged (crNumber f) = true →
      let n := crNumber f
      DoesAndGives (.cread g f) s (logDatum s s.cur.cid .read (readKey s.cur n) (.read (crNow s n))) 15
        [.scalar f.sd ⟨crValue s n, 24⟩] (.scalar ⟨crValue s n, 24⟩) 0)
  ∧ (∀ g f s a, Ready (.cwrite g f) s → Src (.cwrite g f) s f 1 a → crRejects (crNumber f) a.val = false →
      ∃ t, exec (.cwrite g f) s = .next t ∧ t.cur.crs = (popped (.cwrite g f) s.cur).crs.write (crNumber f) a.val
        ∧ t.cur.fl = (s.cur.advance 1).fl ∧ t.cur.pc = s.cur.pc + 64 ∧ t.cur.pt = s.cur.pt + 1 ∧ CtxKept s t
        ∧ t.cur.ldq = (popped (.cwrite g f) s.cur).ldq ∧ t.cur.win = (popped (.cwrite g f) s.cur).win ∧ OutsideKept s t)

/-- SEL, LEA and the instructions with an immediate complete with the results of R146 to R148; the FP form of SEL moves bits
31:0 with the count. SIGGET gives the count of its source as an integer; SIGSET copies all 64 bits with the count min(sb, 24),
and 0 for an infinity or a NaN in bits 31:0 (R105, R155). -/
def Obligations.ScalarMovesAndCountsComplete : Prop := ScalarMovesComplete ∧ ScalarCountsComplete
/-! ### Slots A and B -/

/-- The lane-wise integer operations complete for every width, signedness and saturation, in class 4, under the write mask
(R167 to R173). -/
def Obligations.VectorIntegerCompletes : Prop :=
  VecTwo .vadd 4 intTag (fun f a b => outInt f (laneInt f a + laneInt f b))
  ∧ VecTwo .vsub 4 intTag (fun f a b => outInt f (laneInt f a - laneInt f b))
  ∧ VecTwo .vmul 4 intTag (fun f a b => outInt f (laneInt f a * laneInt f b))
  ∧ VecTwo .vmulh 4 intTag (fun f a b => outInt f (laneInt f a * laneInt f b / (2 ^ vBits f : Nat)))
  ∧ VecThree .vmad 4 intTag (fun f a b c => outInt f (laneInt f a * laneInt f b + laneInt f c))
  ∧ VecTwo .vmin 4 intTag (fun f a b => outInt f (if laneInt f b < laneInt f a then laneInt f b else laneInt f a))
  ∧ VecTwo .vmax 4 intTag (fun f a b => outInt f (if laneInt f a < laneInt f b then laneInt f b else laneInt f a))
  ∧ VecTwo .vabsdiff 4 intTag (fun f a b => outInt f ((laneInt f a - laneInt f b).natAbs : Nat))
  ∧ VecTwo .vshl 4 intTag (fun f a b => bitLane f (a.val <<< (b.val % vBits f)))
  ∧ VecTwo .vshr 4 intTag (fun f a b => bitLane f (a.val >>> (b.val % vBits f)))
  ∧ VecTwo .vsar 4 intTag (fun f a b => bitLane f (wrapN (vBits f) (sextN (vBits f) a.val / (2 ^ (b.val % vBits f) : Nat))))
  ∧ VecOne .vpopc 4 intTag (fun f a => ⟨popN (vBits f) a.val, 0, 0⟩)

/-- VADD, VSUB and VMUL without SAT complete with the sum, difference and product modulo 2^n in each lane, whatever the
signedness, and raise no flag (R173). -/
def Sys2Proof.Claims.VectorLanesWrap : Prop :=
  (∀ g inB f s a b la lb, vSat f = false → Lanes (intTag f) a la → Lanes (intTag f) b lb → maskFits f s (intTag f) = true →
    let put (i : Instr) (v : Nat → Nat → Nat) : Prop := Ready i s → VSrc i inB s 0 f.a a → VSrc i inB s 1 f.b b →
      GivesLanes i f s 4 (intTag f) (zip2 (fun x y => ⟨v x.val y.val % 2 ^ vBits f, 0, 0⟩) la lb)
    put (.vadd g inB f) (fun x y => x + y)
    ∧ put (.vsub g inB f) (fun x y => x + (2 ^ vBits f - y % 2 ^ vBits f))
    ∧ put (.vmul g inB f) (fun x y => x * y))
  ∧ ∀ f : VF, vSat f = false → ∀ a b : Lane, a.val < 2 ^ vBits f → b.val < 2 ^ vBits f →
    outInt f (laneInt f a + laneInt f b) = ⟨(a.val + b.val) % 2 ^ vBits f, 0, 0⟩
    ∧ outInt f (laneInt f a - laneInt f b) = ⟨(a.val + 2 ^ vBits f - b.val) % 2 ^ vBits f, 0, 0⟩
    ∧ outInt f (laneInt f a * laneInt f b) = ⟨(a.val * b.val) % 2 ^ vBits f, 0, 0⟩

/-- The bitwise operations, VSEL and the moves of whole rows complete: the tag of the first row source, all 256 bytes
(R173, R175, R191). -/
def Sys2Proof.Claims.VectorBitwiseCompletes : Prop :=
  VecBits .vand (fun a b => a &&& b) ∧ VecBits .vor (fun a b => a ||| b) ∧ VecBits .vxor (fun a b => a ^^^ b)
  ∧ (∀ g inB f s a, Ready (.vnot g inB f) s → VRow (.vnot g inB f) inB s 0 f.a a → maskFits f s (bitRow a.tag (~~~a.val)).tag = true →
      GivesRow (.vnot g inB f) f s 4 (bitRow a.tag (~~~a.val)) [])
  ∧ (∀ g inB f s a b tag, Ready (.vsel g inB f) s → VSrc (.vsel g inB f) inB s 0 f.a a → VSrc (.vsel g inB f) inB s 1 f.b b →
      firstTag a b = .ok tag → (asRow tag a).tag = tag → (asRow tag b).tag = tag →
      GivesWhole (.vsel g inB f) f s 4 (mergeRows (s.cur.regs.mask f.k) (asRow tag a) (asRow tag b)) 0)
  ∧ (∀ g inB f s a, Ready (.vmov g inB f) s → VRow (.vmov g inB f) inB s 0 f.a a → maskFits f s a.tag = true →
      GivesRow (.vmov g inB f) f s 4 a [])

/-- The comparisons write the mask bits of the lanes that k enables, keep the others, and clear those beyond the elements; the
mask operations complete (R174, R178, R193). -/
def Sys2Proof.Claims.VectorMasksComplete : Prop :=
  (∀ g inB f s a b la lb, Ready (.vcmp g inB f) s → VSrc (.vcmp g inB f) inB s 0 f.a a → VSrc (.vcmp g inB f) inB s 1 f.b b →
      Lanes (intTag f) a la → Lanes (intTag f) b lb →
      let n := vBits f
      let r := (la.zip lb).map fun x => cmpInt (f.c.toNat % 16) n (BitVec.ofNat n x.1.val) (BitVec.ofNat n x.2.val)
      let bits := if n = 8 then pairAnd r else r
      let m := maskResult bits.length (maskOf bits) (s.cur.regs.mask (f.dst.setWidth 3)) (s.cur.regs.mask f.k)
      Gives (.vcmp g inB f) s 14 [.mask (f.dst.setWidth 3) m] (.mask m) 0)
  ∧ (∀ g inB f s a b la lb, Ready (.vfcmp g inB f) s → VSrc (.vfcmp g inB f) inB s 0 f.a a → VSrc (.vfcmp g inB f) inB s 1 f.b b →
      Lanes (vFtag f) a la → Lanes (vFtag f) b lb →
      let r := (la.zip lb).map fun x => fCmp (f.c.toNat % 16) (fDec (vFp f) x.1.val) (fDec (vFp f) x.2.val)
      let fl := (numbered 0 (r.map fun x => ⟨0, 0, x.2⟩)).filter fun x => laneOn (s.cur.regs.mask f.k) (tagFmt (vFtag f)) x.1
      let m := maskResult r.length (maskOf (r.map Prod.fst)) (s.cur.regs.mask (f.dst.setWidth 3)) (s.cur.regs.mask f.k)
      Gives (.vfcmp g inB f) s 14 [.mask (f.dst.setWidth 3) m] (.mask m) (orFlags (fl.map Prod.snd)))
  ∧ MaskTwo .kand (fun a b => a &&& b) ∧ MaskTwo .kor (fun a b => a ||| b) ∧ MaskTwo .knot (fun a _ => ~~~a)
  ∧ (∀ g inB f s, Ready (.kpopc g inB f) s →
      let v : Scalar := ⟨BitVec.ofNat 64 (popN 128 (s.cur.regs.mask (f.a.setWidth 3)).toNat), 24⟩
      Gives (.kpopc g inB f) s 14 [.scalar (f.dst.setWidth 5) v] (.scalar v) 0)

/-- The lane-wise floating-point operations complete in class 5: value, count and flags of each lane as R109 to R112, R176 and
R177 give them. -/
def Obligations.VectorFloatCompletes : Prop :=
  VecTwo .vfadd 5 vFtag (fpTwo fAdd (fun p r a b => cntAdd p r [a, b])) true
  ∧ VecTwo .vfsub 5 vFtag (fpTwo fSub (fun p r a b => cntAdd p r [a, b])) true
  ∧ VecTwo .vfmul 5 vFtag (fpTwo fMul cntMul) true
  ∧ VecThree .vffma 5 vFtag (fun f a b c =>
      let r := fFma (vFp f) (vRm f) (a.op (vFp f)).val (b.op (vFp f)).val (c.op (vFp f)).val
      fLane r (cntFma (vFp f) r (a.op (vFp f)) (b.op (vFp f)) (c.op (vFp f)))) true
  ∧ VecTwo .vfmin 5 vFtag (fun f => minMaxLane (vFp f) false)
  ∧ VecTwo .vfmax 5 vFtag (fun f => minMaxLane (vFp f) true)
  ∧ VecOne .vfabs 5 vFtag (fun f => signLane (vFp f) fun x => x % 2 ^ (vFp f + 7))
  ∧ VecOne .vfneg 5 vFtag (fun f => signLane (vFp f) fun x => x ^^^ 2 ^ (vFp f + 7))

/-- The transcendentals complete in class 6. A finite operand's result is within the bound of R179, an exact one raises no
flag and every other NX; which result within the bound a lane takes is the model's free value (Config.transPick, log 7), so this
holds for every choice. VRCP's exact value is enclosed by its approximation. The special operands give the table of R180. -/
def Obligations.TranscendentalsComplete : Prop :=
  VecTrans .vrcp .rcp ∧ VecTrans .vrsqrt .rsqrt ∧ VecTrans .vexp2 .exp2 ∧ VecTrans .vlog2 .log2 ∧ VecTrans .vsigm .sigm
  ∧ TransBound .rcp ∧ TransBound .rsqrt ∧ TransBound .exp2 ∧ TransBound .log2 ∧ TransBound .sigm
  ∧ (∀ neg m0 e0, m0 ≠ 0 →
      let x := transApprox .rcp neg m0 e0
      x.1 = neg ∧ x.2.2 + e0 = -160 ∧ x.2.1 * m0 ≤ 2 ^ 160 ∧ 2 ^ 160 < (x.2.1 + 1) * m0)
  ∧ (∀ n e, TransSpecial .rcp (.num n 0 e) (fun p => fInf p n) flDZ ∧ TransSpecial .rsqrt (.num n 0 e) (fun p => fInf p n) flDZ
      ∧ TransSpecial .exp2 (.num n 0 e) (fun p => 127 * 2 ^ (p - 1)) 0 ∧ TransSpecial .log2 (.num n 0 e) (fun p => fInf p true) flDZ
      ∧ TransSpecial .sigm (.num n 0 e) (fun p => 126 * 2 ^ (p - 1)) 0)
  ∧ (TransSpecial .rcp (.inf false) (fun p => fZero p false) 0 ∧ TransSpecial .rsqrt (.inf false) (fun p => fZero p false) 0
      ∧ TransSpecial .exp2 (.inf false) (fun p => fInf p false) 0 ∧ TransSpecial .log2 (.inf false) (fun p => fInf p false) 0
      ∧ TransSpecial .sigm (.inf false) (fun p => 127 * 2 ^ (p - 1)) 0)
  ∧ (TransSpecial .rcp (.inf true) (fun p => fZero p true) 0 ∧ TransSpecial .rsqrt (.inf true) fQNaN flNV
      ∧ TransSpecial .exp2 (.inf true) (fun p => fZero p false) 0 ∧ TransSpecial .log2 (.inf true) fQNaN flNV
      ∧ TransSpecial .sigm (.inf true) (fun p => fZero p false) 0)
  ∧ (∀ m e, m ≠ 0 → TransSpecial .rsqrt (.num true m e) fQNaN flNV ∧ TransSpecial .log2 (.num true m e) fQNaN flNV)
  ∧ (∀ op s, TransSpecial op (.nan s) fQNaN (if s then flNV else 0))

/-- The reductions complete in class 9 over the fixed pairwise tree of the lanes that k enables (R188, R189). -/
def Obligations.ReductionsComplete : Prop :=
  VecReduce .vrsum (fun t => isIntTag t || isFloatTag t) (fun f => treeResult
      (fun p a b => let r := fAdd p (vRm f) (a.op p).val (b.op p).val; fLane r (cntAdd p r [a.op p, b.op p]))
      (fun n a b => ⟨(a.val + b.val) % 2 ^ n, 0, 0⟩) (fun p => ⟨0, p, 0⟩) (fun _ => ⟨0, 0, 0⟩))
  ∧ VecReduce .vrmax (fun t => isIntTag t || isFloatTag t) (fun f => treeResult (fun p => minMaxLane p true)
      (pickInt true (vSigned f)) (fun p => ⟨fInf p true, 0, 0⟩) (fun n => ⟨wrapN n (intMin (vSigned f) n), 0, 0⟩))
  ∧ VecReduce .vrmin (fun t => isIntTag t || isFloatTag t) (fun f => treeResult (fun p => minMaxLane p false)
      (pickInt false (vSigned f)) (fun p => ⟨fInf p false, 0, 0⟩) (fun n => ⟨wrapN n (intMax (vSigned f) n), 0, 0⟩))
  ∧ (∀ g inB f s a, Ready (.vrsigmin g inB f) s → VRow (.vrsigmin g inB f) inB s 0 f.a a → isFloatTag a.tag = true →
      let fmt := tagFmt a.tag
      let m := ((numbered 0 (rowLanes a)).filter fun x => laneOn (s.cur.regs.mask f.k) fmt x.1).foldl (fun m x => min m x.2.cnt)
        (fmtPrec fmt)
      if f.mod.getLsbD 3 then
        Gives (.vrsigmin g inB f) s 9 [.scalar (f.dst.setWidth 5) ⟨BitVec.ofNat 64 m, 24⟩] (.scalar ⟨BitVec.ofNat 64 m, 24⟩) 0
      else GivesWhole (.vrsigmin g inB f) f s 9 (rowOfLanes tagI32 (List.replicate 64 ⟨m, 0, 0⟩)) 0)

/-- The conversions and the codebook complete: VCVT, VCBDEC and VCBENC produce the part they name and take the rest from the base
row (R170, R181 to R183). -/
def Sys2Proof.Claims.ConversionsComplete : Prop :=
  (∀ g inB f s a, Ready (.vcvt g inB f) s → VRow (.vcvt g inB f) inB s 0 f.a a → cvtSource a.tag = true →
      let sf := tagFmt a.tag
      let df := f.c.toNat % 16
      let m := min (laneCount sf) (laneCount df)
      let part := bitsOf 7 3 f.c.toNat
      let tag : Byte := BitVec.ofNat 8 df
      part < max (laneCount sf) (laneCount df) / m → maskFits f s tag = true →
      let l := (((rowLanes a).drop (if m < laneCount sf then part * m else 0)).take m).map
        (cvtLane sf df (!f.c.getLsbD 5) (!f.c.getLsbD 4) (f.c.getLsbD 6) (vRm f))
      let i0 := if m < laneCount df then part * m else 0
      GivesRow (.vcvt g inB f) f s 7 (partRow f s tag i0 l) (numbered i0 l) (sf != df))
  ∧ (∀ g inB f s a, Ready (.vcbdec g inB f) s → VRow (.vcbdec g inB f) inB s 0 f.a a → a.tag = tagCB4 → s.cur.cb.valid = true →
      maskFits f s tagBF16 = true →
      GivesLanes (.vcbdec g inB f) f s 7 tagBF16 ((((rowLanes a).drop (128 * bitsOf 7 3 f.c.toNat)).take 128).map fun x =>
        ⟨cbEntry s.cur.cb x.val, clampCount 8 (cbEntry s.cur.cb x.val) s.cur.cb.trust, 0⟩) true)
  ∧ (∀ g inB f s a, Ready (.vcbenc g inB f) s → VRow (.vcbenc g inB f) inB s 0 f.a a → a.tag = tagBF16 → s.cur.cb.valid = true →
      maskFits f s tagCB4 = true →
      let l := (numbered 0 (rowLanes a)).map fun x => encodeCb s.cur.cb (Config.freeNat (s.fresh + x.1)) x.2.val
      let i0 := 128 * bitsOf 7 3 f.c.toNat
      GivesRow (.vcbenc g inB f) f s 7 (partRow f s tagCB4 i0 l) (numbered i0 l))

/-- The bit-plane operations complete (R184 to R187). -/
def Sys2Proof.Claims.BitPlanesComplete : Prop :=
  (∀ g inB f s a, Ready (.vplane g inB f) s → VRow (.vplane g inB f) inB s 0 f.a a → (a.tag = tagI16 ∨ a.tag = tagI8) →
      let grp := f.c.toNat % 16
      let h := bitsOf 4 1 f.c.toNat
      let w := planeW s.cur
      ¬ (h = 1 ∧ a.tag = tagI16) → grp < planeGroups w → maskFits f s (tagPL w) = true →
      let l := (((rowLanes a).drop (128 * h)).take 128).map fun x =>
        intLane (planeSgn s.cur) (f.mod.getLsbD 3) w (readInt (planeSgn s.cur) (fmtBits (tagFmt a.tag)) x.val)
      let b := oldSlots f s (tagPL w)
      GivesRow (.vplane g inB f) f s 8
        (rowOfSlots (tagPL w) (b.take (grp * w) ++ plSlots w (l.map Lane.val) ++ b.drop (grp * w + w))) (numbered 0 l))
  ∧ (∀ g inB f s a, Ready (.vunplane g inB f) s → VRow (.vunplane g inB f) inB s 0 f.a a → a.tag = tagPL (planeW s.cur) →
      let grp := f.c.toNat % 16
      let h := bitsOf 4 1 f.c.toNat
      let w := planeW s.cur
      let n := if f.mod.getLsbD 0 then 8 else 16
      (f.mod.getLsbD 0 = true → w ≤ 8) → grp < planeGroups w →
      maskFits f s (if f.mod.getLsbD 0 then tagI8 else tagI16) = true →
      let l := (List.range 128).map fun j => (⟨wrapN n (readInt (planeSgn s.cur) w (plElem w (slotsOf a) grp j)), 0, 0⟩ : Lane)
      if f.mod.getLsbD 0 then GivesRow (.vunplane g inB f) f s 8 (partRow f s tagI8 (128 * h) l) (numbered (128 * h) l)
      else GivesLanes (.vunplane g inB f) f s 8 tagI16 l)
  ∧ (∀ g inB f s a b, a.tag = tagPL (planeW s.cur) → b.tag = tagPL (planeW s.cur) → maskFits f s (tagPL (planeW s.cur)) = true →
      let row (v : Int → Int → Int) := planeRow f s v a b
      (Ready (.vpadd g inB f) s → VRow (.vpadd g inB f) inB s 0 f.a a → VRow (.vpadd g inB f) inB s 1 f.b b →
        GivesRow (.vpadd g inB f) f s 8 (row (· + ·)).1 (row (· + ·)).2)
      ∧ (Ready (.vpsub g inB f) s → VRow (.vpsub g inB f) inB s 0 f.a a → VRow (.vpsub g inB f) inB s 1 f.b b →
        GivesRow (.vpsub g inB f) f s 8 (row (· - ·)).1 (row (· - ·)).2)
      ∧ (Ready (.vpand g inB f) s → VRow (.vpand g inB f) inB s 0 f.a a → VRow (.vpand g inB f) inB s 1 f.b b →
        GivesRow (.vpand g inB f) f s 8 (rowOfSlots (tagPL (planeW s.cur)) (lanesOf 128 16 (a.val &&& b.val).toNat)) []))
  ∧ (∀ g inB f s a, Ready (.vpcnt g inB f) s → VRow (.vpcnt g inB f) inB s 0 f.a a → a.tag = tagPL (planeW s.cur) →
      GivesWhole (.vpcnt g inB f) f s 8 (rowOfLanes tagI16 ((List.range 128).map fun i =>
        ⟨if i < planeGroups (planeW s.cur) * planeW s.cur then popN 128 ((slotsOf a).getD i 0 &&& (s.cur.regs.mask f.k).toNat) else 0,
          0, 0⟩)) 0)

/-- The conversions and the codebook complete: VCVT, VCBDEC and VCBENC produce the part they name and take the rest from the base
row (R170, R181 to R183). The bit-plane operations complete (R184 to R187). -/
def Obligations.ConversionsAndPlanesComplete : Prop := ConversionsComplete ∧ BitPlanesComplete

/-- The movements of lanes complete in class 9, VFILL in class 4 (R190, R191). -/
def Sys2Proof.Claims.LaneMovesComplete : Prop :=
  (∀ g inB f s a x, Ready (.vbcast g inB f) s → VRow (.vbcast g inB f) inB s 0 f.a a → movable a.tag = true →
      (rowLanes a)[f.c.toNat]? = some x → maskFits f s a.tag = true →
      GivesLanes (.vbcast g inB f) f s 9 a.tag (List.replicate (laneCount (tagFmt a.tag)) x))
  ∧ (∀ g inB f s a x, Ready (.vext g inB f) s → VRow (.vext g inB f) inB s 0 f.a a → tagFmt a.tag ≠ 8 →
      (rowLanes a)[bitsOf 0 1 f.mod.toNat * 1024 + f.c.toNat]? = some x →
      let v := laneScalar a.tag (isIntTag a.tag && !f.mod.getLsbD 2) x
      Gives (.vext g inB f) s 9 [.scalar (f.dst.setWidth 5) v] (.scalar v) 0)
  ∧ (∀ g inB f s a, Ready (.vext g inB f) s → VRow (.vext g inB f) inB s 0 f.a a → tagFmt a.tag = 8 →
      a.tag = tagPL (planeW s.cur) →
      let lane := bitsOf 0 1 f.mod.toNat * 1024 + f.c.toNat
      lane < 128 * planeGroups (planeW s.cur) →
      let v : Scalar := ⟨extend (planeSgn s.cur) (planeW s.cur) (plElem (planeW s.cur) (slotsOf a) (lane / 128) (lane % 128)), 24⟩
      Gives (.vext g inB f) s 9 [.scalar (f.dst.setWidth 5) v] (.scalar v) 0)
  ∧ (∀ g inB f s a b, Ready (.vins g inB f) s → VRow (.vins g inB f) inB s 0 f.a a → VScalar (.vins g inB f) inB s 1 f.b b →
      movable a.tag = true → f.c.toNat < (rowLanes a).length → maskFits f s a.tag = true →
      GivesLanes (.vins g inB f) f s 9 a.tag ((rowLanes a).set f.c.toNat (scalarLane (tagFmt a.tag) b)))
  ∧ (∀ g inB f s a b, Ready (.vperm g inB f) s → VRow (.vperm g inB f) inB s 0 f.a a → VRow (.vperm g inB f) inB s 1 f.b b →
      movable a.tag = true → (b.tag = tagI8 ∨ b.tag = tagI16) → (rowLanes a).length ≤ laneCount (tagFmt b.tag) →
      maskFits f s a.tag = true →
      GivesLanes (.vperm g inB f) f s 9 a.tag (((rowLanes b).take (rowLanes a).length).map fun i =>
        (rowLanes a).getD (i.val % (rowLanes a).length) (Lane.zero 0)))
  ∧ (∀ g inB f s a, Ready (.vshiftl g inB f) s → VRow (.vshiftl g inB f) inB s 0 f.a a → movable a.tag = true →
      f.mod.getLsbD 3 = false → f.c.toNat % 512 ≤ (rowLanes a).length → maskFits f s a.tag = true →
      let n := (rowLanes a).length
      let k := f.c.toNat % 512
      GivesLanes (.vshiftl g inB f) f s 9 a.tag
        ((List.replicate n (Lane.zero (fmtPrec (tagFmt a.tag)))).drop (n - k) ++ (rowLanes a).take (n - k)))
  ∧ (∀ g inB f s a b, Ready (.vshiftl g inB f) s → VRow (.vshiftl g inB f) inB s 0 f.a a → VRow (.vshiftl g inB f) inB s 1 f.b b →
      movable a.tag = true → b.tag = a.tag → f.mod.getLsbD 3 = true → f.c.toNat % 512 ≤ (rowLanes a).length →
      maskFits f s a.tag = true →
      let n := (rowLanes a).length
      let k := f.c.toNat % 512
      GivesLanes (.vshiftl g inB f) f s 9 a.tag ((rowLanes b).drop (n - k) ++ (rowLanes a).take (n - k)))
  ∧ (∀ g inB f s a, Ready (.viota g inB f) s → VScalar (.viota g inB f) inB s 0 f.a a → maskFits f s (intTag f) = true →
      GivesLanes (.viota g inB f) f s 9 (intTag f)
        ((List.range (2048 / vBits f)).map fun j => ⟨(a.val.toNat + j) % 2 ^ vBits f, 0, 0⟩))
  ∧ (∀ g inB f s a, Ready (.vfill g inB f) s → VScalar (.vfill g inB f) inB s 0 f.a a →
      maskFits f s (BitVec.ofNat 8 (1 + f.mod.toNat % 8)) = true →
      GivesLanes (.vfill g inB f) f s 4 (BitVec.ofNat 8 (1 + f.mod.toNat % 8))
        (List.replicate (laneCount (1 + f.mod.toNat % 8)) (scalarLane (1 + f.mod.toNat % 8) a)))

/-- VSIG, VSIGSET and VFMT complete: counts and tags as data (R138, R192). -/
def Sys2Proof.Claims.CountsAsDataComplete : Prop :=
  (∀ g inB f s a, Ready (.vsig g inB f) s → VRow (.vsig g inB f) inB s 0 f.a a → maskFits f s tagI8 = true →
      GivesRow (.vsig g inB f) f s 4 ⟨a.trust.setWidth 2048, 0, tagI8⟩ [])
  ∧ (∀ g inB f s a b, Ready (.vsigset g inB f) s → VRow (.vsigset g inB f) inB s 0 f.a a → VRow (.vsigset g inB f) inB s 1 f.b b →
      isFloatTag a.tag = true → maskFits f s a.tag = true →
      GivesLanes (.vsigset g inB f) f s 4 a.tag ((numbered 0 (rowLanes a)).map fun x =>
        let n := if fmtPrec (tagFmt a.tag) = 8 then bitsOf (4 * x.1) 4 b.val.toNat else bitsOf (8 * x.1) 8 b.val.toNat
        (⟨x.2.val, clampCount (fmtPrec (tagFmt a.tag)) x.2.val n, x.2.fl⟩ : Lane)))
  ∧ (∀ g inB f s a, Ready (.vfmt g inB f) s → VRow (.vfmt g inB f) inB s 0 f.a a →
      let tag : Byte := f.c.setWidth 8
      let p := fmtPrec (tagFmt tag)
      ¬ (isFloatTag a.tag = true ∧ isFloatTag tag = true ∧ a.tag ≠ tag) → maskFits f s tag = true →
      if a.tag = tag then GivesRow (.vfmt g inB f) f s 4 a []
      else if p = 0 then GivesRow (.vfmt g inB f) f s 4 (bitRow tag a.val) []
      else GivesLanes (.vfmt g inB f) f s 4 tag
        ((rowLanes ⟨a.val, 0, tag⟩).map fun x => (⟨x.val, clampCount p x.val p, x.fl⟩ : Lane)))

/-- A write mask into a destination row of another tag is a format fault in every form that takes a write mask, whatever its
sources: nothing is written, and the context takes the precise trap of its bundle, the operation in the replay queue (R169). -/
def Obligations.WriteMaskNeedsTag : Prop :=
  NeedsTagTwo .vadd intTag ∧ NeedsTagTwo .vsub intTag ∧ NeedsTagTwo .vmul intTag ∧ NeedsTagTwo .vmulh intTag
  ∧ NeedsTagTwo .vmin intTag ∧ NeedsTagTwo .vmax intTag ∧ NeedsTagTwo .vabsdiff intTag
  ∧ NeedsTagTwo .vshl intTag ∧ NeedsTagTwo .vshr intTag ∧ NeedsTagTwo .vsar intTag
  ∧ NeedsTagThree .vmad intTag ∧ NeedsTagOne .vpopc intTag
  ∧ NeedsTagTwo .vfadd vFtag ∧ NeedsTagTwo .vfsub vFtag ∧ NeedsTagTwo .vfmul vFtag ∧ NeedsTagTwo .vfmin vFtag
  ∧ NeedsTagTwo .vfmax vFtag ∧ NeedsTagThree .vffma vFtag ∧ NeedsTagOne .vfabs vFtag ∧ NeedsTagOne .vfneg vFtag
  ∧ NeedsTagOne .vrcp vFtag ∧ NeedsTagOne .vrsqrt vFtag ∧ NeedsTagOne .vexp2 vFtag ∧ NeedsTagOne .vlog2 vFtag
  ∧ NeedsTagOne .vsigm vFtag
  ∧ NeedsTagBits .vand ∧ NeedsTagBits .vor ∧ NeedsTagBits .vxor
  ∧ NeedsTagRow .vnot (fun _ _ _ => True) (fun _ _ a => a.tag) ∧ NeedsTagRow .vmov (fun _ _ _ => True) (fun _ _ a => a.tag)
  ∧ NeedsTagRow .vcvt (fun f _ a => cvtSource a.tag = true
        ∧ bitsOf 7 3 f.c.toNat < max (laneCount (tagFmt a.tag)) (laneCount (f.c.toNat % 16))
          / min (laneCount (tagFmt a.tag)) (laneCount (f.c.toNat % 16)))
      (fun f _ _ => BitVec.ofNat 8 (f.c.toNat % 16))
  ∧ NeedsTagRow .vcbdec (fun _ s a => a.tag = tagCB4 ∧ s.cur.cb.valid = true) (fun _ _ _ => tagBF16)
  ∧ NeedsTagRow .vcbenc (fun _ s a => a.tag = tagBF16 ∧ s.cur.cb.valid = true) (fun _ _ _ => tagCB4)
  ∧ NeedsTagRow .vplane (fun f s a => (a.tag = tagI16 ∨ a.tag = tagI8)
        ∧ ¬ (bitsOf 4 1 f.c.toNat = 1 ∧ a.tag = tagI16) ∧ f.c.toNat % 16 < planeGroups (planeW s.cur))
      (fun _ s _ => tagPL (planeW s.cur))
  ∧ NeedsTagRow .vunplane (fun f s a => a.tag = tagPL (planeW s.cur) ∧ (f.mod.getLsbD 0 = true → planeW s.cur ≤ 8)
        ∧ f.c.toNat % 16 < planeGroups (planeW s.cur))
      (fun f _ _ => if f.mod.getLsbD 0 then tagI8 else tagI16)
  ∧ (∀ mk ∈ [Instr.vpadd, .vpsub, .vpand], NeedsTagRows mk
        (fun _ s a b => a.tag = tagPL (planeW s.cur) ∧ b.tag = tagPL (planeW s.cur)) (fun _ s _ => tagPL (planeW s.cur)))
  ∧ NeedsTagRow .vbcast (fun f _ a => movable a.tag = true ∧ f.c.toNat < (rowLanes a).length) (fun _ _ a => a.tag)
  ∧ (∀ g inB f s a b, Ready (.vins g inB f) s → VRow (.vins g inB f) inB s 0 f.a a → VScalar (.vins g inB f) inB s 1 f.b b →
      movable a.tag = true → f.c.toNat < (rowLanes a).length → NeedsTag (.vins g inB f) f s a.tag)
  ∧ NeedsTagRows .vperm (fun _ _ a b => movable a.tag = true ∧ (b.tag = tagI8 ∨ b.tag = tagI16)
        ∧ (rowLanes a).length ≤ laneCount (tagFmt b.tag)) (fun _ _ a => a.tag)
  ∧ NeedsTagRow .vshiftl (fun f _ a => movable a.tag = true ∧ f.mod.getLsbD 3 = false ∧ f.c.toNat % 512 ≤ (rowLanes a).length)
      (fun _ _ a => a.tag)
  ∧ NeedsTagRows .vshiftl (fun f _ a b => movable a.tag = true ∧ b.tag = a.tag ∧ f.mod.getLsbD 3 = true
        ∧ f.c.toNat % 512 ≤ (rowLanes a).length) (fun _ _ a => a.tag)
  ∧ (∀ g inB f s a, Ready (.viota g inB f) s → VScalar (.viota g inB f) inB s 0 f.a a → NeedsTag (.viota g inB f) f s (intTag f))
  ∧ (∀ g inB f s a, Ready (.vfill g inB f) s → VScalar (.vfill g inB f) inB s 0 f.a a →
      NeedsTag (.vfill g inB f) f s (BitVec.ofNat 8 (1 + f.mod.toNat % 8)))
  ∧ NeedsTagRow .vsig (fun _ _ _ => True) (fun _ _ _ => tagI8)
  ∧ NeedsTagRows .vsigset (fun _ _ a _ => isFloatTag a.tag = true) (fun _ _ a => a.tag)
  ∧ NeedsTagRow .vfmt (fun f _ a => ¬ (isFloatTag a.tag = true ∧ isFloatTag (f.c.setWidth 8) = true ∧ a.tag ≠ f.c.setWidth 8))
      (fun f _ _ => f.c.setWidth 8)

/-- Without SAT the 64-bit types wrap and raise nothing: ADD, SUB and MUL of TY 0 or 1 give the sum, difference and product
modulo 2^64 (R142). VADD, VSUB and VMUL without SAT complete with the sum, difference and product modulo 2^n in each lane,
whatever the signedness, and raise no flag (R173). -/
def Obligations.ArithmeticWraps : Prop := ScalarArithmeticWraps ∧ VectorLanesWrap

/-- The bitwise operations, VSEL and the moves of whole rows complete: the tag of the first row source, all 256 bytes (R173,
R175, R191). The comparisons write the mask bits of the lanes that k enables, keep the others, and clear those beyond the
elements; the mask operations complete (R174, R178, R193). -/
def Obligations.VectorBitsAndMasksComplete : Prop := VectorBitwiseCompletes ∧ VectorMasksComplete

/-- The movements of lanes complete in class 9, VFILL in class 4 (R190, R191). VSIG, VSIGSET and VFMT complete: counts and tags
as data (R138, R192). -/
def Obligations.LaneMovesAndCountsComplete : Prop := LaneMovesComplete ∧ CountsAsDataComplete

/-! ### Slots L and W -/

/-- The scratchpad loads complete: the bytes of the scratchpad at the wrapped and aligned offset, as they stood before the stores of
the same cycle, become a row of the named tag with count 24, or a scalar (R197, R199, R211). -/
def Sys2Proof.Claims.ScratchpadLoadsComplete : Prop :=
  (∀ g f s, Ready (.ldsRow g f) s →
      let v := staged (.ldsRow g f) s
      let a := spadAddr s.cur (address s f true) 256
      SpadQuiet s a 256 → NoneAhead s →
      let r := loadedRow (loadTag s.cur f.mod) (loadBytes v v.cur a 256) fun _ => 24
      SpadFinds s a 256 (loadBytes v v.cur a 256) ∧ DoesAndGives (.ldsRow g f) s (ldsFrom v a 256) 10 [.row f.data.toNat r] (.row r) 0)
  ∧ SpadLoads .ldsW32 4
  ∧ SpadLoads .ldsW64 8

/-- The scratchpad stores complete: they write exactly the enabled bytes at the wrapped and aligned offset of the group's
allocation, and every other byte of every memory stays as it was (R197, R212, R213). -/
def Sys2Proof.Claims.ScratchpadStoresComplete : Prop :=
  (∀ g f s r, Ready (.stsRow g f) s → rdRowSrc (staged (.stsRow g f) s) 27 0 f.data = .ok r →
      (tagFmt r.tag = 8 → f.mod.toNat % 8 = 0) → SpadQuiet s (spadAddr s.cur (address s f true) 256) 256 →
      SpadWrites (.stsRow g f) s (spadAddr s.cur (address s f true) 256) (rowBytes r)
        (byteMask (s.cur.regs.mask (f.mod.setWidth 3)) (tagFmt r.tag)))
  ∧ SpadStores .stsW32 4
  ∧ SpadStores .stsW64 8

/-- SATOM completes: the old value of the word is its result; where no other core writes there in the same cycle, the operation's
value stands in the word's bytes, and every other byte stays as it was (R220). -/
def Sys2Proof.Claims.ScratchpadAtomicsComplete : Prop :=
  ∀ g f s x, Ready (.satom g f) s → rdScalarSrc (staged (.satom g f) s) 0 f.data = .ok x →
    let v := staged (.satom g f) s
    let k := satomKind f.mod.toNat
    let n := k.2.2
    let a := spadAddr s.cur (address s f false) n
    SpadQuiet s a n → NoneAhead s →
    let l := satomOp v v.cur a k x.val
    let u := spadStore (needLines v v.cur a n) v.cur l (if l.atom.isSome then some f.index else none)
    let old := leNat ((satomFinds v v.cur a n).getD u.2)
    let bytes := leBytes n (atomNew k.1 k.2.1 (8 * n) old (x.val.toNat % 2 ^ (8 * n)) 0)
    ∃ t e, exec (.satom g f) s = .next t
      ∧ Closes (.satom g f) s { u.1 with cur := { u.1.cur with fl := u.1.cur.fl ++ [e] } } t
      ∧ IsResult e (.satom g f) s 10 [.scalar f.index ⟨extend (k.2.1 && n = 4) (8 * n) old, 24⟩] .invalid 0
      ∧ (OwnCycle s a n → u.2 = (List.range n).map (fun j => memByte s.spad (spadCell s a j)) ∧ SpadStored s t a bytes (allOnes n))

/-- The global loads complete with an entry pushed at the tail of the LDQ and the access on its way; LDG.TAG demands a tagged
region (R126, R200, R210). -/
def Sys2Proof.Claims.GlobalLoadsComplete : Prop :=
  GlobalLoads .ldgRow (fun _ => true) 256 16 (fun s f => rowEsz (loadTag s.cur f.mod)) (fun s f => fmtPrec (tagFmt (loadTag s.cur f.mod)))
    false true (fun s f n => .loadRow n (loadTag s.cur f.mod))
  ∧ GlobalLoads .ldgW32 (fun _ => true) 4 4 (fun _ _ => 4) (fun _ _ => 24) false false (fun _ f n => .loadScalar n 4 (f.mod.getLsbD 0))
  ∧ GlobalLoads .ldgW64 (fun _ => true) 8 8 (fun _ _ => 0) (fun _ _ => 24) false false (fun _ _ n => .loadScalar n 8 false)
  ∧ GlobalLoads .ldgTag (fun f => f.mod = 0) 4 4 (fun _ _ => 4) (fun _ _ => 24) true false (fun _ _ n => .loadScalar n 4 false)
  ∧ GlobalLoads .ldgTag (fun f => f.mod != 0) 256 16 (fun _ f => rowEsz (f.mod.setWidth 8)) (fun _ f => fmtPrec (tagFmt (f.mod.setWidth 8)))
      true true (fun _ f n => .loadRow n (f.mod.setWidth 8))

/-- PFG completes without an effect; LDQ.DROP of at most as many entries as the LDQ holds discards that many from its head
(R215, R216). -/
def Sys2Proof.Claims.PrefetchAndDropComplete : Prop :=
  (∀ g f s, Ready (.pfg g f) s → Does (.pfg g f) s s)
  ∧ (∀ g f s, Ready (.ldqDrop g f) s → f.off.toNat ≤ s.cur.ldq.length →
      Does (.ldqDrop g f) s { s with cur := { s.cur with ldq := s.cur.ldq.drop f.off.toNat } })

/-- The global stores complete with their access on its way, or in the buffer of a speculative task; no memory changes yet. A
tagged store carries the counts of its elements (R124, R212 to R214, R412). -/
def Sys2Proof.Claims.GlobalStoresComplete : Prop :=
  (∀ g f s r, Ready (.stgRow g f) s → rdRowSrc (staged (.stgRow g f) s) 27 0 f.data = .ok r →
      (tagFmt r.tag = 8 → f.mod.toNat % 8 = 0) →
      let k := byteMask (s.cur.regs.mask (f.mod.setWidth 3)) (tagFmt r.tag)
      GlobalStores (.stgRow g f) s (address s f true) 16 (rowBytes r) k none (auditRow r k))
  ∧ GlobalScalarStores .stgW32 4
  ∧ GlobalScalarStores .stgW64 8
  ∧ (∀ g f s x, Ready (.stgTag g f) s → rdSel (staged (.stgTag g f) s) 27 0 f.data = .ok (.scalar x) →
      let n := clampCount 24 (x.val.toNat % 2 ^ 32) x.cnt.toNat
      GlobalStores (.stgTag g f) s (address s f true) 4 (leBytes 4 x.val.toNat) (allOnes 4) (some (4, [n]))
        [(0, leBytes 4 (auditFloat 24 (x.val.toNat % 2 ^ 32) n))])
  ∧ (∀ g f s r, Ready (.stgTag g f) s → rdSel (staged (.stgTag g f) s) 27 0 f.data = .ok (.row r) →
      r.tag = tagBF16 ∨ r.tag = tagF32 →
      let k := byteMask (s.cur.regs.mask (f.mod.setWidth 3)) (tagFmt r.tag)
      GlobalStores (.stgTag g f) s (address s f true) 16 (rowBytes r) k (some (rowEsz r.tag, (rowLanes r).map Lane.cnt)) (auditRow r k))

/-- The global atomics complete with the operation on its way to its home (R217, R218). -/
def Sys2Proof.Claims.AtomicsComplete : Prop :=
  AtomicsSent .atomAdd 0 ∧ AtomicsSent .atomMin 1 ∧ AtomicsSent .atomMax 2 ∧ AtomicsSent .atomAnd 3 ∧ AtomicsSent .atomOr 4
  ∧ AtomicsSent .atomXor 5 ∧ AtomicsSent .atomXchg 6 ∧ AtomicsSent .atomCas 7 ∧ AtomicsSent .atomFadd 8

/-- The scratchpad stores complete. Where no store or SATOM of the same cycle writes to a byte of the access (the order of those is
the model's choice, log 22), they write the enabled bytes at the wrapped and aligned offset of the group's allocation, but for
those in a bank given up, which keeps none (R377); a byte in the ring of a bound stream register is written too, which is the
model's choice (log 65); every other byte of every memory stays as it was (R197, R212, R213). SATOM completes: the old value of
the word is its result; under the same conditions the operation's value stands in the word's bytes, and every other byte stays as
it was (R220). -/
def Sys2Proof.Claims.ScratchpadWritesComplete : Prop := ScratchpadStoresComplete ∧ ScratchpadAtomicsComplete

/-- The global loads complete with an entry pushed at the tail of the LDQ and the access on its way; LDG.TAG demands a tagged
region (R126, R200, R210). PFG completes without an effect; LDQ.DROP of at most as many entries as the LDQ holds discards that
many from its head (R215, R216). -/
def Obligations.LoadQueueOperationsComplete : Prop := GlobalLoadsComplete ∧ PrefetchAndDropComplete

/-- The scratchpad loads complete with the bytes of the scratchpad at the wrapped and aligned offset, as they stood before the stores
of the same cycle (R197, R199, R211). The scratchpad stores complete: where no store or SATOM of the same cycle writes to a byte of
the access (the order of those is the model's choice, log 22), they write the enabled bytes at the wrapped and aligned offset of the
group's allocation, but for those in a bank given up, which keeps none (R377); a byte in the ring of a bound stream register is
written too, which is the model's choice (log 65); every other byte of every memory stays as it was (R197, R212, R213). SATOM
completes: the old value of the word is its result; under the same conditions the operation's value stands in the word's bytes, and
every other byte stays as it was (R220). -/
def Obligations.ScratchpadAccessesComplete : Prop := ScratchpadLoadsComplete ∧ ScratchpadWritesComplete

/-- The global stores complete with their access on its way, or in the buffer of a speculative task; no memory changes yet. A
tagged store carries the counts of its elements (R124, R212 to R214, R412). The global atomics complete with the operation on its
way to its home (R217, R218). -/
def Obligations.GlobalStoresAndAtomicsComplete : Prop := GlobalStoresComplete ∧ AtomicsComplete

/-! ### Slot M -/

/-- LEASE completes for the context that holds the lease; LEASE.TRY says whether it holds the lease, which it takes where nothing
asks for it; UNLEASE without a chain gives it up (R262 to R264). -/
def Sys2Proof.Claims.LeasesComplete : Prop :=
  (∀ g f s, Ready (.lease g f) s → s.cur.task = none → s.myTile.lease.holder = some s.cur.cid → Does (.lease g f) s s)
  ∧ (∀ g f s, Ready (.leaseTry g f) s → s.cur.task = none →
      let t := s.myTile
      let free := t.lease.holder.isNone && t.lease.next.isNone && t.lease.reqs.isEmpty
      (t.lease.holder = some s.cur.cid → GivesPred (.leaseTry g f) s 14 (f.ext.extractLsb' 45 3) true 0)
      ∧ (free = true →
          let l : Lease := { t.lease with
            holder := some s.cur.cid, run := 32, last := put (s.level s.cur.cid) (s.cur.cid % 16) t.lease.last }
          DoesAndGives (.leaseTry g f) s ((staged (.leaseTry g f) s).setTile { t with lease := l }) 14
            [.pred (f.ext.extractLsb' 45 3) true] .invalid 0)
      ∧ (t.lease.holder ≠ some s.cur.cid → free = false → GivesPred (.leaseTry g f) s 14 (f.ext.extractLsb' 45 3) false 0))
  ∧ (∀ g f s, Ready (.unlease g f) s → s.cur.task = none → chainOf s s.cur = none →
      Does (.unlease g f) s (endLease (staged (.unlease g f) s) s.cur.cid))

/-- CHAIN.BEGIN under the lease opens a chain over its blocks, all of the format it names, with the latches empty; CHAIN.END of
an open chain marks it as ending (R267, R268). -/
def Sys2Proof.Claims.ChainsComplete : Prop :=
  (∀ g f s, Ready (.chainBegin g f) s → s.cur.task = none → s.myTile.chain = none →
      s.myTile.lease.holder = some s.cur.cid →
      (∀ b ∈ maskBlocks (f.ext.extractLsb' 32 16), (s.cur.block b).isI32 = f.ext.getLsbD 30) →
      let t := s.myTile
      Does (.chainBegin g f) s (s.setTile { t with
        chain := some ⟨s.uid, s.cur.cid, f.ext.extractLsb' 32 16, f.ext.getLsbD 31, f.ext.getLsbD 30, s.cur.pc, cycNow s s.cur, false, [], [], []⟩
        gatherLat := [], bLat := [] }))
  ∧ (∀ g f s ch, Ready (.chainEnd g f) s → s.cur.task = none → ChainOpen s ch →
      let t := s.myTile
      Does (.chainEnd g f) s (s.setTile { t with chain := some { ch with ending := true } }))

/-- The operations on the array complete under the checks of R271, R273, R277, R278 and R284: each joins the end of the array's
queue, with its operands captured and its token pending; a fill of a latch becomes the newest. -/
def Sys2Proof.Claims.ArrayOperationsComplete : Prop :=
  MmaJoins .mmaBf16 false false
  ∧ MmaJoins .mmaCb4 false true
  ∧ MmaJoins .mmaPlane true false
  ∧ (∀ g f s ch r, Ready (.mgath g f) s → s.cur.task = none → ChainOpen s ch → TokenFree s f →
      rdRowSrc (staged (.mgath g f) s) 99 1 (f.ext.extractLsb' 11 10) = .ok r → r.tag = tagI16 →
      let sa := reg s (f.ext.extractLsb' 6 5)
      let sg := reg s (f.ext.extractLsb' 1 5)
      let kg := bitsOf 16 8 sg.toNat + 1
      bitsOf 0 16 sg.toNat ≠ 0 → kg ≤ 32 → bitsOf 24 24 sg.toNat % 64 = 0 → bitsOf 48 16 sg.toNat = 0 →
      let t := s.myTile
      JoinsArray (.mgath g f) s f { arrOp (staged (.mgath g f) s) (.mgath anyGuard f) f [sa, sg] with rows := [r] }
        { t with gatherLat := ⟨s.uid, false, 0, kg, 1⟩ :: t.gatherLat })
  ∧ (∀ g f s ch, Ready (.mldb g f) s → s.cur.task = none → ChainOpen s ch → TokenFree s f →
      let sb := reg s (f.ext.extractLsb' 16 5)
      let sg := reg s (f.ext.extractLsb' 11 5)
      let nl := bitsOf 4 4 sg.toNat + 1
      let kl := bitsOf 8 8 sg.toNat + 1
      bitsOf 0 4 sg.toNat = 0 → bitsOf 16 48 sg.toNat = 0 → kl * nl ≤ 32 →
      let t := s.myTile
      JoinsArray (.mldb g f) s f (arrOp (staged (.mldb g f) s) (.mldb anyGuard f) f [sb, sg])
        { t with bLat := ⟨s.uid, false, 0, kl, nl⟩ :: t.bLat })
  ∧ (∀ g f s, Ready (.accZero g f) s → s.cur.task = none → BlocksFree s (maskBlocks (f.ext.extractLsb' 5 16)) → TokenFree s f →
      JoinsArray (.accZero g f) s f (arrOp (staged (.accZero g f) s) (.accZero anyGuard f) f []) s.myTile)
  ∧ (∀ g f s, Ready (.accWr g f) s → s.cur.task = none → BlocksFree s ((accPlaces f).map Prod.fst) → TokenFree s f →
      let rows := ((accPlaces f).flatMap fun p => (List.range (accHeight f)).map (· + p.2)).map s.cur.regs.row
      (∀ r ∈ rows, r.tag = accTag f) →
      JoinsArray (.accWr g f) s f { arrOp (staged (.accWr g f) s) (.accWr anyGuard f) f [] with rows := rows } s.myTile)

/-- ACC.RD completes once nothing before it touches its blocks: the rows they drain into go into flight as one result, with a
token that completes when they become visible. CBLOAD of a well-formed table at an aligned scratchpad offset loads the codebook
(R279, R282, R283). -/
def Sys2Proof.Claims.AccumulatorReadsComplete : Prop :=
  (∀ g f s, Ready (.accRd g f) s → s.cur.task = none → BlocksFree s ((accPlaces f).map Prod.fst) →
      waitsDone s.cur (consumed s.cur f) = true → arrBefore s.myTile.arr s.cur.cid ((accPlaces f).map Prod.fst) = false →
      inChainBank s ((accPlaces f).map Prod.fst) = false → TokenFree s f →
      (∀ p ∈ accPlaces f, (s.cur.block p.1).isI32 = (accFmt f = 2)) →
      let rows := (accPlaces f).flatMap fun p => drainBlock f (s.cur.block p.1) p.2
      ∃ t e, exec (.accRd g f) s = .next t ∧ e.tkop = some s.uid
        ∧ IsResult e (.accRd g f) s 11 (rows.map fun r => .row r.1 r.2.1) .invalid (rows.foldl (fun a r => a ||| orFlags r.2.2) 0)
            (lowestBelow s.cur (fmtPrec (tagFmt (accTag f))) rows)
        ∧ Closes (.accRd g f) s { s with cur := bindToken { s.cur with fl := s.cur.fl ++ [e] } f.tkd.toNat s.uid } t)
  ∧ (∀ g f s off cb, Ready (.cbload g f) s → s.cur.task = none → TokenFree s f →
      parseLoc (reg s (f.ext.extractLsb' 16 5)) = .here off → s.cur.bind.banks ≠ 0 → off % 64 = 0 →
      parseCodebook (localRead s s.cur off 64) = some cb →
      Does (.cbload g f) s { s with cur := { s.cur with cb := cb, tokWs := drp f.tkd.toNat s.cur.tokWs } })
  ∧ (∀ g f s va r b cb, Ready (.cbload g f) s → s.cur.task = none → TokenFree s f →
      parseLoc (reg s (f.ext.extractLsb' 16 5)) = .glob va → va % 64 = 0 →
      s.cur.reads.find? (fun x => x.slot = 3) = some r → r.data = some b → parseCodebook b = some cb →
      Does (.cbload g f) s { s with cur := { s.cur with cb := cb, tokWs := drp f.tkd.toNat s.cur.tokWs } })

/-- The operations on the array complete under the checks of R271, R273, R277, R278 and R284: each joins the end of the array's
queue, with its operands captured and its token pending; a fill of a latch becomes the newest. ACC.RD completes once nothing before
it touches its blocks: the rows they drain into go into flight as one result, with a token that completes when they become visible.
CBLOAD of a well-formed table loads the codebook (R279, R282, R283). -/
def Obligations.MatrixInstructionsComplete : Prop := ArrayOperationsComplete ∧ AccumulatorReadsComplete

/-- LEASE completes for the context that holds the lease; LEASE.TRY says whether it holds the lease, which it takes where
nothing asks for it; UNLEASE without a chain gives it up (R262 to R264). CHAIN.BEGIN under the lease opens a chain over its
blocks, all of the format it names, with the latches empty; CHAIN.END of an open chain marks it as ending (R267, R268). -/
def Obligations.LeasesAndChainsComplete : Prop := LeasesComplete ∧ ChainsComplete

/-! ### Slot C -/

/-- The flat copies complete under the checks of R227, R248 and R249: the command takes an entry of the window, with its
operands, length, tokens and barrier, and nothing is copied yet. -/
def Sys2Proof.Claims.FlatCopiesComplete : Prop :=
  (∀ g f s src dst bar, Ready (.cpyRow g f) s → s.cur.task = none →
      let ss := reg s (f.ext.extractLsb' 16 5)
      let sd := reg s (f.ext.extractLsb' 11 5)
      LocIs (.cpyRow g f) s ss true true true false false src → LocIs (.cpyRow g f) s sd true true true true true dst →
      (src.isHere && dst.isHere) = false → (f.ext.getLsbD 1 && (src.isSpad || dst.isSpad)) = false →
      BarIs (.cpyRow g f) s (f.ext.extractLsb' 6 5) bar →
      TakesEntry (.cpyRow g f) s f [ss, sd, barWord s (f.ext.extractLsb' 6 5)] (256 * (bitsOf 2 4 f.ext.toNat + 1)) 0 dst bar)
  ∧ (∀ g f s src dst bar n, Ready (.cpySpad g f) s → s.cur.task = none →
      let ss := reg s (f.ext.extractLsb' 16 5)
      let sd := reg s (f.ext.extractLsb' 11 5)
      LocIs (.cpySpad g f) s ss true false true false false src → LocIs (.cpySpad g f) s sd true false true true false dst →
      LenIs (reg s (f.ext.extractLsb' 6 5)) 0 n → BarIs (.cpySpad g f) s (f.ext.extractLsb' 1 5) bar →
      TakesEntry (.cpySpad g f) s f [ss, sd, reg s (f.ext.extractLsb' 6 5), barWord s (f.ext.extractLsb' 1 5)] n 0 dst bar)
  ∧ (∀ g f s dst bar n, Ready (.cpyFill g f) s → s.cur.task = none →
      let sd := reg s (f.ext.extractLsb' 16 5)
      LocIs (.cpyFill g f) s sd true true true true false dst → LenIs (reg s (f.ext.extractLsb' 11 5)) 0 n →
      BarIs (.cpyFill g f) s (f.ext.extractLsb' 1 5) bar →
      TakesEntry (.cpyFill g f) s f
        [sd, reg s (f.ext.extractLsb' 11 5), reg s (f.ext.extractLsb' 6 5), barWord s (f.ext.extractLsb' 1 5)] n 0 dst bar)
  ∧ (∀ g f s src dst bar n rc, Ready (.cpyRed g f) s → s.cur.task = none →
      let ss := reg s (f.ext.extractLsb' 16 5)
      let sd := reg s (f.ext.extractLsb' 11 5)
      LocIs (.cpyRed g f) s ss true true true false false src → LocIs (.cpyRed g f) s sd true true false true false dst →
      (f.ext.getLsbD 0 && (src.isSpad || dst.isSpad)) = false → rc ≤ 7 → LenIs (reg s (f.ext.extractLsb' 6 5)) rc n →
      BarIs (.cpyRed g f) s (f.ext.extractLsb' 1 5) bar →
      TakesEntry (.cpyRed g f) s f [ss, sd, reg s (f.ext.extractLsb' 6 5), barWord s (f.ext.extractLsb' 1 5)] n 0 dst bar)

/-- The copies under a tensor map complete in the same way: a box, or the rows an index list names, with the map captured
(R244 to R247). -/
def Sys2Proof.Claims.MappedCopiesComplete : Prop :=
  (∀ g f s m l bar, Ready (.cpyTen g f) s → s.cur.task = none → s.cur.mapOf (.cpyTen anyGuard f) = some m →
      let nc := (mapNdim m - 1) / 2 + 1
      let sco := bitsOf 13 5 f.ext.toNat
      let st := f.ext.getLsbD 1
      sco + nc ≤ 32 → LocIs (.cpyTen g f) s (reg s (f.ext.extractLsb' 8 5)) false false true (!st) (!st) l →
      (f.ext.getLsbD 2 && l.isSpad) = false → (l.isStream = true → boxBytes m % 256 = 0) →
      BarIs (.cpyTen g f) s (f.ext.extractLsb' 3 5) bar →
      TakesEntry (.cpyTen g f) s f
        ((List.range nc).map (fun k => reg s (BitVec.ofNat 5 (sco + k))) ++ [reg s (f.ext.extractLsb' 8 5), barWord s (f.ext.extractLsb' 3 5)])
        (boxBytes m) m (if st then .glob 0 else l) bar)
  ∧ (∀ g f s m l bar, Ready (.cpyGath g f) s → s.cur.task = none → s.cur.mapOf (.cpyGath anyGuard f) = some m →
      let si := bitsOf 13 5 f.ext.toNat
      let w := reg s (f.ext.extractLsb' 13 5)
      let n := reg s (BitVec.ofNat 5 (si + 1))
      let sd := reg s (f.ext.extractLsb' 8 5)
      ListIs s m si w n → LocIs (.cpyGath g f) s sd false false true true true l → (f.ext.getLsbD 2 && l.isSpad) = false →
      (l.isStream = true → mapBox m 0 * mapEsize m % 256 = 0) → BarIs (.cpyGath g f) s (f.ext.extractLsb' 3 5) bar →
      TakesEntry (.cpyGath g f) s f [w, n, sd, barWord s (f.ext.extractLsb' 3 5)] (n.toNat * (mapBox m 0 * mapEsize m)) m l bar)
  ∧ (∀ g f s m l bar, Ready (.cpyScat g f) s → s.cur.task = none → s.cur.mapOf (.cpyScat anyGuard f) = some m →
      let si := bitsOf 13 5 f.ext.toNat
      let w := reg s (f.ext.extractLsb' 13 5)
      let n := reg s (BitVec.ofNat 5 (si + 1))
      let ss := reg s (f.ext.extractLsb' 8 5)
      ListIs s m si w n → LocIs (.cpyScat g f) s ss false false true false false l →
      BarIs (.cpyScat g f) s (f.ext.extractLsb' 3 5) bar →
      TakesEntry (.cpyScat g f) s f [w, n, ss, barWord s (f.ext.extractLsb' 3 5)] (n.toNat * (mapBox m 0 * mapEsize m)) m (.glob 0) bar)

/-- TMAP with its 96 bytes read sets the slot's map when they are well formed; CPY.BIND and CPY.BIND.OFF bind and unbind a drained
stream register; BERTH.SET writes the limit (R242, R250, R254). -/
def Sys2Proof.Claims.MapsAndBindingsComplete : Prop :=
  (∀ g f s r b, Ready (.tmap g f) s → s.cur.task = none →
      let a := reg s (f.ext.extractLsb' 43 5)
      bitsOf 56 8 a.toNat = 0 → a.toNat % 32 = 0 → s.cur.reads.find? (fun x => x.slot = 6) = some r → r.data = some b →
      let m := BitVec.ofNat 768 (leNat b)
      mapBad m = false →
      Does (.tmap g f) s { s with cur := { s.cur with maps := s.cur.maps.setIfInBounds (bitsOf 40 3 f.ext.toNat) (some m) } })
  ∧ (∀ g f s off, Ready (.cpyBind g f) s → s.cur.task = none → TokenFree s f →
      let q := bitsOf 13 3 f.ext.toNat
      let b := s.cur.win.q.toList.getD q QBind.none
      parseLoc (reg s (f.ext.extractLsb' 16 5)) = .here off → s.cur.bind.banks ≠ 0 → off % 256 = 0 → b.wr = b.rd →
      Does (.cpyBind g f) s (setQ s q { QBind.none with valid := true, ring := off / 256 % 2 ^ 15 }))
  ∧ (∀ g f s, Ready (.cpyBindOff g f) s → s.cur.task = none → TokenFree s f →
      let q := bitsOf 13 3 f.ext.toNat
      let b := s.cur.win.q.toList.getD q QBind.none
      b.wr = b.rd → Does (.cpyBindOff g f) s (setQ s q { b with valid := false }))
  ∧ (∀ g f s, Ready (.berthSet g f) s → s.cur.task = none →
      Does (.berthSet g f) s { s with cur := { s.cur with win := { s.cur.win with bmax := bitsOf 41 7 f.ext.toNat } } })

/-- CPY.POLL tells whether a token is complete and CPY.POLL.WIN whether the window has room, without an effect on either; the
cancelling forms cancel the command behind a token, or every command of the window, and berths without a read go back (R253,
R255, R256). -/
def Sys2Proof.Claims.PollingAndCancellingComplete : Prop :=
  (∀ g f s, Ready (.cpyPoll g f) s →
      GivesPred (.cpyPoll g f) s 14 (f.ext.extractLsb' 45 3) (!s.cur.tok.getLsbD (bitsOf 39 6 f.ext.toNat)) 0)
  ∧ (∀ g f s, Ready (.cpyPollWin g f) s → GivesPred (.cpyPollWin g f) s 14 (f.ext.extractLsb' 45 3) (!s.cur.win.full) 0)
  ∧ (∀ g f s, Ready (.cpyCancel g f) s → s.cur.task = none →
      Does (.cpyCancel g f) s (returnBerths ((dropWaits s (engineOf s.cur.cid)).updCur fun c =>
        match look (bitsOf 42 6 f.ext.toNat) c.tokBind with
        | some id => cancelIn c fun x => x.id = id
        | none => c) s.cur.cid))
  ∧ (∀ g f s, Ready (.cpyCancelAll g f) s → s.cur.task = none →
      Does (.cpyCancelAll g f) s (returnBerths ((dropWaits s (engineOf s.cur.cid)).updCur fun c => cancelIn c fun _ => true) s.cur.cid))

/-- The flat copies complete under the checks of R227, R248 and R249: the command takes an entry of the window, with its
operands, length, tokens and barrier, and nothing is copied yet. The copies under a tensor map complete in the same way: a box,
or the rows an index list names, with the map captured (R244 to R247). -/
def Sys2Proof.Claims.CopyCommandsComplete : Prop := FlatCopiesComplete ∧ MappedCopiesComplete

/-- TMAP with its 96 bytes read sets the slot's map when they are well formed; CPY.BIND and CPY.BIND.OFF bind and unbind a
drained stream register; BERTH.SET writes the limit (R242, R250, R254). CPY.POLL tells whether a token is complete and
CPY.POLL.WIN whether the window has room, without an effect on either; the cancelling forms cancel the command behind a token,
or every command of the window (R255, R256). -/
def Sys2Proof.Claims.CopyControlCompletes : Prop := MapsAndBindingsComplete ∧ PollingAndCancellingComplete

/-- The copy commands complete under the checks of R227, R244 to R249: each takes an entry of the window, with its operands, length,
tokens, barrier and map, and nothing is copied yet. TMAP, CPY.BIND, CPY.BIND.OFF, BERTH.SET, CPY.POLL, CPY.POLL.WIN and the
cancelling forms complete with their effect on the map slots, the stream registers, the limit and the window (R242, R250, R253 to
R256). -/
def Obligations.CopyInstructionsComplete : Prop := CopyCommandsComplete ∧ CopyControlCompletes

/-! ### Slot Y -/

/-- The posting sync operations complete by being sent to their home: the count, the release and the address are what R296 to
R303 and R325 say; no sync word changes yet. -/
def Sys2Proof.Claims.PostingSyncCompletes : Prop :=
  Posts .semInit false false (fun _ _ => True) (fun s f => (reg s f.sb).toNat % 2 ^ 32)
  ∧ Posts .semPost false true (fun _ _ => True) amount
  ∧ Posts .barInit true false (fun s f => bitsOf 16 24 (reg s f.sb).toNat = 0) (fun s f => (reg s f.sb).toNat)
  ∧ Posts .barArrive true true (fun _ _ => True) amount
  ∧ Posts .barExpect true false (fun _ _ => True) amount
  ∧ Posts .rel false true (fun _ _ => True) (fun _ _ => 0)

/-- The answered sync and queue operations complete when their answer has come: waits acquire what it brings, tries give a
predicate, pushes a status, pops a row and a status, Q.INFO the descriptor's counts (R291 to R294, R298, R304, R325, R388). -/
def Sys2Proof.Claims.AnsweredSyncCompletes : Prop :=
  AnsweredWait .semWait false ∧ AnsweredWait .barWait true ∧ AnsweredWait .acq false
  ∧ AnsweredTry .semTry false ∧ AnsweredTry .barTest true
  ∧ QueuePush .qPush 13 (fun s => s.cur.task = none) ∧ QueuePush .qTry 14 (fun s => speculative s.cur = false)
  ∧ QueuePop .qPop (fun s => s.cur.task = none) ∧ QueuePop .qPopTry (fun s => speculative s.cur = false)
  ∧ QueuePop .qPeek (fun s => speculative s.cur = false)
  ∧ (∀ g f s a p code, Ready (.qInfo g f) s → speculative s.cur = false → SyncIs (.qInfo g f) s (reg s f.sa) false a →
      Answer s p code → GivesScalar (.qInfo g f) s 15 (f.ext.extractLsb' 30 5) (BitVec.ofNat 64 p.data) 0)

/-- The posting sync operations complete by being sent to their home: the count, the release and the address are what R296 to
R303 and R325 say; no sync word changes yet. The answered sync and queue operations complete when their answer has come: waits
acquire what it brings, tries give a predicate, pushes a status, pops a row and a status, Q.INFO the descriptor's counts (R291 to
R294, R298, R304, R325, R388). -/
def Obligations.SyncInstructionsComplete : Prop := PostingSyncCompletes ∧ AnsweredSyncCompletes

/-- GBAR completes outside a group or as its only member, when its group has been let pass, and when every other member has arrived
and the writes they bring are performed: then the stores of their bundles are performed, all arrivals clear and the others may
pass. TKWAIT completes when its tokens are complete, TKCLR detaches them (R307, R312, R317, R319). -/
def Sys2Proof.Claims.BarriersAndTokensComplete : Prop :=
  (∀ g f s x, Ready (.gbar g f) s → s.cur.task = none → s.group s.cur.bind.group = some x → x.pass.contains s.cur.cid = true →
      Does (.gbar g f) s (({ s with cur := s.cur.know x.gknown }).updGroup x.id fun y => { y with
        pass := y.pass.filter (fun m => m != s.cur.cid), went := y.went.filter fun z => z.1 != s.cur.cid }))
  ∧ (∀ g f s x, Ready (.gbar g f) s → s.cur.task = none → s.group s.cur.bind.group = some x → x.pass.contains s.cur.cid = false →
      (otherMembers s x s.cur.cid = [] → Does (.gbar g f) s s)
      ∧ (otherMembers s x s.cur.cid ≠ [] → (∀ m ∈ otherMembers s x s.cur.cid, x.arrived.contains m = true) →
          carryDone s (visibleWrites s.cur ++ x.gcarry) = true → (∀ y ∈ x.along, alongWaits s y.2 = false) →
          let w := completeBarrier (staged (.gbar g f) s) x s.cur.cid
          ∀ z, w.group s.cur.bind.group = some z → z.pass.contains s.cur.cid = true →
          Does (.gbar g f) s ((w.updGroup z.id fun y => { y with
            pass := y.pass.filter (fun m => m != s.cur.cid), went := y.went.filter fun z => z.1 != s.cur.cid }).updCur
              fun c => c.know z.gknown)))
  ∧ (∀ g f s, Ready (.gbar g f) s → s.cur.task = none → s.group s.cur.bind.group = none → Does (.gbar g f) s s)
  ∧ (∀ g f s, Ready (.tkwait g f) s → s.cur.task = none → s.cur.tok &&& namedTokens f = 0 →
      Does (.tkwait g f) s { s with cur := s.cur.know ((tokenList (namedTokens f)).flatMap fun n => (look n s.cur.tokWs).getD []) })
  ∧ (∀ g f s, Ready (.tkclr g f) s → s.cur.task = none →
      let detach (c : Ctx) (n : Nat) : Ctx := { completeToken c n with tokWs := drp n c.tokWs }
      Does (.tkclr g f) s { s with cur := (tokenList (s.cur.tok &&& namedTokens f)).foldl detach s.cur })

/-- MOOR of a well-formed anchor and base inside 2^56 enters its slot; UNMOOR empties one slot or all, and what its mooring has made
visible stays among what later releases carry; FENCE marks what its two halves name (R317, R323, R324, R326). -/
def Sys2Proof.Claims.RegionsComplete : Prop :=
  (∀ g f s l, Ready (.moor g f) s → s.cur.task = none → syncForm s (reg s f.sa) false = .ok l →
      let b := (reg s f.sb).toNat
      let len := 64 * (bitsOf 0 24 f.ext.toNat + 1)
      b % 64 = 0 → b + len ≤ 2 ^ 56 →
      let n := bitsOf 31 4 f.ext.toNat
      Does (.moor g f) s { s with cur := { s.cur.unmoored (s.cur.moor.toList.getD n none) with
        moor := s.cur.moor.setIfInBounds n (some ⟨reg s f.sa, b, len, f.ext.extractLsb' 28 3⟩) } })
  ∧ (∀ g f s, Ready (.unmoor g f) s → s.cur.task = none →
      let n := bitsOf 31 4 f.ext.toNat
      (f.ext.getLsbD 30 = true → Does (.unmoor g f) s { s with cur := { s.cur.moor.toList.foldl Ctx.unmoored s.cur with
        moor := Vector.replicate 16 none } })
      ∧ (f.ext.getLsbD 30 = false → Does (.unmoor g f) s { s with cur := { s.cur.unmoored (s.cur.moor.toList.getD n none) with
        moor := s.cur.moor.setIfInBounds n none } }))
  ∧ (∀ g f s, Ready (.fence g f) s →
      let a := if f.ext.getLsbD 43 then s.cur.fenceAcq else s.cur
      Does (.fence g f) s { s with cur := if f.ext.getLsbD 44 then a.fenceRel (bitsOf 45 3 f.ext.toNat) else a })

/-- PIPE.PUSH with room takes a slot and its row is on its way, in the order of the reservations; PIPE.POP and PIPE.POP.TRY take the row they claim and synchronise
with its push; without one PIPE.POP.TRY gives a false status (R357, R358). -/
def Sys2Proof.Claims.PipesComplete : Prop :=
  (∀ g f s p r, Ready (.pipePush g f) s → s.cur.task = none → pipeAt s (syPipe f) true = .ok p →
      rdRowSrc (staged (.pipePush g f) s) 99 1 (syPipeSel f) = .ok r → groupGone s p.popG = false → p.place s.cur.cid < p.free →
      Does (.pipePush g f) s (s.updPipe p.id fun x => { x with
        free := x.free - 1, pushQ := x.pushQ.filter fun y => y.2 != s.cur.cid
        rows := insertRow ⟨p.ticketOf s.cur.cid s.uid, s.cur.cid, r, false, pipeCarry s⟩ x.rows }))
  ∧ (∀ g f s p x, Ready (.pipePop g f) s → s.cur.task = none → pipeAt s (syPipe f) false = .ok p → pipeEmptyClosed s p = false →
      claimable p s.cur.cid = some x →
      DoesAndGives (.pipePop g f) s (takeRow (staged (.pipePop g f) s) p x) 13 [.row (syPipeSel f).toNat x.row] .invalid 0)
  ∧ (∀ g f s p, Ready (.pipePopTry g f) s → s.cur.task = none → pipeAt s (syPipe f) false = .ok p → pipeEmptyClosed s p = false →
      match claimable p s.cur.cid with
      | some x => DoesAndGives (.pipePopTry g f) s (takeRow (staged (.pipePopTry g f) s) p x) 13
          [.row (syPipeSel f).toNat x.row, .pred f.pd true] .invalid 0
      | none => GivesPred (.pipePopTry g f) s 13 f.pd false 0)

/-- SPAWN by a task with room adds a queued child to its domain; TASK.END and TASK.ABANDON end the task after their bundle;
TS.GET gives the timestamp, the frontier's or the number, and all ones outside a task (R422 to R424). -/
def Sys2Proof.Claims.TaskInstructionsComplete : Prop :=
  (∀ g f s r t d, Ready (.spawn g f) s → s.cur.task = some r → s.taskOf s.cur = some t → s.dom r.dom = some d →
      let ts := reg s f.sa
      let ent := bitsOf 22 8 f.ext.toNat
      r.ts.toNat ≤ ts.toNat → ent < d.table.length → d.tasks.length < d.maxTask → t.spawned < 64 →
      let child := newTask d (some r.seq) ts (spawnTile s d (bitsOf 20 2 f.ext.toNat) ts (reg s f.sb)) ent (reg s f.sb)
        (reg s (f.ext.extractLsb' 30 5))
      Does (.spawn g f) s (learn (((staged (.spawn g f) s).updDom r.dom fun x => x.addTask child).updTask r.dom r.seq
        fun u => { u with spawned := u.spawned + 1 }) r.dom))
  ∧ (∀ g f s, Ready (.taskEnd g f) s → s.cur.task.isSome = true → DoesThen (.taskEnd g f) s s fun t => endTask t t.cur.cid false)
  ∧ (∀ g f s, Ready (.taskAbandon g f) s → s.cur.task.isSome = true →
      DoesThen (.taskAbandon g f) s s fun t => endTask t t.cur.cid true)
  ∧ (∀ g f s, Ready (.tsGet g f) s →
      GivesScalar (.tsGet g f) s 15 (f.ext.extractLsb' 30 5) (match s.cur.task with
        | none => BitVec.allOnes 64
        | some r => if bitsOf 28 2 f.ext.toNat = 0 then r.ts else if bitsOf 28 2 f.ext.toNat = 1 then r.cfront else BitVec.ofNat 64 r.seq) 0)

/-- PIPE.PUSH with room takes a slot and its row is on its way, in the order of the reservations; PIPE.POP and PIPE.POP.TRY take
the row they claim and synchronise with its push; without one PIPE.POP.TRY gives a false status (R357, R358). SPAWN by a task with
room adds a queued child to its domain; TASK.END and TASK.ABANDON end the task after their bundle; TS.GET gives the timestamp, the
frontier's or the number, and all ones outside a task (R422 to R424). -/
def Obligations.PipesAndTasksComplete : Prop := PipesComplete ∧ TaskInstructionsComplete

/-- BANK.REL releases the banks it names; HINT.SUCC gives its group's hint once; WAITVIS completes when every predecessor's record
has been written; COMPLETE raises the launch's value and verdict, and verdict 2 taints the group; in the replay of an audited group
neither HINT.SUCC nor COMPLETE changes anything; PHASE sets the phase after its bundle, but not in a speculative task (R366, R377
to R380, R469). -/
def Obligations.GroupInstructionsComplete : Prop :=
  (∀ g f s, Ready (.bankRel g f) s → s.cur.task = none →
      let l := (List.range 32).filter fun i => f.ext.getLsbD i
      (∀ i ∈ l, ∀ c ∈ groupCtxs (staged (.bankRel g f) s), (ringBanks c).contains i = false) →
      Does (.bankRel g f) s (s.updGroup s.cur.bind.group fun x =>
        let new := (l.map fun i => s.cur.bind.bank + i).filter fun i => !x.releasing.contains i
        { x with releasing := x.releasing ++ new, relAt := new.map (fun i => (i, s.uid)) ++ x.relAt }))
  ∧ (∀ g f s, Ready (.hintSucc g f) s → s.cur.task = none → s.group s.cur.bind.group = none → Does (.hintSucc g f) s s)
  ∧ (∀ g f s x, Ready (.hintSucc g f) s → s.cur.task = none → s.group s.cur.bind.group = some x →
      (x.succ = true → Does (.hintSucc g f) s s)
      ∧ (isReplay s s.cur.cid = true → Does (.hintSucc g f) s s)
      ∧ (x.succ = false → isReplay s s.cur.cid = false →
          let t := (staged (.hintSucc g f) s).updGroup x.id fun y => { y with succ := true }
          Does (.hintSucc g f) s (match s.launch x.launch with
            | some l => hintGiven t l
            | none => t)))
  ∧ (∀ g f s l, Ready (.waitvis g f) s → s.cur.task = none → s.launch s.cur.bind.launch = some l → l.visReady = true →
      Does (.waitvis g f) s { s with cur := s.cur.know l.vis })
  ∧ (∀ g f s, Ready (.waitvis g f) s → s.cur.task = none → s.launch s.cur.bind.launch = none → Does (.waitvis g f) s s)
  ∧ (∀ g f s, Ready (.complete g f) s → s.cur.task = none → isReplay s s.cur.cid = true → Does (.complete g f) s s)
  ∧ (∀ g f s, Ready (.complete g f) s → s.cur.task = none → isReplay s s.cur.cid = false →
      Does (.complete g f) s ((s.updLaunch s.cur.bind.launch fun l => { l with
        user := max l.user (reg s f.sa).toNat, vreq := max l.vreq (bitsOf 0 2 f.ext.toNat) }).updGroup s.cur.bind.group
          fun x => { x with taint := x.taint || bitsOf 0 2 f.ext.toNat = 2 }))
  ∧ (∀ g f s, Ready (.phase g f) s → speculative s.cur = false →
      ∃ t, exec (.phase g f) s = .next t ∧ t.cur.phase = bitsOf 0 4 f.ext.toNat
        ∧ Closes (.phase g f) s { s with cur := { s.cur with phase := bitsOf 0 4 f.ext.toNat } } t)
  ∧ (∀ g f s, Ready (.phase g f) s → speculative s.cur = true → Does (.phase g f) s s)

/-- TRAP retires with its bundle and its trap is taken next; YIELD, in the bundle with SWP = 1 that it must stand in, makes the
context ready with every latch invalid; SLEEP sets the deadline before which the next bundle does not issue; END retires the
context once its window and its array operations are done; RETT leaves the handler for TFPC with the latches, REPI and the entries
of the frame, or retires the context when the frame is malformed (R45, R340, R341, R343). -/
def Obligations.ContextInstructionsComplete : Prop :=
  (∀ g f s, Ready (.trap g f) s → ∃ t u, exec (.trap g f) s = .next t
      ∧ t = (trapBetween u { cls := 0x24, code := f.ext.toNat % 65536, slot := 7 }).tick ∧ Closes (.trap g f) s s u)
  ∧ (∀ g f s, Opens (.yield g f) s → ctlRep s.cur.ctl = false → ctlSwp s.cur.ctl = true → s.cur.crs.repi = 0 →
      s.cur.task = none → ∃ t, exec (.yield g f) s = .next t
        ∧ t.cur.status = .ready ∧ t.cur.regs = s.cur.regs.clearLatches ∧ (∀ e ∈ t.cur.fl, e.latch = .invalid)
        ∧ t.cur.fl.map Flight.res = s.cur.fl.map Flight.res
        ∧ t.cur.pc = s.cur.pc + 64 ∧ t.cur.crs = s.cur.crs ∧ t.cur.ldq = s.cur.ldq ∧ t.cur.win = s.cur.win ∧ t.cur.acc = s.cur.acc
        ∧ t.cur.tok = s.cur.tok ∧ t.cur.moor = s.cur.moor ∧ t.cur.cb = s.cur.cb ∧ OutsideKept s t)
  ∧ (∀ g f s, Ready (.sleep g f) s → s.cur.task = none →
      let a := reg s (f.ext.extractLsb' 43 5)
      ∃ t u, exec (.sleep g f) s = .next t ∧ Closes (.sleep g f) s s u ∧ t = ({ u with cur := { u.cur with
        sleepTill := some (if f.ext.getLsbD 42 then a.toNat else (tileTime s (tileOf s.cur.cid) + a.toNat) % 2 ^ 64) } } : State).tick)
  ∧ (∀ g f s, Ready (.endCtx g f) s → s.cur.task = none → chainOf s s.cur = none → windowBusy s.cur = false →
      arrayBusy s s.cur = false →
      ∃ t u, exec (.endCtx g f) s = .next t ∧ t = (retireCtx u s.cur.cid none).tick ∧ Closes (.endCtx g f) s s u)
  ∧ (∀ g f s x, Ready (.rett g f) s → s.cur.crs.intrap = true → anyStorePending s s.cur.cid = false →
      readFrame (staged (.rett g f) s) = .ok (some x) →
      ∃ t, exec (.rett g f) s = .next t ∧ t.cur.pc = s.cur.crs.tfpc ∧ t.cur.pt = s.cur.pt + 2
        ∧ t.cur.fl = (s.cur.advance 2).fl ∧ t.cur.regs = s.cur.regs.setLatches x.latches
        ∧ t.cur.crs = { s.cur.crs with intrap := false, repi := x.repi }
        ∧ t.cur.resumeAt = some (BitVec.ofNat 16 x.nexti) ∧ t.cur.iss.count = x.ncnt
        ∧ t.cur.reinj = some ((withSides s.fresh s.cur.sides x.entries).filter fun e => !e.skip)
        ∧ t.cur.win = { s.cur.win with cmds := s.cur.win.cmds.map fun y => (y.1, restartCmd y.2) } ∧ OutsideKept s t)
  ∧ (∀ g f s, Ready (.rett g f) s → s.cur.crs.intrap = true → anyStorePending s s.cur.cid = false →
      readFrame (staged (.rett g f) s) = .ok none →
      ∃ t u, exec (.rett g f) s = .next t ∧ t = (retireCause u s.cur.cid { cls := 0x0B, sub := 6 }).tick ∧ u.cur.cid = s.cur.cid
        ∧ CtxKept s u ∧ OutsideKept s u)

/-- GBAR completes outside a group, when its group has been let pass, and when every other member has arrived and the writes
they bring are performed: then all arrivals clear and the others may pass. TKWAIT completes when its tokens are complete, TKCLR
detaches them (R307, R312). MOOR of a well-formed anchor and base inside 2^56 enters its slot; UNMOOR empties one slot or all;
FENCE marks what its two halves name (R323, R324, R326). -/
def Obligations.BarriersTokensAndRegionsComplete : Prop := BarriersAndTokensComplete ∧ RegionsComplete

/-! ### Events -/

/-- What happens to a context between its bundles: results due become visible, or a pending trap is taken; a wait for tokens
and a sleep end; a pre-emption is requested; periods that lengthen let harbour time pass (R22, R40, R136, R312, R335, R338, R343, R344). -/
def Sys2Proof.Claims.ContextEventsHappen : Prop :=
  (∀ c s, s.hasCtx c = true → dueNow s (s.ctx c) ≠ [] → Happens (.resultVisible c) s (yieldCore (showDue (s.focus c))))
  ∧ (∀ c s k, s.hasCtx c = true → (s.ctx c).status = .running → (s.ctx c).crs.intrap = false → (s.ctx c).reinj = none →
      performed s (s.ctx c) = false → dueNow s (s.ctx c) = [] → lowestCause (s.ctx c).pends = some k →
      let t := s.focus c
      Happens (.trapEntry c) s (trapBetween { t with cur := { t.cur with pends := t.cur.pends.erase k } } k))
  ∧ (∀ c s m, (s.ctx c).status = .blocked (.tokens m) → (s.ctx c).tok &&& m = 0 →
      Happens (.tokenWaitRelease c) s (s.updCtx c fun y => y.readyFrom fun w => match w with
        | .tokens n => (s.ctx c).tok &&& n = 0
        | _ => false))
  ∧ (∀ c s d, (s.ctx c).sleepTill = some d → d ≤ tileTime s (tileOf c) →
      Happens (.sleepDeadline c) s (s.updCtx c fun y => { y with sleepTill := none }.readyFrom fun w => w = WaitOn.sleep))
  ∧ (∀ c s, (s.ctx c).onCore = true → (∀ d ∈ s.doms, d.ctxs.contains c = false) →
      Happens (.preemptRequest c) s (s.updCtx c fun y => if y.onCore then { y with preempt := true } else y))
  ∧ (∀ t n s, exec (.clockStretch t n) s = .next { s with htime := s.htime + n })

/-- A requested pre-emption is taken, and a drained save completes; a saved group whose resources are free is restored, each
context from its area, which must be well formed (R344 to R349, R362). -/
def Sys2Proof.Claims.SavesAndRestoresHappen : Prop :=
  (∀ c s, (s.ctx c).status ≠ .saving → (s.ctx c).preempt = true → takeable s (s.ctx c) = true →
      Happens (.contextSave c) s (beginSave s c))
  ∧ (∀ c s, (s.ctx c).status = .saving → saveDrained s (s.ctx c) = true → Happens (.contextSave c) s (endSave s c))
  ∧ (∀ gr g s, s.group gr = some g → g.st = .saved → restorable s g = true →
      let gs := (gangGroups s g).filter fun x => x.st = .saved
      canRestore s gs = true → (∀ k ∈ s.tickets, levelBefore s k g.launch = false → fitsSomewhere s k = false) →
      let t := askRestore s (gs.map Group.id)
      Happens (.restoreRequest gr) s { t with
        groups := t.groups.map fun x => if (gs.map Group.id).contains x.id then { x with st := .restoring, victim := none } else x })
  ∧ (∀ c s b p y t w, (s.ctx c).status = .restoring →
      let x := s.ctx c
      let base := x.crs.sabase.toNat
      devRead s (devAgent x.bind.vf) x.bind.vf base (saveSize x) = .ok (b, p) → restoreOf x b = some y →
      devWrite { s with fresh := s.fresh + 1 } (devAgent x.bind.vf) x.bind.vf base (leBytes 8 (numAt b 0 8 % 2 ^ 63)) = .ok (t, w) →
      let u := (flushCore t (hwOf c / 4)).updCtx c fun _ => y
      Happens (.contextRestore c) s (groupRestored (match y.waitOn with
        | some k => rewait u c k
        | none => { u with parked := u.parked.filter fun o => o.cid != c }) x.bind.group))

/-- A store's piece is performed at its home: exactly the enabled bytes of the piece change, where its sectors were last written
under the same key (R207, R208, R214). -/
def Sys2Proof.Claims.StorePiecesWriteMemory : Prop :=
  ∀ op piece pick s g p bytes mask, s.gops.find? (fun x => x.id = op) = some g → g.parts[piece]? = some p →
    g.kind = .store bytes mask → replayFor s g.agent = none → blockedBy s.gops g p = false → syncBefore s g p = false →
    let b := ((if p.sh then g.shBytes else bytes).drop p.off).take p.len
    let m := ((if p.sh then g.shMask else mask).drop p.off).take p.len
    b.length = m.length → rekeyed s p.pa b.length m p.key = [] → cutOff s p.pa = false →
    ∃ t, exec (.globalAccessPerformed op piece pick) s = .next t ∧ t.spad = s.spad
      ∧ (∀ j < b.length, m.getD j false = true → memByte t.mem (p.pa + j) = b.getD j 0)
      ∧ (∀ a, (∀ j < b.length, m.getD j false = true → a ≠ p.pa + j) → memByte t.mem a = memByte s.mem a)

/-- What happens to global accesses: pieces of loads and stores and atomics are performed at their homes, entries return in push
order, walks complete, stalled reads arrive (R200, R207, R208, R219, R242, R437). -/
def Sys2Proof.Claims.MemoryEventsHappen : Prop :=
  (∀ op piece pick s g p, s.gops.find? (fun x => x.id = op) = some g → g.parts[piece]? = some p →
      replayFor s g.agent = none → blockedBy s.gops g p = false → syncBefore s g p = false →
      match g.kind with
      | .store bytes mask => Happens (.globalAccessPerformed op piece pick) s (performWrite s g piece p bytes mask)
      | .atomic .. => Happens (.globalAccessPerformed op piece pick) s s
      | _ => Happens (.globalAccessPerformed op piece pick) s (performRead s g piece p pick))
  ∧ (∀ op piece pick s g p a e v bad, s.gops.find? (fun x => x.id = op) = some g → g.parts[piece]? = some p →
      replayFor s g.agent = some a → oldestAccess s g = true → g.writes = false → g.entry = some e →
      a.next g.agent .access = some (.entry v bad) →
      Happens (.globalAccessPerformed op piece pick) s (({ s.updAudit a.id fun x => x.take g.agent .access with
        gops := s.gops.filter fun x => x.id != g.id }).updCtx g.agent fun c => fillEntry c e v bad))
  ∧ (∀ op s g k sgn wide x cmp ent p, s.gops.find? (fun y => y.id = op) = some g → g.kind = .atomic k sgn wide x cmp ent →
      g.parts = [p] → p.sh = false → replayFor s g.agent = none → blockedBy s.gops g p = false → syncBefore s g p = false → physPoison s p.pa p.len = false →
      let w := if wide then 64 else 32
      let old := leNat (physRead s p.pa p.len p.key)
      let new := leBytes p.len (atomNew k sgn w old (x.toNat % 2 ^ w) (cmp.toNat % 2 ^ w))
      let t := auditAdd (watchDirect (pieceWrite (noteCorrected s g.agent p.pa p.len) g.id g.agent g.vf p.pa new (allOnes p.len) p.key false) g p)
        g.agent [(g.va, new)]
      let v : Scalar := ⟨extend (sgn && !wide && (k = 1 || k = 2)) w old,
        if k = 8 then BitVec.ofNat 5 (clampCount 24 old (g.cnts.getD 0 24).toNat) else 24⟩
      let l := logDatum t g.agent .access g.id (.old old v false)
      let u := { l with fresh := t.fresh + 1, gops := l.gops.filter fun y => y.id != g.id }
      Happens (.atomicAtHome op) s (lastAtom (match ent with
        | some e => u.updCtx g.agent fun c => fillEntry c e (.scalar v) false
        | none => u) g.agent))
  ∧ (∀ c s, Happens (.loadEntryReturn c) s (s.updCtx c fun x => { x with ldq := returnEntry x.ldq }))
  ∧ (∀ w s x level e, s.walks.find? (fun y => y.id = w) = some x → x.started = true → walkPage s x.vf x.page = .ok (level, e) →
      let n : TlbEntry := ⟨x.vf, x.page / 2 ^ (9 * level), level, e⟩
      Happens (.pageWalkComplete w) s { s with
        walks := startFree (((s.walks.filter fun y => y.id != w).filter Walk.started).map Walk.die) (s.walks.filter fun y => y.id != w), fresh := s.fresh + 1
        tlb := if s.tlb.contains n then s.tlb else n :: s.tlb })
  ∧ (∀ w s x sub, s.walks.find? (fun y => y.id = w) = some x → x.started = true → walkPage s x.vf x.page = .error sub →
      Happens (.pageWalkComplete w) s { s with
        walks := startFree (((s.walks.filter fun y => y.id != w).filter Walk.started).map Walk.die) (s.walks.filter fun y => y.id != w), fresh := s.fresh + 1
        walkFaults := x.waiters.map (fun a => ⟨a, x.vf, x.page, sub⟩) ++ s.walkFaults })
  ∧ (∀ c s r runs b p, (s.ctx c).reads.find? (fun x => x.data.isNone && x.len != 0) = some r →
      trRun s c (s.ctx c).bind.vf .r r.va r.len = .ok runs → (∀ t ∈ runs, readWaits s c t.2.2 t.2.1 = false) →
      readVA s c (s.ctx c).bind.vf r.va r.len = .ok (b, p) →
      Happens (.tmapCbloadReadArrive c) s
        ((runs.foldl (fun st t => noteNewest (noteCorrected st c t.2.2.pa t.2.1) c t.2.2 t.2.1) s).updCtx c fun y => { y with reads := y.reads.map fun q => if q.slot = r.slot then { q with data := some b } else q }))

/-- Accesses from outside: a peer's inside the export window are performed under the export key, its loads answered with the
bytes; a host's write that translates is performed (R207, R328, R485). -/
def Sys2Proof.Claims.OutsideAccessesHappen : Prop :=
  (∀ s r n, r.op = .load n → exported s r.off n = true →
      Happens (.remoteAccess r) s { s with
        dev := { s.dev with reply := some (physRead s r.off n s.dev.expKey, physPoison s r.off n) }, fresh := s.fresh + 1 })
  ∧ (∀ s r bytes mask, r.op = .store bytes mask → exported s r.off bytes.length = true →
      Happens (.remoteAccess r) s (writePieces { s with uid := s.uid + 1 } s.uid (peerAgent r.peer) peerVf s.dev.expKey false bytes mask r.off
        (piecesOf r.off bytes.length)))
  ∧ (∀ s r o, r.op = .sync o → exported s r.off 16 = true → r.off % 16 = 0 →
      Happens (.remoteAccess r) s (performSync { s with uid := s.uid + 1 } (remoteSyncOp s r o)))
  ∧ (∀ s fn va bytes t w, hostWrite s (hostAgent fn) fn va bytes = .ok (t, w) →
      Happens (.hostMemoryWrite fn va bytes) s (t.setFn fn { t.fn fn with hostWs := w :: (t.fn fn).hostWs }))

/-- The copy engine acts: a command whose tokens are done starts, berths are granted in turn, a sector is performed (of a gather or a
scatter with its index entry), a landed row arrives, its eight posts are sent, and with its last row the command is done (R230, R235,
R240, R245 to R247, R251 to R253, R256). -/
def Obligations.CopyEngineEventsComplete : Prop :=
  (∀ c e s y, look e (s.ctx c).win.cmds = some y → y.state = 1 → waitsDone (s.ctx c) y.waits = true →
      pausedFor (s.ctx c) y = false →
      ∃ t, exec (.copyStart c e) s = .next t ∧ t = (updRecord (updCmd s c e fun z => { z with state := 2 }) c).tick)
  ∧ (∀ t s c, roundRobin (((s.tile t).berthNext + 15) % 16)
        ((s.allCtx.filter fun x => tileOf x.cid = t && wantsBerth s (s.tile t) x.cid).map Ctx.cid) = some c →
      (s.tile t).berths.foldl (fun n b => n + (b.2 + 63) / 64) 0 < 64 →
      let x := s.tile t
      Happens (.berthGrant t) s (s.setTile { x with
        berths := put c ((look c x.berths).getD 0 + 64) x.berths, berthNext := (c % 16 + 1) % 16 }))
  ∧ (∀ c e j pick s x, look e (s.ctx c).win.cmds = some x → x.state = 2 → j < x.total → x.has j = false → j < x.cursor + 256 →
      pausedFor (s.ctx c) x = false → remoteOk s (s.ctx c) x = true →
      let i := 32 * j / x.rowSize
      let reads := if x.isScat then x.readsGlobal && (look i x.entries).isNone else x.readsGlobal
      (reads = true → (look c (s.tile (tileOf c)).berths).getD 0 ≠ 0) →
      (x.isList = false →
        ∃ t, exec (.copySector c e j pick) s = .next t ∧ t = (updRecord (runSector s c e x 0 j pick false reads) c).tick)
      ∧ (x.isList = true → ∀ v0 bad, readEntry s (s.ctx c) x i (pick / 64) = .ok (v0, bad) →
          let v := if bad && (look i x.entries).isNone then Config.freeNat s.fresh % 65536 else v0
          let y := { x with entries := put i v x.entries, badEntries := if bad then i :: x.badEntries else x.badEntries }
          (x.isScat = true → scatterWaits y i v j = false) →
          let n := noteEntry s c x i (pick / 64)
          let m := if bad then { n with fresh := n.fresh + 1 } else n
          let per := x.rowSize / 32
          let first := !(List.range per).any fun k => x.has (i * per + k) || (look (i * per + k) x.part).isSome
          let u := if first && v != 0xFFFF && decide (mapExt x.map 1 ≤ v) && !(look i x.entries).isSome then
            m.updCtx c fun z => bumpCount z 6 1 else m
          ∃ t, exec (.copySector c e j pick) s = .next t
            ∧ t = (updRecord (runSector (updCmd u c e fun _ => y) c e y v j pick bad reads) c).tick))
  ∧ (∀ (c q slot : Nat) (s : State) (r : RingRow), let b := (s.ctx c).win.q.toList.getD q QBind.none
      look slot b.rowsIn = some r → r.landed = 8 → b.arr.getLsbD slot = false → b.valid = true → (s.ctx c).away = false →
      let d := { b with arr := b.arr ||| (1#8 <<< slot), rowsIn := put slot (fixRow s (s.ctx c) b slot r) b.rowsIn }
      let u := s.updCtx c fun y => { y with win := { y.win with q := y.win.q.setIfInBounds q d } }.readyFrom fun w => w = WaitOn.stream q
      let v := sendPosts u c r.pc r.bar 8 []
      let last := (u.ctx c).win.rowInFlight r.cmd = false
      (∀ e x, (u.ctx c).win.cmds.find? (fun x => x.2.id = r.cmd) = some (e, x) →
        (last → x.cursor = x.total →
          ∃ t, exec (.streamRowArrive c q slot) s = .next t ∧ t = (updRecord (finishCmd v c e x) c).tick)
        ∧ (last → x.cursor ≠ x.total → x.state = 5 → ∃ t, exec (.streamRowArrive c q slot) s = .next t
          ∧ t = (updRecord (v.updCtx c fun y => finishToken y r.cmd x.ws) c).tick)
        ∧ (¬ last ∨ x.cursor ≠ x.total ∧ x.state ≠ 5 →
          ∃ t, exec (.streamRowArrive c q slot) s = .next t ∧ t = (updRecord v c).tick))
      ∧ ((u.ctx c).win.cmds.find? (fun x => x.2.id = r.cmd) = none →
        ∃ t, exec (.streamRowArrive c q slot) s = .next t
          ∧ t = (updRecord (if (u.ctx c).win.rowInFlight r.cmd then v else v.updCtx c fun y => finishToken y r.cmd []) c).tick))

/-- The sync homes act: a post reaches its barrier, operations are performed at their homes, answers come back, pipe rows land, the
lease is granted (R264, R291, R299, R302, R305, R357). -/
def Sys2Proof.Claims.SyncEventsHappen : Prop :=
  (∀ n s x b, s.posts.find? (fun y => y.id = n) = some x → carryDone s (x.carry.map Carry.w) = true →
      (∀ t off, parseLoc (clearLow4 x.loc) ≠ .remote t off) →
      let p := wordPlace s x.loc x.word
      let u := { s with posts := s.posts.filter fun y => y.id != n }
      let v := serveWord p u.syncRegs.length u
      parseBar (wordRead v p x.key) = some b →
      Happens (.sectorPost n) s (serveWord p v.syncRegs.length
        (addRel (wordWrite v x.cid (v.ctx x.cid).bind.vf p x.key x.shadow (b.post x.tag).word) p x.carry)))
  ∧ (∀ n s o, s.sops.find? (fun x => x.id = n) = some o → opWaits s o = false →
      Happens (.syncOpAtHome n) s (performSync s o) ∧ Happens (.queueOpAtHome n) s (performSync s o))
  ∧ (∀ c s a p, s.answers.find? (fun x => x.cid = c) = some a → (s.ctx c).wait = some p → p.id = a.id →
      exec (.syncAnswer c) s = .next ({ logDatum s c .answer a.id (.answer { a with went := [] }) with
          answers := s.answers.filter fun x => x.id != a.id }.updCtx c fun x =>
        (match x.wait with
          | some p => if p.id = a.id then { x with wait := some { p with answer := some a.answer, data := a.data, row := a.row, acq := a.acq, went := a.went } } else x
          | none => x).readyFrom fun w => w = WaitOn.answer).tick)
  ∧ (∀ p s x r, s.pipe p = some x → x.rows.find? (fun y => !y.arrived) = some r → carryDone s (r.carry.map Carry.w) = true →
      Happens (.pipeRowArrive p) s
        (s.updPipe p fun y => { y with rows := y.rows.map fun z => if z.id = r.id then { z with arrived := true } else z }))
  ∧ (∀ t s w, (s.tile t).lease.next = some w →
      Happens (.leaseGrant t) s ((s.setTile { s.tile t with lease := (s.tile t).lease.grant }).updCtx w
        fun c => c.readyFrom fun h => h = WaitOn.lease))

/-- The array acts: a step of an MMA adds its product, a gather and a load of B fill their latch, ACC.ZERO and ACC.WR write their
blocks, an ended chain closes, an overrun one is cut off with its trap pending (R260, R268, R269, R274 to R284). -/
def Obligations.ArrayEventsHappen : Prop :=
  (∀ t op i j k s o ch, (s.tile t).arr.find? (fun o => o.id = op) = some o → (s.tile t).chain = some ch →
      (∃ g f, o.op = .mmaBf16 g f ∨ o.op = .mmaCb4 g f ∨ o.op = .mmaPlane g f) →
      let x := s.tile t
      let d := descOf (o.ops.getD 2 0)
      let n := (i * d.nb + j) * d.kb + k
      let blk := d.acb + i * d.nb + j
      i < d.mb → j < d.nb → k < d.kb → o.steps.contains n = false → ch.owner = o.cid → arrReady s x o = true →
      arrBlocked x o [blk] = false → ch.late s x = false →
      let c := s.ctx o.cid
      let la := if (mmaExt o.op).getLsbD 5 then fillOf x.gatherLat o.latA else none
      let lb := if (mmaExt o.op).getLsbD 4 then fillOf x.bLat o.latB else none
      let a := panelTile s c o.id la (o.ops.getD 0 0) (sizeA (mmaForm o.op) d) (i * d.kb + k)
      let b := panelTile s c o.id lb (o.ops.getD 1 0) (sizeB (mmaForm o.op) d) (k * d.nb + j)
      let add (y : Tile) : State := if mmaForm o.op = 2 then applyPlane s y ch o d blk a b
        else applyFloat s y ch o blk ((look blk o.base).getD 0 + k) a b
      let z := (bankServed s 5 (panelKeys c la (o.ops.getD 0 0) (sizeA (mmaForm o.op) d) (i * d.kb + k)
        ++ panelKeys c lb (o.ops.getD 1 0) (sizeB (mmaForm o.op) d) (k * d.nb + j))).tile t
      (o.steps.length + 1 ≠ d.mb * d.nb * d.kb → Happens (.mmaStep t op i j k) s (add (z.setArr { o with steps := n :: o.steps })))
      ∧ (o.steps.length + 1 = d.mb * d.nb * d.kb →
          Happens (.mmaStep t op i j k) s ((add (z.dropArr op)).updCtx o.cid fun y => finishToken y op [])))
  ∧ (∀ t op s o g f, (s.tile t).arr.find? (fun o => o.id = op) = some o → o.op = .mgath g f → waitsDone (s.ctx o.cid) o.waits = true →
      lateIn s (s.tile t) = false →
      let sg := (o.ops.getD 1 0).toNat
      let idx := (List.range 32).map fun r => laneN 16 r (o.rows.getD 0 Row.zero).val.toNat
      let d := gatherData s (s.ctx o.cid) o.id idx (o.ops.getD 0 0).toNat (bitsOf 0 16 sg) (bitsOf 16 8 sg + 1) (bitsOf 24 24 sg)
      let used := (idx.filter fun v => v < bitsOf 0 16 sg).flatMap fun v => (List.range (bitsOf 16 8 sg + 1)).flatMap fun k =>
        spadKeys (s.ctx o.cid) (gatherAt (o.ops.getD 0 0).toNat (bitsOf 24 24 sg) v k) 64
      let x := (bankServed s 5 used).tile t
      Happens (.mgathFill t op) s ((s.setTile { x.dropArr op with gatherLat := fillLatch x.gatherLat op (leNat d.1) }).updCtx o.cid
        fun c => finishToken (if d.2 = 0 then c else bumpCount c 3 d.2) op []))
  ∧ (∀ t op s o g f, (s.tile t).arr.find? (fun o => o.id = op) = some o → o.op = .mldb g f → waitsDone (s.ctx o.cid) o.waits = true →
      lateIn s (s.tile t) = false →
      let sg := (o.ops.getD 1 0).toNat
      let sb := (o.ops.getD 0 0).toNat
      let n := 2048 * ((bitsOf 4 4 sg + 1) * (bitsOf 8 8 sg + 1))
      let data := opRead s (s.ctx o.cid) o.id (sb - sb % 128) n
      let x := (bankServed s 5 (spadKeys (s.ctx o.cid) (sb - sb % 128) n)).tile t
      Happens (.mldbLoad t op) s ((s.setTile { x.dropArr op with bLat := fillLatch x.bLat op (leNat data) }).updCtx o.cid
        fun c => finishToken c op []))
  ∧ (∀ t op s o, (s.tile t).arr.find? (fun o => o.id = op) = some o → afterChain (s.tile t) o = false →
      waitsDone (s.ctx o.cid) o.waits = true → arrBlocked (s.tile t) o o.blocks = false →
      let put (l : List (Nat × AccBlock)) : State :=
        (s.setTile ((s.tile t).dropArr op)).updCtx o.cid fun c => finishToken ((l.filter fun b => !(o.steps.contains b.1)).foldl (fun y b => y.setBlock b.1 b.2) c) op []
      (∀ g f, o.op = .accZero g f →
        Happens (.accOpPerformed t op) s (put (o.blocks.map fun b => (b, AccBlock.fresh (f.ext.getLsbD 4)))))
      ∧ (∀ g f, o.op = .accWr g f → Happens (.accOpPerformed t op) s (put (accWrBlocks f o.rows))))
  ∧ (∀ t s ch, (s.tile t).chain = some ch → ch.ending = true → ch.late s (s.tile t) = false →
      (∀ o ∈ (s.tile t).arr, o.cid = ch.owner → chainOp o = false) →
      (ch.split = true → arrBefore ((s.tile t).arr.filter fun o => o.id < ch.id) ch.owner (maskBlocks ch.mask) = false) →
      Happens (.chainComplete t) s ((s.setTile ((s.tile t).endChain s.level)).updCtx ch.owner (closeChain ch)))
  ∧ (∀ t s ch, (s.tile t).chain = some ch → ch.start + (s.ctx ch.owner).bind.chainMax ≤ (s.tile t).cyc →
      let gone := ((s.tile t).arr.filter fun o => o.cid = ch.owner && chainOp o).map ArrOp.id
      let cut (o : ArrOp) : ArrOp :=
        if o.cid = ch.owner && o.id < ch.id then { o with steps := maskBlocks ch.mask ++ o.steps } else o
      Happens (.chainOverrun t) s ((s.setTile { (s.tile t).endChain s.level with
          arr := ((s.tile t).arr.filter fun o => !(gone.contains o.id)).map cut }).updCtx ch.owner fun y =>
        let z := gone.foldl (fun v id => finishToken v id []) (spoil ch y)
        { z with pends := z.pends ++ [{ cls := 0x20, addr := ch.pc.toNat }] }))

/-- What happens to a context between its bundles: results due become visible, or a pending trap is taken; a wait for tokens and
a sleep end; a pre-emption is requested; periods that lengthen let harbour time pass (R22, R40, R136, R312, R335, R338, R343, R344). A
requested pre-emption is taken, and a drained save completes; a saved group whose resources are free is restored, each context
from its area, which must be well formed (R344 to R349, R362). -/
def Obligations.ContextAndSaveEventsHappen : Prop := ContextEventsHappen ∧ SavesAndRestoresHappen

/-- What happens to global accesses: pieces of loads and stores and atomics are performed at their homes, entries return in push
order, walks complete, stalled reads arrive (R200, R207, R208, R219, R242, R437). Accesses from outside: a peer's inside the
export window are performed under the export key, its loads answered with the bytes; a host's write that translates is performed
(R207, R328, R485). -/
def Obligations.MemoryAndOutsideEventsHappen : Prop := MemoryEventsHappen ∧ OutsideAccessesHappen

/-- The scheduler acts: a launch leaves its queue, a ticket reserves its tiles, pre-emption is asked for its sake, a group whose
banks are free starts, a released bank becomes free, a finished launch writes its record, a node fires, a launch is cancelled,
an audit replays and compares (R360 to R366, R376, R382, R394 to R399, R469 to R471). -/
def Sys2Proof.Claims.SchedulerEventsHappen : Prop :=
  (∀ s k b, let e := enterFired s
      nextQueue e = some k → (e.lq k).isDev = false →
      let u : State := { e with lastLq := put (e.lq k).level k e.lastLq }
      peekEntry u k (e.lq k) = some b →
      Happens .launchPop s (enterFired
        (takeLaunch (u.setLq k { e.lq k with head := (e.lq k).head + 1 }) (k / 16) (e.lq k).level b (e.lq k).known)))
  ∧ (∀ s k u b ws, let e := enterFired s
      nextQueue e = some k → (e.lq k).isDev = true → devQueueOk e (k / 16) (e.lq k) = true →
      schedPop { e with lastLq := put (e.lq k).level k e.lastLq } (k / 16) (e.lq k).base.toNat = some (u, ⟨b, false, ws⟩) →
      Happens .launchPop s (enterFired (takeLaunch (u.setLq k { e.lq k with head := (e.lq k).head + 1 }) (k / 16) (e.lq k).level b
        (ws ++ hostKnown e (k / 16)))))
  ∧ (∀ k s t d, s.tickets.find? (fun x => x.id = k) = some t → servable s t = true → t.die = none →
      (List.range 8).find? (fun n => ticketFits s t n) = some d →
      Happens (.ticketReserve k) s (reserveStep s { t with die := some d } d))
  ∧ (∀ k s t d, s.tickets.find? (fun x => x.id = k) = some t → servable s t = true → t.die = some d →
      Happens (.ticketReserve k) s (reserveStep s t d))
  ∧ (∀ k s t, s.tickets.find? (fun x => x.id = k) = some t → fitsSomewhere s t = false →
      let v := victims s t
      let hit (g : Group) : Bool := v.contains g.ticket && g.st = .running
      let ids := (s.groups.filter hit).map Group.id
      let up (c : Ctx) : Ctx := if ids.contains c.bind.group && c.askable then { c with preempt := true } else c
      let u : State := { s with
        cur := up s.cur, others := s.others.map up, groups := s.groups.map fun g => if hit g then { g with victim := some k } else g }
      Happens (.preemptTimeout k) s ((u.groups.filter fun g => ids.contains g.id).foldl groupSaved u))
  ∧ (∀ gr s g l, s.group gr = some g → s.launch g.launch = some l → g.st = .resident →
      let gs := s.groups.filter fun x => x.ticket = g.ticket && x.launch = g.launch && x.st = .resident
      (∀ x ∈ gs, ∀ i < x.banks, ((s.tile x.tile).banks.toList.getD (x.bank + i) ⟨none, none, none⟩).owner = none) →
      Happens (.groupReady gr) s ((gs.foldl (readyGroup l) s).updLaunch l.id fun x => { x with tstart := some (x.tstart.getD s.htime) }))
  ∧ (∀ t b s o g, ((s.tile t).banks.toList.getD b ⟨none, none, none⟩).owner = some o → s.group o = some g →
      g.releasing.contains b = true → bankBusy s g b = false →
      Happens (.bankFree t b) s (forgetGroups (updBanks s t b 1 fun x => { x with owner := none })))
  ∧ (∀ l s x, s.launch l = some x → launchOver s x = true → Happens (.completionRecordWrite l) s (completeLaunch s x))
  ∧ (∀ n s l t es, s.launch n = some l → l.node = some .parked → popInputs l.fn l.inq s = some (t, es) →
      let preds := es.map fun e => predOf t l.fn e.bytes
      let known := ((es.zip preds).filter fun x => !x.2.1.early).flatMap fun x => x.1.ws
      let u : Launch := { l with
        preds := preds.map Prod.fst, known := known ++ l.known, vis := preds.flatMap Prod.snd ++ l.vis }
      let put (k : NodeSt) : State := t.updLaunch n fun _ => { u with node := some k }
      match (es.map fun e => bitsOf 0 2 (numAt e.bytes 0 8)).find? fun v => 2 ≤ v with
      | some v => Happens (.nodeFire n) s (tellHeld (put .held) u 1 v)
      | none => Happens (.nodeFire n) s (enterFired (put .fired)))
  ∧ (∀ l s x, s.launch l = some x → Happens (.launchCancel l) s (cancelLaunch s x))
  ∧ (∀ a s x t, s.audits.find? (fun y => y.id = a) = some x → settledAudit s x = true → x.replay = none → placeReplay s x = some t →
      Happens (.auditReplay a) s t)
  ∧ (∀ a s x n g, s.audits.find? (fun y => y.id = a) = some x → x.replay = some n → s.group n = some g → replayDone s x g = true →
      let u := endAudit s x
      (x.lack = false → x.sig = x.sig2 → Happens (.auditCompare a) s (u.updSvc x.tile fun v => { v with susp := v.susp - 1 }))
      ∧ (x.lack = true ∨ x.sig ≠ x.sig2 →
          Happens (.auditCompare a) s (suspect (suspect (u.updLaunch x.launch fun l => { l with taint := true }) x.tile) g.tile)))

/-- What these acts change, and what they leave: a launch taken from a host's queue joins the launches, with its tickets or with its
breach; a reservation claims free contexts and open banks of one tile; a complete launch and a cancelled one. -/
def Sys2Proof.Claims.LaunchesTakeEffect : Prop :=
  (∀ s k b, (∀ l ∈ s.launches, l.node ≠ some .fired) → nextQueue s = some k → (s.lq k).isDev = false →
      let u : State := { s with lastLq := put (s.lq k).level k s.lastLq }
      let v := u.setLq k { s.lq k with head := (s.lq k).head + 1 }
      peekEntry u k (s.lq k) = some b →
      let l := launchOf v (k / 16) (s.lq k).level b (s.lq k).known
      ∃ t, exec .launchPop s = .next t ∧ (t.lq k).head = (s.lq k).head + 1 ∧ (∀ j, j ≠ k → t.lq j = s.lq j)
        ∧ t.mem = s.mem ∧ t.spad = s.spad ∧ t.cur = s.cur ∧ t.others = s.others ∧ t.groups = s.groups
        ∧ (breachOf v l b = 0 → l.graph = 0 → t.launches = s.launches ++ [l]
            ∧ t.tickets = s.tickets ++ (List.range l.n).map fun i => { launchTicket s l i with id := s.uid + 1 + i })
        ∧ (breachOf v l b = 0 → l.graph ≠ 0 → t.launches = s.launches ++ [{ l with node := some .parked }] ∧ t.tickets = s.tickets)
        ∧ (breachOf v l b ≠ 0 → t.tickets = s.tickets
            ∧ t.launches = s.launches ++ [{ l with n := 0, cancelled := true, first := some (0x31, breachOf v l b, 0) }]))
  ∧ (∀ k s t d l u, s.tickets.find? (fun x => x.id = k) = some t → servable s t = true → t.die = some d → t.dom = none →
      restoreFirst s t = false → replayFirst s t = false → s.launch t.launch = some l → t.groups.length + 1 < l.members →
      t.rows ≠ 0 ∨ gangDepth s l = 0 → reserveMember s t l d t.groups.length = some u →
      ∃ w g, exec (.ticketReserve k) s = .next w ∧ w.groups = s.groups ++ [g] ∧ g.ticket = t.id ∧ g.launch = l.id ∧ g.st = .reserving
        ∧ g.tile / 16 = d ∧ (s.tile g.tile).svc.st = .enabled ∧ (∀ m ∈ g.members, m / 16 = g.tile ∧ hwFree s m = true)
        ∧ (∀ i < g.banks, bankOpen s g.tile (g.bank + i) = true)
        ∧ w.cur = s.cur ∧ w.others = s.others ∧ w.mem = s.mem ∧ w.spad = s.spad)
  ∧ (∀ l s x a b p q, s.launch l = some x → launchOver s x = true → x.outq = [] → x.earlyEdges = false →
      (∀ y ∈ s.launches, y.preds = [] ∧ y.node ≠ some .watching ∧ (y.node ≠ some .queued ∨ y.issued ≠ y.n)) →
      devWrite s (devAgent x.fn) x.fn (x.record + 8)
        (recordTail x.user (x.tstart.getD 0) x.tend x.ngrp x.ntaint (x.first.getD (0, 0, 0)).2.2) = .ok (a, p) →
      devWrite a (devAgent x.fn) x.fn x.record
        (recordStatus (x.first.getD (0, 0, 0)).1 (x.first.getD (0, 0, 0)).2.1 x.verdict) = .ok (b, q) →
      ∃ t, exec (.completionRecordWrite l) s = .next t ∧ t.mem = b.mem ∧ t.launches = s.launches.filter (fun y => y.id != x.id)
        ∧ t.tickets = s.tickets ∧ t.spad = s.spad ∧ (∀ g ∈ t.groups, g.launch = x.id → g.st = .retired))
  ∧ (∀ l s x, s.launch l = some x →
      ∃ t, exec (.launchCancel l) s = .next t
        ∧ (∀ k ∈ t.tickets, k.dom = none → k.launch ≠ x.id)
        ∧ ∃ y, t.launch l = some y ∧ y.cancelled = true ∧ y.node = none ∧ y.first.isSome = true)

/-- Task domains act: a queued task that is the next of its tile starts in a free context, the finished frontier task commits and
the next becomes the frontier, an empty domain completes with its record (R402, R404, R408, R409, R411, R414, R418, R427). -/
def Sys2Proof.Claims.TaskEventsHappen : Prop :=
  (∀ d t s x u c, s.dom d = some x → x.task t = some u → x.resident = true → u.st = .queued →
      (x.nextOn u.tile).map Task.seq = some t → freeTaskOn s x u.tile = some c →
      (x.isFront t = true ∨ x.linesOn u.tile + 64 ≤ 8192) → Happens (.taskDispatch d t) s (startTask s x u c))
  ∧ (∀ d s x t, s.dom d = some x → x.frontier = some t → t.st = .finished →
      (∀ g ∈ s.gops, g.task = some (d, t.seq) → g.writes = false) →
      Happens (.taskCommit d) s (becomeFront ((drainTask s d t).updDom d fun y => { y with
        tasks := y.tasks.filter fun u => u.seq != t.seq, committed := y.committed + 1, taint := y.taint || t.poison
        corrected := y.corrected || t.corrected }) d))
  ∧ (∀ d s x, s.dom d = some x → x.resident = true → x.tasks = [] → carryDone s x.ws = true →
      let why := x.stopped.getD (0, 0, 0)
      let tail := recordTail 0 (x.tstart.getD 0) x.tend (x.committed % 2 ^ 32) (if x.taint then 1 else 0) why.2.2
      Happens (.domainComplete d) s (sweepObjs (writeRecord (releaseDomain s x) x.vf x.record tail
        (recordStatus why.1 why.2.1 (if x.taint then 2 else if x.corrected then 1 else 0))).1))
  ∧ (∀ fn s m x, mailFor s fn 3 = some m → (∀ y ∈ s.doms, y.vf = fn → y.resident = true) → domainChecks s fn m.arg = .ok x →
      Happens (.domainOpen fn) s (claimStore { s with
        uid := s.uid + 1, doms := s.doms ++ [x]
        tickets := s.tickets ++ [{ id := s.uid, launch := 0, num := 0, dom := some x.id, level := 15, since := s.htime, die := none
                                   groups := [], rows := 0, spared := [], after := none }] } x))

/-- The commands of the mailbox, after their checks, have their effect and end with status 0: a rung doorbell fetches the block,
an object is loaded and named by a handle, or marked for unloading, a held node goes on, the margin table and a quote are
written, keys, versions, hints and signer digests enter their slots when their signed command is accepted, and
else the cause is reported (R372 to R374, R399, R443, R458, R459, R478, R479, R483, R517). -/
def Obligations.MailboxCommandsHappen : Prop :=
  (∀ fn s b, fn ≤ 64 → (s.fn fn).flr = false → (s.fn fn).mail.cmd = none → (s.fn fn).mail.addr.toNat % 64 = 0 →
      devRead s (devAgent fn) fn (s.fn fn).mail.addr.toNat 256 = .ok (b, false) → Happens (.mbdoorWrite fn 1) s (takeBlock s fn b))
  ∧ (∀ fn s m r b, mailFor s fn 1 = some m → mailRead s fn m.arg 24 = some r → numAt r 0 8 % 64 = 0 → numAt r 8 8 % 64 = 0 →
      numAt r 16 8 % 64 = 0 → readObj s fn (numAt r 0 8) = some b →
      Happens (.loadCodeObject fn) s (match checkObj s b with
        | .error k => mailDone s fn k.1 (zeros 3 ++ leBytes 4 k.2)
        | .ok o => match placeObj s fn o (numAt r 8 8) (numAt r 16 8) with
          | none => mailDone s fn 0x0D []
          | some t => mailDone { t with
              uid := t.uid + 1, objs := t.objs ++ [codeObj (newHandle t) fn (numAt r 8 8) (numAt r 16 8) o] } fn 0
              (zeros 7 ++ leBytes 8 (newHandle t))))
  ∧ (∀ fn s m o, mailFor s fn 2 = some m → s.objs.find? (fun o => o.handle = m.arg2 && o.fn = fn && !o.unloading) = some o →
      Happens (.unload fn) s (mailDone (sweepObjs { s with
        objs := s.objs.map fun x => if x.handle = o.handle then { x with unloading := true } else x }) fn 0 []))
  ∧ (∀ fn s m l, mailFor s fn 4 = some m → s.launches.find? (fun l => l.heldAt fn m.arg) = some l →
      Happens (.nodeReleaseCancel fn) s (mailDone (if m.arg2 = 0 then releaseNode s l else cancelLaunch s l) fn 0 []))
  ∧ (∀ fn s m t w, mailFor s fn 5 = some m →
      let recs := (s.tile m.arg2).svc.recs
      devWrite s (devAgent fn) fn m.arg (recs.flatMap (marginBytes m.arg2)) = .ok (t, w) →
      Happens (.readMarginTable fn) s (mailDone t fn 0 (zeros 7 ++ leBytes 8 recs.length)))
  ∧ (∀ fn s m n t w, mailFor s fn 6 = some m → mailRead s fn m.arg 32 = some n →
      let fields := (List.range 1024).map (Config.quoteByte (quoteInfo s n))
      devWrite s (devAgent fn) fn m.arg2 (fields ++ (zeros 16 ++ (List.range 5357).map (Config.quoteSign fields) ++ zeros 3)) = .ok (t, w) →
      Happens (.attestationQuote fn) s (mailDone t fn 0 []))
  ∧ (∀ fn s m, mailFor s fn 0x10 = some m →
      let k := s.keySlot m.arg2
      Happens (.keyLoad fn) s (match signedArgs s fn m 128 with
        | .error c => mailDone s fn c []
        | .ok a => if zeroAt a 72 56 = false then mailDone s fn 0x02 [] else if k.kst = 1 then mailDone s fn 0x04 [] else
          match Config.keyUnwrap (a.take 72) with
          | none => mailDone s fn 0x04 []
          | some key => mailDone (acceptCounter { s with keys := put m.arg2 { k with kst := 1, key := key } s.keys } m) fn 0 []))
  ∧ (∀ fn s m, mailFor s fn 0x11 = some m →
      Happens (.keyRevoke fn) s (mailDone (markTr { s with keys := put m.arg2 (s.keySlot m.arg2).revoke s.keys } (s.keySlot m.arg2).own) fn 0 []))
  ∧ (∀ fn s m, mailFor s fn 0x12 = some m →
      let x := s.signer (bitsOf 0 6 m.arg2)
      Happens (.raiseMinsvn fn) s (match signedArgs s fn m 0 with
        | .error c => mailDone s fn c []
        | .ok _ => mailDone (acceptCounter
            (s.setSigner (bitsOf 0 6 m.arg2) { x with minsvn := max x.minsvn (bitsOf 32 32 m.arg2) }) m) fn 0 []))
  ∧ (∀ fn s m, mailFor s fn 0x13 = some m →
      let bin := bitsOf 8 3 m.arg2
      let mv := bitsOf 16 10 m.arg2
      Happens (.guardBandHint fn) s (match signedArgs s fn m 0 with
        | .error c => mailDone s fn c []
        | .ok _ => mailDone (acceptCounter (s.updSvc (bitsOf 0 7 m.arg2) fun v =>
            ({ v with hints := put bin mv v.hints }).addRec bin 4 mv 0 s.htime) m) fn 0 []))
  ∧ (∀ fn s m, mailFor s fn 0x14 = some m →
      Happens (.writeSignerDigest fn) s (match signedArgs s fn m 64 with
        | .error c => mailDone s fn c []
        | .ok a => if zeroAt a 32 32 = false then mailDone s fn 0x02 [] else mailDone (acceptCounter
            (s.setSigner m.arg2 { s.signer m.arg2 with enabled := true, digest := numAt a 0 32 }) m) fn 0 []))

/-- The register writes have their effect on a function that answers, an access of 4 or 8 bytes of BAR0 or BAR2 that of the
register at its offset on the bytes it names; a device reset boots, a function-level reset ends what its function has (R8, R392, R437, R445, R455, R475, R476, R481, R483, R484). -/
def Sys2Proof.Claims.RegisterWritesAct : Prop :=
  (∀ fn q v s, fnAnswers s fn = true → q < 16 →
      Happens (.lqtailWrite fn q v) s (writeLqTail s (16 * fn + q) v (BitVec.allOnes 64))
      ∧ Happens (.lqcfgWrite fn q v) s (writeLqCfg s (16 * fn + q) v (BitVec.allOnes 64)))
  ∧ (∀ fn v s, fnAnswers s fn = true →
      Happens (.tinvWrite fn v) s (writeTinv s fn v)
      ∧ (oldAccess s fn = false →
          Happens (.tsyncRead fn) s { s.setFn fn { s.fn fn with tsync := 0 } with fresh := s.fresh + 1 })
      ∧ (oldAccess s fn = true →
          Happens (.tsyncRead fn) s { s.setFn fn { s.fn fn with tsync := nonzero (Config.freeWord s.fresh) } with fresh := s.fresh + 1 }))
  ∧ (∀ fn w v s, fnAnswers s 0 = true → fn ≤ 64 → w < 2 → Happens (.partWrite fn w v) s (writeFnPart s fn w v (BitVec.allOnes 64)))
  ∧ (∀ fn v s, fnAnswers s 0 = true → fn ≤ 64 → Happens (.pwinWrite fn v) s (writePwin s fn v (BitVec.allOnes 64)))
  ∧ (∀ t v s, fnAnswers s 0 = true → tileIdOk t = true → Happens (.injWrite t v) s (writeInj s t v (BitVec.allOnes 64)))
  ∧ (∀ v s, fnAnswers s 0 = true → Happens (.devidWrite v) s (writeDevid s v (BitVec.allOnes 64))
      ∧ Happens (.rlogheadWrite v) s (writeRlogHead s v (BitVec.allOnes 64)))
  ∧ (∀ (r : RegAccess) (s : State), r.size = 4 ∨ r.size = 8 → r.off % r.size = 0 → r.fn ≤ 64 →
      let o := r.off / 8 * 8
      let v : Word := if r.off % 8 = 4 then r.val <<< 32 else r.val
      let m : Word := if r.size = 8 then BitVec.allOnes 64 else if r.off % 8 = 4 then 0xFFFFFFFF00000000 else 0xFFFFFFFF
      (r.bar2 = false → o = 0x108 → exec (.registerWrite r) s = exec (.mbdoorWrite r.fn (v &&& m)) s)
      ∧ (r.bar2 = false → o ≠ 0x108 → fnAnswers s r.fn = true ∨ ((o = 0x100 ∨ o = 0x110) ∧ (s.fn r.fn).flr = false) → Happens (.registerWrite r) s (writeBar0 s r.fn o v m))
      ∧ (r.bar2 = true → r.fn = 0 → fnAnswers s 0 = true → Happens (.registerWrite r) s (writeBar2 s o v m)))
  ∧ (∀ b s, exec (.deviceReset b) s = .next (bootState s b))
  ∧ (∀ fn s, 0 < fn → fn ≤ 64 → Happens (.functionLevelReset fn) s (resetFn s fn))
  ∧ (∀ s, Happens (.functionLevelReset 0) s ((List.range 65).foldl resetFn s))

/-- Each bit of a register that a write covers and that may be written takes the value written; every other stays (R8). -/
def Sys2Proof.Claims.TakesBits {w : Nat} (old new : BitVec w) (v m f : Word) : Prop :=
  ∀ i, new.getLsbD i = if m.getLsbD i && f.getLsbD i then decide (i < w) && v.getLsbD i else old.getLsbD i
/-- But for one function's registers the machine stays. -/
structure Sys2Proof.Claims.FnOnly (fn : Nat) (s t : State) : Prop where
  fns : ∀ g, g ≠ fn → t.fn g = s.fn g
  lqs : t.lqs = s.lqs
  mem : t.mem = s.mem
  spad : t.spad = s.spad
  cur : t.cur = s.cur
  others : t.others = s.others
  tiles : t.tiles = s.tiles
  dev : t.dev = s.dev
/-- But for the registers of the management window the machine stays. -/
structure Sys2Proof.Claims.DevOnly (s t : State) : Prop where
  fns : t.fns = s.fns
  lqs : t.lqs = s.lqs
  mem : t.mem = s.mem
  spad : t.spad = s.spad
  cur : t.cur = s.cur
  others : t.others = s.others
  tiles : t.tiles = s.tiles

/-- What the writes change, each register by the bits that its description lets be written, and what they leave (R8, R392, R431, R433,
R437, R445, R451, R455, R460, R464, R467, R475, R478, R480, R484, R518). -/
def Sys2Proof.Claims.RegisterWritesChange : Prop :=
  (∀ fn q v s, fnAnswers s fn = true → q < 16 → let k := 16 * fn + q
      (∃ t, exec (.lqtailWrite fn q v) s = .next t
        ∧ (t.lq k).tail = v.setWidth 32 ∧ (t.lq k).known = allHostWs s ∧ (t.lq k).base = (s.lq k).base ∧ (t.lq k).head = (s.lq k).head
        ∧ (let n := { s.lq k with tail := v.setWidth 32 }
           (n.overrun = false → (t.lq k).cfg = (s.lq k).cfg ∧ t.fns = s.fns ∧ t.dev = s.dev)
           ∧ (n.overrun = true → (t.lq k).cfg = ((s.lq k).cfg ||| 0x40000000) &&& 0x7FFFFFFF))
        ∧ (∀ j, j ≠ k → t.lq j = s.lq j) ∧ t.mem = s.mem ∧ t.cur = s.cur ∧ t.others = s.others ∧ t.tiles = s.tiles)
      ∧ (∃ t, exec (.lqcfgWrite fn q v) s = .next t
        ∧ (t.lq k).base = (s.lq k).base ∧ (t.lq k).head = (s.lq k).head ∧ (t.lq k).tail = (s.lq k).tail
        ∧ (∀ i, i < 29 → i ≠ 8 → ¬ (i < 4) → ¬ (8 ≤ i ∧ i < 13) → (t.lq k).cfg.getLsbD i = (s.lq k).cfg.getLsbD i)
        ∧ (∀ i, i < 4 ∨ 8 ≤ i ∧ i < 13 ∨ i = 29 → (t.lq k).cfg.getLsbD i = v.getLsbD i)
        ∧ (v.getLsbD 31 = false → (t.lq k).cfg.getLsbD 31 = false
            ∧ (t.lq k).cfg.getLsbD 30 = ((s.lq k).cfg.getLsbD 30 && !v.getLsbD 30))
        ∧ (∀ j, j ≠ k → t.lq j = s.lq j) ∧ t.mem = s.mem ∧ t.cur = s.cur ∧ t.others = s.others ∧ t.tiles = s.tiles))
  ∧ (∀ (r : RegAccess) (s : State), r.size = 4 ∨ r.size = 8 → r.off % r.size = 0 → r.fn ≤ 64 →
      let o := r.off / 8 * 8
      let v : Word := if r.off % 8 = 4 then r.val <<< 32 else r.val
      let m : Word := if r.size = 8 then BitVec.allOnes 64 else if r.off % 8 = 4 then 0xFFFFFFFF00000000 else 0xFFFFFFFF
      let f := s.fn r.fn
      (r.bar2 = false → fnAnswers s r.fn = true → ∃ t, exec (.registerWrite r) s = .next t
        ∧ (o = 0x8 → FnOnly r.fn s t ∧ t.fn r.fn = if (v &&& m).getLsbD 63 then { f with recfail := 0 } else f)
        ∧ (o = 0x100 → FnOnly r.fn s t ∧ ∃ a, TakesBits f.mail.addr a v m (BitVec.allOnes 64)
            ∧ t.fn r.fn = { f with mail := { f.mail with addr := a } })
        ∧ (o = 0x110 → FnOnly r.fn s t ∧ t.fn r.fn = { f with mail := { f.mail with drop := f.mail.drop && !(v &&& m).getLsbD 1 } })
        ∧ (o = 0x6000 → FnOnly r.fn s t ∧ ∃ a, TakesBits f.ptroot a v m (BitVec.allOnes 64)
            ∧ t.fn r.fn = { f with ptroot := a, tmark := s.uid })
        ∧ (o = 0x6100 → FnOnly r.fn s t ∧ ∃ a, TakesBits f.ltol a v m (BitVec.allOnes 64) ∧ t.fn r.fn = { f with ltol := a })
        ∧ (o = 0x0 ∨ o = 0x6010 ∨ 0x200 ≤ o ∧ o < 0x1000 → t = s.tick))
      ∧ (r.bar2 = true → r.fn = 0 → fnAnswers s 0 = true → ∃ t, exec (.registerWrite r) s = .next t
        ∧ (o = 0x7000 → DevOnly s t ∧ ∃ a, TakesBits s.dev.rlogBase a v m 0x00FFFFFFFFFFFFFF ∧ t.dev = { s.dev with rlogBase := a })
        ∧ (o = 0x1F008 → DevOnly s t ∧ ∃ a, TakesBits s.dev.auditlog a v m 0x000FFFFFFFFF0000 ∧ t.dev = { s.dev with auditlog := a })
        ∧ (o = 0x7020 → r.off % 8 = 0 → DevOnly s t ∧ ∃ a, TakesBits (BitVec.ofNat 64 s.dev.qthresh) a v m 0xFFFF
            ∧ t.dev = { s.dev with qthresh := BitVec.toNat (w := 64) a })
        ∧ (o = 0x1E000 → r.off % 8 = 0 → DevOnly s t ∧ ∃ a, TakesBits (BitVec.ofNat 64 s.dev.rbfloor) a v m 0xFFFF
            ∧ t.dev = { s.dev with rbfloor := BitVec.toNat (w := 64) a })
        ∧ (∀ n < 8, o = 0x1D000 + 8 * n → DevOnly s t
            ∧ ∃ a, TakesBits (BitVec.ofNat 64 (s.dev.dspwait.toList.getD n 0)) a v m 0xFFFFFFFF
            ∧ t.dev = { s.dev with dspwait := s.dev.dspwait.setIfInBounds n (BitVec.toNat (w := 64) a) })
        ∧ (o = 0x1F100 → DevOnly s t
            ∧ (s.dev.devidSet = true ∨ r.size = 4 ∧ r.off % 8 = 4 → t.dev = s.dev)
            ∧ (s.dev.devidSet = false → r.off % 8 = 0 → t.dev = { s.dev with
                devid := v.toNat % 2 ^ 9, dtag := bitsOf 16 16 v.toNat, devidSet := true }))))
  ∧ (∀ fn v s, fnAnswers s fn = true → ∃ t, exec (.tinvWrite fn v) s = .next t ∧ FnOnly fn s t
      ∧ t.fn fn = { s.fn fn with tmark := s.uid } ∧ t.uid = s.uid + 1
      ∧ t.tlb = s.tlb.filter fun e => !(e.vf = fn && (v.getLsbD 0 || e.page = bitsOf 12 44 v.toNat / 2 ^ (9 * e.level))))
  ∧ (∀ i v s, fnAnswers s 0 = true → tileIdOk i = true → ∃ t, exec (.injWrite i v) s = .next t
      ∧ (t.tile i).svc.pst = .run ∧ (∀ j, j ≠ i → t.tile j = s.tile j) ∧ t.fns = s.fns ∧ t.dev = s.dev ∧ t.mem = s.mem
      ∧ (v.getLsbD 31 = true → v.toNat % 2 ^ 24 = 0 →
          (t.tile i).svc.inj = (s.tile i).svc.inj ∧ (t.tile i).svc.injSeen = (s.tile i).svc.injSeen)
      ∧ (v.getLsbD 31 = false ∨ v.toNat % 2 ^ 24 ≠ 0 →
          TakesBits (s.tile i).svc.inj (t.tile i).svc.inj v (BitVec.allOnes 64) 0x80FFFFFF ∧ (t.tile i).svc.injSeen = 0))

/-- What a reset leaves: after a device reset no work, no context and no scratchpad byte, of memory only what is not the device's, the boot
cause, the identity and the counters that NVM keeps; after a function-level reset nothing of the function's work, its registers at
reset but for PWIN and PART, and every other function's registers and queues as they were (R481, R483). -/
def Sys2Proof.Claims.ResetsLeave : Prop :=
  (∀ b s, ∃ t, exec (.deviceReset b) s = .next t
      ∧ t.cur = State.reset.cur ∧ t.others = [] ∧ t.groups = [] ∧ t.launches = [] ∧ t.tickets = [] ∧ t.doms = [] ∧ t.objs = []
      ∧ t.spad = [] ∧ t.tlb = [] ∧ t.gops = [] ∧ t.sops = [] ∧ t.lqs = [] ∧ t.keys = []
      ∧ (∀ a, memByte t.mem a = if 2 ^ 48 ≤ a then memByte s.mem a else memDefault)
      ∧ t.dev.boot = b.fail.map BootFail.cause ∧ t.dev.signers = s.dev.signers ∧ t.dev.serial = s.dev.serial
      ∧ t.dev.counter = s.dev.counter ∧ t.dev.fwDigest = s.dev.fwDigest ∧ t.dev.fwSvn = s.dev.fwSvn ∧ t.dev.devidSet = false
      ∧ (∀ fn ≤ 64, (t.fn fn).ready = b.fail.isNone ∧ (t.fn fn).ranges = [] ∧ (t.fn fn).mail.cmd = none ∧ (t.fn fn).flr = false))
  ∧ (∀ f s, 0 < f → f ≤ 64 → ∃ t, exec (.functionLevelReset f) s = .next t
      ∧ t.fn f = { Fn.reset f with pwin := (s.fn f).pwin, part := (s.fn f).part, tmark := s.uid }
      ∧ (∀ g, g ≠ f → t.fn g = s.fn g) ∧ (∀ k, k / 16 ≠ f → t.lq k = s.lq k) ∧ (∀ k, k / 16 = f → t.lq k = LaunchQ.reset)
      ∧ t.mem = s.mem ∧ (∀ l ∈ t.launches, l.fn ≠ f) ∧ (∀ d ∈ t.doms, d.vf ≠ f) ∧ (∀ g ∈ t.gops, g.vf ≠ f)
      ∧ (∀ o ∈ t.sops ++ t.syncRegs, o.vf ≠ f) ∧ (∀ e ∈ t.tlb, e.vf ≠ f) ∧ (∀ k ∈ t.keys, k.2.own = f → k.2.kst ≠ 1))

/-- The tiles' supervision acts: replays are counted, a fifth one in a row is a hard failure, margins move up and down, drained
tiles are fenced, power states are entered and left, wear is added (R449, R450, R452 to R461, R466). -/
def Sys2Proof.Claims.TileServiceEventsHappen : Prop :=
  (∀ t n s, 0 < n → (s.tile t).svc.st = .enabled ∨ (s.tile t).svc.st = .draining →
      let r := min n 4
      let u := s.updSvc t fun w => { w with
        caught := true, trepl := (w.trepl + r) % 2 ^ 64, harderr := (w.harderr + (r - 1)) % 2 ^ 32
        up := ⟨w.up.sealed, w.up.replays + r⟩, down := ⟨w.down.sealed, w.down.replays + r⟩ }
      Happens (.timingReplay t n) s (if 5 ≤ n then hardFail u t else u))
  ∧ (∀ t n s, 5 ≤ n → (s.tile t).svc.st = .enabled ∨ (s.tile t).svc.st = .draining → ∃ u, exec (.timingReplay t n) s = .next u
      ∧ (u.tile t).svc.st = .fenced ∧ (u.tile t).svc.boost = none
      ∧ (s.tickets = [] → s.audits = [] → s.doms = [] → ∀ g ∈ s.groups, g.tile = t → g.gone = false →
          ∀ m ∈ g.members, (u.ctx m).status = .retired ∨ (u.ctx m).status = .free))
  ∧ (∀ t s, 105 ≤ (s.tile t).svc.up.replays → Happens (.marginUpWindow t) s (raiseMargin s t))
  ∧ (∀ t s, let v := (s.tile t).svc
      let m := v.mvNow - 5
      2 ^ 26 ≤ v.down.sealed → v.down.replays ≤ 67 → (v.cool = none ∨ ∃ n, v.cool = some n ∧ 2 ^ 28 ≤ n) →
      binStart.toList.getD v.bin 0 - 40 ≤ m →
      Happens (.marginDownWindow t) s (s.updSvc t fun w => ({ (w.setMv m) with down := ⟨0, 0⟩ }).addRec w.bin 1 m w.down.replays s.htime))
  ∧ (∀ t s, (s.tile t).svc.st = .draining → workOn s t = false →
      Happens (.tileDrained t) s (s.updSvc t fun v => { v with st := .fenced, boost := none }))
  ∧ (∀ t s, (s.tile t).svc.pst = .run → tileIdle s t = true → exitNs .idle ≤ toleranceOf s t →
      (s.tile t).svc.sinceCyc + 64 ≤ (s.tile t).cyc →
      Happens (.powerStateEnter t) s (s.updSvc t fun w => { w with
        pst := .idle, since := s.htime, hold := s.htime + holdNs .idle }))
  ∧ (∀ t s, (s.tile t).svc.pst = .idle → tileIdle s t = true → exitNs .docked ≤ toleranceOf s t →
      (s.tile t).svc.since + 10000 ≤ s.htime →
      Happens (.powerStateEnter t) s (s.updSvc t fun w => { w with
        pst := .docked, since := s.htime, hold := s.htime + holdNs .docked }))
  ∧ (∀ t s, (s.tile t).svc.pst = .docked → tileIdle s t = true → exitNs .drydock ≤ toleranceOf s t →
      (s.tile t).svc.since + 1000000 ≤ s.htime →
      (residentOn s t = [] → Happens (.powerStateEnter t) s ((loseSpad s t).updSvc t fun w => { w with
        pst := .drydock, since := s.htime, hold := s.htime + holdNs .drydock }))
      ∧ (residentOn s t ≠ [] → Happens (.powerStateEnter t) s (askDry s t)))
  ∧ (∀ t s, let u := if wakeDue s t then wakeTile s t else s
      ((u.tile t).svc.pst = .run → (u.tile t).svc.dry ≠ [] → Happens (.tileWake t) s (undock u t))
      ∧ ((u.tile t).svc.pst ≠ .run ∨ (u.tile t).svc.dry = [] → Happens (.tileWake t) s u))
  ∧ (∀ t secs mv temp age s,
      let up (v : Svc) : Svc :=
        let u := { v with wear := v.wear + wornHours secs (wearExp mv temp), temp := temp, age := age }
        if u.ceil < u.bin then { (u.toBin 1) with boost := none } else u
      Happens (.wearIntegration t secs mv ⟨temp, age⟩) s (s.updSvc t up))

/-- Power and heat: measured power lowers or lifts bins within the budget, boost leases end, budget messages and leases change the
shares, the thermal limit and its end (R462 to R465, R473). -/
def Sys2Proof.Claims.PowerEventsHappen : Prop :=
  (∀ watts busy s,
      let p := (watts :: s.dev.power).take 10
      let u : State := { s with dev := { s.dev with power := p } }
      (s.dev.thermal = true → Happens (.powerMeasure watts busy) s (lowerNext u true))
      ∧ (s.dev.thermal = false → s.rbcap * p.length < p.sum →
          ((s.live.any fun t => (s.tile t).svc.boost.isSome) = true → Happens (.powerMeasure watts busy) s (endBoosts u))
          ∧ ((s.live.any fun t => (s.tile t).svc.boost.isSome) = false → Happens (.powerMeasure watts busy) s (lowerNext u false)))
      ∧ (s.dev.thermal = false → p.sum ≤ s.rbcap * p.length →
          Happens (.powerMeasure watts busy) s (grantBoosts (liftNext u) (s.rbcap - watts) busy)))
  ∧ (∀ t s e, (s.tile t).svc.boost = some e → e ≤ s.htime →
      Happens (.boostLeaseExpire t) s (s.updSvc t fun v => { (v.toBin 1) with boost := none }))
  ∧ (∀ m s, m.out = true → m.src = s.dev.devid → m.dst ≠ s.dev.devid → (∀ q, look m.dst s.dev.sentSeq = some q → q < m.seq) →
      m.watts ≤ 4 * s.dev.rbfloor + s.dev.received s.htime - s.dev.given s.htime →
      Happens (.budgetMessage m) s { s with dev := { s.dev with
        shares := s.dev.shares ++ [⟨true, m.dst, m.watts, m.exp⟩], sentSeq := put m.dst m.seq s.dev.sentSeq, sent := s.dev.sent ++ [m] } })
  ∧ (∀ m s, m.out = false → m.dst = s.dev.devid → m.src ≠ s.dev.devid → (∀ q, look m.src s.dev.lastSeq = some q → q < m.seq) →
      s.htime + 50 < m.exp →
      Happens (.budgetMessage m) s { s with dev := { s.dev with
        shares := s.dev.shares ++ [⟨false, m.src, m.watts, m.exp⟩], lastSeq := put m.src m.seq s.dev.lastSeq } })
  ∧ (∀ i s x, s.dev.shares[i]? = some x → (if x.out then x.exp + 50 ≤ s.htime else x.exp ≤ s.htime + 50) →
      Happens (.budgetLeaseExpire i) s { s with dev := { s.dev with shares := s.dev.shares.eraseIdx i } })
  ∧ (∀ s, Happens .thermalLimit s (lowerNext { s with dev := { s.dev with thermal := true } } true))
  ∧ (∀ s, s.dev.thermal = true →
      let u := s.live.foldl (fun st t => st.updSvc t fun v => if v.heat then v.toBin 1 else v) s
      Happens .thermalRecovery s { u with dev := { u.dev with thermal := false } })

/-- DRAM, links and time: a failing region is quarantined, scrubbed errors are counted, a lost link takes its dies' tiles or stops
the device, ports retrain and train, time is or is not in sync (R444 to R449, R477, R482, R486, R487). -/
def Obligations.LinkAndDramEventsHappen : Prop :=
  (∀ q s, q.pa % 32 = 0 → q.pa + q.len ≤ 2 ^ 30 * 384 → q.len ≠ 0 → Happens (.dramQuarantine q) s (quarantine s q)
      ∧ ∃ t, exec (.dramQuarantine q) s = .next t
        ∧ t.dev.quar.map (fun r => (r.pa, r.len, r.kind)) = s.dev.quar.map (fun r => (r.pa, r.len, r.kind)) ++ [(q.pa, q.len, q.kind)]
        ∧ (s.dev.repairs.length < 4096 → t.dev.repairs.length = s.dev.repairs.length + 1)
        ∧ (4096 ≤ s.dev.repairs.length → t.dev.repairs = s.dev.repairs)
        ∧ (rlogOpen s.dev = false → s.dev.rlogWait.length < 4096 → t.mem = s.mem ∧ t.dev.rlogWait.length = s.dev.rlogWait.length + 1
            ∧ ∀ x, t.poison.contains x = (s.poison.contains x
              || q.lost.contains x && decide (q.pa / 32 ≤ x) && decide (x ≤ (q.pa + q.len - 1) / 32)))
        ∧ t.cur = s.cur ∧ t.others = s.others ∧ t.spad = s.spad ∧ t.groups = s.groups ∧ t.launches = s.launches)
  ∧ (∀ pa len kind n s, pa % 32 = 0 → len ≠ 0 → pa + len ≤ 2 ^ 30 * 384 → kind < 4 →
      let k := 4 * pa + kind
      let e := (look k s.dev.errs).getD 0 + n
      let u : State := { s with dev := { s.dev with errs := put k e s.dev.errs } }
      (e < s.dev.qthresh → Happens (.hbmScrub pa ⟨len, kind, n⟩) s u)
      ∧ (s.dev.qthresh ≤ e → n ≠ 0 → (∀ r ∈ s.dev.quar, r.pa ≠ pa ∨ r.kind ≠ kind) →
          Happens (.hbmScrub pa ⟨len, kind, n⟩) s (quarantine u ⟨pa, len, kind, false, false, []⟩)))
  ∧ (∀ u s, u.stop = true →
      let t := (List.range 65).foldl (fun st f => raiseMsi st f 2) s
      Happens (.ucieLinkDown u) s { t with dev := { t.dev with stopped := true } })
  ∧ (∀ u s, u.stop = false →
      Happens (.ucieLinkDown u) s (((u.dies.flatMap fun d => (List.range 13).map fun i => 16 * d + i).filter fun t =>
        t < 128 && ((s.tile t).svc.st = .enabled || (s.tile t).svc.st = .draining)).foldl hardFail s))
  ∧ (∀ p s, (s.port p).st = .up ∨ (s.port p).st = .degraded →
      Happens (.portRetrain p) s (s.setPort p { s.port p with st := .training }))
  ∧ (∀ p lanes peer tag s, (s.port p).st = .down → s.dev.devidSet = true →
      Happens (.portTraining p lanes peer tag) s (s.setPort p { s.port p with st := .training }))
  ∧ (∀ p lanes peer tag s, (s.port p).st = .training →
      let fits := s.dev.devidSet && tag = s.dev.dtag && peer != s.dev.devid && peer < 320
      Happens (.portTraining p lanes peer tag) s (s.setPort p
        (if fits && lanes = 8 then ⟨.up, 0, some peer⟩ else if fits && 4 ≤ lanes && lanes < 8 then ⟨.degraded, 0, some peer⟩
         else ⟨if 8 ≤ (s.port p).fails + 1 then .failed else .training, (s.port p).fails + 1, (s.port p).peer⟩)))
  ∧ (∀ b s, Happens (.timeSync b) s { s with dev := { s.dev with sync := b } })

/-- The scheduler acts: a launch leaves its queue, a ticket reserves its tiles, pre-emption is asked for its sake, a group whose
banks are free starts, a released bank becomes free, a finished launch writes its record, a node fires, a launch is cancelled,
an audit replays and compares (R360 to R366, R376, R382, R394 to R399, R469 to R471). Task domains act: a queued task that is
the next of its tile starts in a free context, the finished frontier task commits and the next becomes the frontier, an empty
domain completes with its record (R402, R404, R408, R409, R411, R414, R418, R427). -/
def Obligations.SchedulerAndTaskEventsHappen : Prop := SchedulerEventsHappen ∧ TaskEventsHappen ∧ LaunchesTakeEffect

/-- The tiles' supervision acts: replays are counted, a fifth one in a row is a hard failure, margins move up and down, drained
tiles are fenced, power states are entered and left, wear is added (R449, R450, R452 to R461, R466). Power and heat: measured power
lowers or lifts bins within the budget, boost leases end, budget messages and leases change the shares, the thermal limit and
its end (R462 to R465, R473). -/
def Obligations.TileServiceAndPowerEventsHappen : Prop := TileServiceEventsHappen ∧ PowerEventsHappen

/-- The register writes have their effect on a function that answers, an access of 4 or 8 bytes of BAR0 or BAR2 that of the
register at its offset on the bytes it names, each register taking the bits that may be written and everything else staying; a device
reset boots, a function-level reset ends what its function has (R8, R392, R437, R445, R455, R475, R476, R481, R483, R484). -/
def Obligations.RegisterWritesHappen : Prop := RegisterWritesAct ∧ RegisterWritesChange ∧ ResetsLeave

/-! ### What events change, and what they leave -/

/-- Operation `o` is the one on its way with number `n`; nothing of its context must come first, no registration waits anywhere, it goes
without an access of its bundle, its word is no remote one and, in memory, readable, without a shadow and under the key it was last written. -/
structure Sys2Proof.Claims.SoleSync (n : Nat) (s : State) (o : SOp) : Prop where
  found : s.sops.find? (fun x => x.id = n) = some o
  due : opWaits s o = false
  original : replayFor s o.cid = none
  plain : agentTask s o.cid = none
  alone : s.syncRegs = []
  bare : o.along = []
  near : ∀ t off, parseLoc (clearLow4 o.loc) ≠ .remote t off
  agent : o.cid < 2 ^ 64
  known : s.hasCtx o.cid = true
  aligned : o.word % 16 = 0
  memory : o.word < 2 ^ 60 → o.shadow = [] ∧ physPoison s o.word 16 = false ∧ rekeyed s o.word 16 (allOnes 16) o.key = []

/-- The word of `o` holds `v`; no other byte has changed, the operation is on its way no more, and no other answer has come. -/
structure Sys2Proof.Claims.WordIs (o : SOp) (s t : State) (v : Nat) : Prop where
  word : wordRead t o.word o.key = v
  mem : ∀ a, 2 ^ 60 ≤ o.word ∨ a < o.word ∨ o.word + 16 ≤ a → memByte t.mem a = memByte s.mem a
  spad : ∀ a, o.word < 2 ^ 60 ∨ 2 ^ 60 + a < o.word ∨ o.word + 16 ≤ 2 ^ 60 + a → memByte t.spad a = memByte s.spad a
  gone : t.sops = s.sops.filter fun x => x.id != o.id
  answers : ∀ a, a.id ≠ o.id → (a ∈ t.answers ↔ a ∈ s.answers)

/-- The operation is answered with `code`, its word holding `v`; no context has changed. -/
def Sys2Proof.Claims.AnsweredWith (n : Nat) (o : SOp) (s : State) (v code : Nat) : Prop :=
  ∃ t, exec (.syncOpAtHome n) s = .next t ∧ WordIs o s t v ∧ t.syncRegs = [] ∧ (∀ c, t.ctx c = s.ctx c)
    ∧ ∃ a ∈ t.answers, a.id = o.id ∧ a.cid = o.cid ∧ a.answer = code
/-- The operation is registered at its word, which holds what it held. -/
def Sys2Proof.Claims.RegisteredAt (n : Nat) (o : SOp) (s : State) : Prop :=
  ∃ t, exec (.syncOpAtHome n) s = .next t ∧ WordIs o s t (wordRead s o.word o.key) ∧ t.syncRegs = [o] ∧ (∀ c, t.ctx c = s.ctx c)
    ∧ t.answers.length = s.answers.length
/-- The word takes the value `v`; no context has changed and nothing is answered. -/
def Sys2Proof.Claims.PostedAs (n : Nat) (o : SOp) (s : State) (v : Nat) : Prop :=
  ∃ t, exec (.syncOpAtHome n) s = .next t ∧ WordIs o s t v ∧ t.syncRegs = [] ∧ (∀ c, t.ctx c = s.ctx c) ∧ t.answers.length = s.answers.length
/-- The operation finds no word of its kind: nothing changes but the count of misuses of its context (R293). -/
def Sys2Proof.Claims.Misused (n : Nat) (o : SOp) (s : State) : Prop :=
  ∃ t, exec (.syncOpAtHome n) s = .next t ∧ WordIs o s t (wordRead s o.word o.key) ∧ t.syncRegs = []
    ∧ t.ctx o.cid = bumpCount (s.ctx o.cid) 7 1 ∧ (∀ c, c ≠ o.cid → t.ctx c = s.ctx c) ∧ t.answers.length = s.answers.length

/-- What an operation on a sync word does at its home: the value the word takes by its kind, every other byte, context and answer as it
was; a TRY or TEST form is answered 1 or 0, a wait that cannot be served is registered, an operation that finds another kind of word
counts as misuse or is answered 2 (R287, R291 to R293, R297 to R299, R301 to R304, R321, R325). -/
def Obligations.SyncOperationsTakeEffect : Prop :=
  SyncEventsHappen
  ∧ (∀ n s o, SoleSync n s o → o.answered = false →
      let w := wordRead s o.word o.key
      (∀ g f, o.op = .semInit g f → PostedAs n o s (2 ^ 124 + o.n % 2 ^ 32))
      ∧ (∀ g f, o.op = .semPost g f →
          (∀ x, parseCount w = some x → PostedAs n o s (2 ^ 124 + b2n (x.ovf || decide (2 ^ 32 ≤ x.count + o.n)) * 2 ^ 96
            + (x.posts + 1) % 2 ^ 32 * 2 ^ 64 + min (x.count + o.n) (2 ^ 32 - 1)))
          ∧ (parseCount w = none → Misused n o s))
      ∧ (∀ g f, o.op = .barInit g f → PostedAs n o s (2 * 2 ^ 124 + o.n % 2 ^ 16 * 2 ^ 96 + o.n % 2 ^ 16 * 2 ^ 80
          + bitsOf 40 24 o.n * 2 ^ 56 + bitsOf 40 24 o.n * 2 ^ 28))
      ∧ (∀ g f, o.op = .barArrive g f →
          (∀ x, parseBar w = some x → PostedAs n o s (x.arrive o.n).word) ∧ (parseBar w = none → Misused n o s))
      ∧ (∀ g f, o.op = .barExpect g f →
          (∀ x, parseBar w = some x → PostedAs n o s (x.expect o.n).word) ∧ (parseBar w = none → Misused n o s))
      ∧ (∀ g f, o.op = .rel g f →
          (∀ x, parseRegion w = some x → PostedAs n o s (4 * 2 ^ 124 + (x + 1) % 2 ^ 32)) ∧ (parseRegion w = none → Misused n o s)))
  ∧ (∀ n s o, SoleSync n s o → o.answered = true →
      let w := wordRead s o.word o.key
      (∀ g f, o.op = .semTry g f →
          (∀ x, parseCount w = some x →
            (o.n ≤ x.count → AnsweredWith n o s { x with count := x.count - o.n }.word 1) ∧ (x.count < o.n → AnsweredWith n o s w 0))
          ∧ (parseCount w = none → AnsweredWith n o s w 2))
      ∧ (∀ g f, o.op = .semWait g f →
          (∀ x, parseCount w = some x →
            (o.n ≤ x.count → AnsweredWith n o s { x with count := x.count - o.n }.word 1) ∧ (x.count < o.n → RegisteredAt n o s))
          ∧ (parseCount w = none → AnsweredWith n o s w 2))
      ∧ (∀ g f, o.op = .barTest g f →
          (∀ x, parseBar w = some x → AnsweredWith n o s w (if x.phase = o.n % 16 then 0 else 1))
          ∧ (parseBar w = none → AnsweredWith n o s w 2))
      ∧ (∀ g f, o.op = .barWait g f →
          (∀ x, parseBar w = some x →
            (x.phase ≠ o.n % 16 → AnsweredWith n o s w 1) ∧ (x.phase = o.n % 16 → RegisteredAt n o s))
          ∧ (parseBar w = none → AnsweredWith n o s w 2))
      ∧ (∀ g f, o.op = .acq g f →
          (∀ x, parseRegion w = some x →
            ((x + 2 ^ 32 - o.n % 2 ^ 32) % 2 ^ 32 < 2 ^ 31 → AnsweredWith n o s w 1)
            ∧ (2 ^ 31 ≤ (x + 2 ^ 32 - o.n % 2 ^ 32) % 2 ^ 32 → RegisteredAt n o s))
          ∧ (parseRegion w = none → AnsweredWith n o s w 2)))

/-- Byte `o` of command `x` can be read now: where it comes from memory, it translates, no earlier store of the context is on its way
to it, and it is neither of another key nor poisoned nor beyond reach. -/
def Sys2Proof.Claims.CanRead (s : State) (c : Ctx) (x : CopyCmd) (o : Nat) : Prop :=
  match srcByte s c x 0 o with
  | .glob va => ∃ t, trCopy s c .r va = .ok t
      ∧ (∀ g ∈ s.gops, g.agent = c.cid → g.id < x.id → g.writes = true → ∀ p ∈ g.parts, p.touches t.pa 1 = false)
      ∧ otherKey s t.key t.pa = false ∧ physPoison s t.pa 1 = false ∧ cutOff s t.pa = false
  | .spad k => k / 2 ^ 23 = tileOf c.cid → releasedTo s c (k % 2 ^ 23 / 2 ^ 18) x.id = false
  | _ => True
/-- What stands there. -/
def Sys2Proof.Claims.sourceByte (s : State) (c : Ctx) (x : CopyCmd) (o : Nat) : Byte :=
  match srcByte s c x 0 o with
  | .imm b => b
  | .spad k => memByte s.spad k
  | .glob va => (match trCopy s c .r va with
    | .ok t => memByte s.mem t.pa
    | .error _ => 0)
  | .skip => 0

/-- A running command of context `c` that copies to one flat place, whose sector `j` has still to be performed whole and can be. -/
structure Sys2Proof.Claims.CopiesNow (c e j : Nat) (s : State) (x : CopyCmd) : Prop where
  entry : look e (s.ctx c).win.cmds = some x
  known : s.hasCtx c = true
  running : x.state = 2
  inside : j < x.total
  left : x.has j = false
  near : j < x.cursor + 256
  fresh : look j x.part = none
  here : (s.ctx c).away = false
  flat : x.isList = false ∧ x.isTenStore = false ∧ x.tagged = false
  noRed : ∀ g f, x.op ≠ .cpyRed g f
  original : replayFor s c = none
  berth : x.readsGlobal = true → (look c (s.tile (tileOf c)).berths).getD 0 ≠ 0
  source : ∀ i < 32, CanRead s (s.ctx c) x (32 * j + i)
  apart : ∀ i < 32, overlaps s (s.ctx c) x (dstByte s (s.ctx c) x 0 (32 * j + i)) = false
/-- After it: the sector counts as performed; no register of a context has changed. -/
structure Sys2Proof.Claims.SectorDone (c e j : Nat) (s t : State) (x : CopyCmd) : Prop where
  done : ∀ y, look e (t.ctx c).win.cmds = some y → y.id = x.id → y.has j = true
  regs : ∀ d, (t.ctx d).regs = (s.ctx d).regs
  pc : ∀ d, (t.ctx d).pc = (s.ctx d).pc

/-- What a sector of a copy does: its 32 bytes come to stand at its destination, in the allocation or in memory, as they stood at its
source; every other byte of the scratchpads and of memory stays (R233, R236 to R238, R240, R241, R243, R244, R248). -/
def Obligations.CopySectorsMoveTheirBytes : Prop :=
  (∀ c e j s x off, CopiesNow c e j s x → parseLoc x.dstWord = .here off →
      let k (i : Nat) := spadKey (tileOf c) ((s.ctx c).spadOff (off + (32 * j + i)))
      (s.ctx c).cid = c → (∀ i < 32, ∀ i' < 32, k i = k i' → i = i') → (∀ i < 32, spadReleased s (s.ctx c) (k i) = false) →
      ∃ t, exec (.copySector c e j 0) s = .next t ∧ SectorDone c e j s t x
        ∧ (∀ i < 32, memByte t.spad (k i) = sourceByte s (s.ctx c) x (32 * j + i))
        ∧ (∀ a, (∀ i < 32, a ≠ k i) → memByte t.spad a = memByte s.spad a) ∧ t.mem = s.mem)
  ∧ (∀ c e j s x va (w : Nat → Tr), CopiesNow c e j s x → parseLoc x.dstWord = .glob va →
      (∀ i < 32, trCopy s (s.ctx c) .w (va + (32 * j + i)) = .ok (w i) ∧ twMode (w i).tagw ≠ 2 ∧ cutOff s ((w i).pa - (w i).pa % 16) = false
        ∧ look ((w i).pa / 32) s.skey = (w i).key) →
      (s.ctx c).cid = c → (∀ i < 32, ∀ i' < 32, (w i).pa = (w i').pa → i = i') →
      ∃ t, exec (.copySector c e j 0) s = .next t ∧ SectorDone c e j s t x
        ∧ (∀ i < 32, memByte t.mem (w i).pa = sourceByte s (s.ctx c) x (32 * j + i))
        ∧ (∀ a, (∀ i < 32, a ≠ (w i).pa) → memByte t.mem a = memByte s.mem a) ∧ t.spad = s.spad)

/-- What a piece of a load does where memory gives it: the piece's bytes, as they stand, are read into the load's data or counts; with the
last piece the entry holds the value loaded; memory, the scratchpads and every register stay (R200, R207, R209, R211, R320). -/
def Sys2Proof.Claims.LoadPiecesReadMemory : Prop :=
  ∀ op i s g p, s.gops.find? (fun x => x.id = op) = some g → g.parts[i]? = some p → g.writes = false →
    replayFor s g.agent = none → blockedBy s.gops g p = false → syncBefore s g p = false → p.pa % 16 + p.len ≤ 16 →
    (∀ j < p.len, otherKey s p.key (p.pa + j) = false ∧ s.poison.contains ((p.pa + j) / 32) = false ∧ cutOff s (p.pa + j) = false) →
    readsPoison s g p = false →
    let b := memRead s.mem p.pa p.len
    let d := if p.sh then g.data else putBytes g.data p.off b
    let n := if p.sh then putBytes g.cnts p.off b else g.cnts
    ∃ t, exec (.globalAccessPerformed op i 0) s = .next t ∧ t.mem = s.mem ∧ t.spad = s.spad
      ∧ (∀ c, (t.ctx c).regs = (s.ctx c).regs ∧ (t.ctx c).pc = (s.ctx c).pc)
      ∧ (g.parts.eraseIdx i ≠ [] →
          t.gops = s.gops.map fun x => if x.id = g.id then { g with parts := g.parts.eraseIdx i, data := d, cnts := n } else x)
      ∧ (g.parts.eraseIdx i = [] → g.poison = false → g.overlay = [] → auditOf s g.agent = none →
          t.gops = s.gops.filter (fun x => x.id != g.id)
          ∧ (∀ e tag, g.kind = .loadRow e tag → (t.ctx g.agent).ldq = (s.ctx g.agent).ldq.map fun y =>
              if y.id = e then { y with val := some (.row (loadedRow tag d fun j => (n.getD j 0).toNat % 32)), poison := false } else y)
          ∧ (∀ e k sx, g.kind = .loadScalar e k sx → (t.ctx g.agent).ldq = (s.ctx g.agent).ldq.map fun y =>
              if y.id = e then { y with val := some (.scalar (loadedScalar k sx d ((n.getD 0 0).toNat % 32))), poison := false } else y))

/-- A store's piece is performed at its home: exactly the enabled bytes of the piece change, where its sectors were last written under the
same key. A load's piece is read there: the piece's bytes, as they stand, are read into the load's data or counts; with the last piece
the entry holds the value loaded; memory, the scratchpads and every register stay (R200, R207 to R209, R211, R214, R320). -/
def Obligations.AccessPiecesTakeEffect : Prop := StorePiecesWriteMemory ∧ LoadPiecesReadMemory

/-- What a save does: taken, it leaves the context's registers and memory as they are, in the state `saving`; completed, it has withdrawn
what the context had registered, written the area behind its header word and then the header word with VALID, and the context is saved;
where the area cannot be written, nothing of it is, and the context is ready again (R344 to R348, R363). -/
def Obligations.SavesTakeEffect : Prop :=
  (∀ c s, (s.ctx c).preempt = true → takeable s (s.ctx c) = true → (s.ctx c).status ≠ .saving → (s.ctx c).fl = [] →
      ∃ t, exec (.contextSave c) s = .next t ∧ (t.ctx c).status = .saving ∧ (t.ctx c).held = (s.ctx c).waitOn
        ∧ t.mem = s.mem ∧ t.spad = s.spad ∧ t.syncRegs = s.syncRegs ∧ t.sops = s.sops
        ∧ (∀ d, (t.ctx d).regs = (s.ctx d).regs ∧ (t.ctx d).pc = (s.ctx d).pc ∧ (t.ctx d).acc = (s.ctx d).acc))
  ∧ (∀ c s, (s.ctx c).status = .saving → saveDrained s (s.ctx c) = true →
      let u := flushCore (withdrawSaved s c) (hwOf c / 4)
      let x := u.ctx c
      let a := devAgent x.bind.vf
      let w := { warmW u a x.bind.vf x.crs.sabase.toNat (saveSize x) with fresh := u.fresh + 1 }
      (∀ l p q p' q', trRun w a x.bind.vf .w x.crs.sabase.toNat (saveSize x) = .ok l →
        devWrite w a x.bind.vf (x.crs.sabase.toNat + 8)
          (saveHead x (tileTime u (tileOf x.cid)) ++ saveLow x (Config.freeWord u.fresh) ++ frameNow w a x ++ saveHigh x) = .ok (p, q) →
        devWrite p a x.bind.vf x.crs.sabase.toNat (leBytes 8 (headerWord x true)) = .ok (p', q') →
        ∃ t, exec (.contextSave c) s = .next t ∧ t.mem = p'.mem ∧ t.spad = s.spad ∧ (∀ r ∈ t.syncRegs, r.cid ≠ c)
          ∧ (∀ r ∈ t.sops, r.cid = c → r.answered = false)
          ∧ (s.hasCtx c = true → (t.ctx c).status = (if x.preempt then .saved else .restoring) ∧ (t.ctx c).preempt = false)
          ∧ (∀ d, (t.ctx d).regs = (s.ctx d).regs ∧ (t.ctx d).pc = (s.ctx d).pc ∧ (t.ctx d).acc = (s.ctx d).acc))
      ∧ (writeArea u x = none → ∃ t, exec (.contextSave c) s = .next t ∧ t.mem = s.mem ∧ t.spad = s.spad
          ∧ (s.hasCtx c = true → (t.ctx c).status = .ready ∧ (t.ctx c).preempt = false)
          ∧ (∀ d, (t.ctx d).regs = (s.ctx d).regs ∧ (t.ctx d).pc = (s.ctx d).pc ∧ (t.ctx d).acc = (s.ctx d).acc)))

/-! ### The machine as a whole -/

/-- After reset: the registers have the reset values of the tables of chapters 9, 13 and 15 to 20 (R232, R333, R334, R382, R392, R431,
R433, R443, R445, R448, R451, R460, R465, R467, R476, R480, R484): launch queues off, no range entry, key slots empty and the PF's,
PWIN of the PF all of HBM, the host and peers and of every VF nothing, PART of the PF every enabled tile, LTOL 40, RBFLOOR and RBCAP
1,600, SUSPTH 4 and K 10; no bundle has been sealed or injected, every tile runs in bin 1 with its cycle counter at 0, and nothing
is under way. -/
def Obligations.ResetLeavesStatedValues : Prop :=
  let s := State.reset
  s.dev.qthresh = 16 ∧ s.dev.devid = 0 ∧ s.dev.dtag = 0 ∧ s.dev.devidSet = false
  ∧ s.dev.rlogBase = 0 ∧ s.dev.rlogCfg = 0 ∧ s.dev.rlogTail = 0 ∧ s.dev.rlogHead = 0
  ∧ s.dev.rbfloor = 1600 ∧ s.rbcap = 1600 ∧ s.dev.auditcfg = BitVec.ofNat 32 (4 * 2 ^ 16 + 10 * 2 ^ 8) ∧ s.dev.auditlog = 0
  ∧ (∀ f, let x := s.fn f
      x.ltol = 40 ∧ x.ranges = [] ∧ x.ptroot = 0 ∧ x.recfail = 0 ∧ (0 < f → x.part = 0 ∧ x.pwin = 0))
  ∧ (s.fn 0).pwin = BitVec.ofNat 64 (2 ^ 32 + 2 ^ 31 + 2 ^ 30 + 383 * 2 ^ 9)
  ∧ (∀ i < 128, (s.fn 0).part.getLsbD i = (s.dev.tdmap.toList.getD (i / 16) 0).getLsbD (i % 16))
  ∧ (∀ q, (s.lq q).base = 0 ∧ (s.lq q).cfg = 0 ∧ (s.lq q).tail = 0 ∧ (s.lq q).head = 0)
  ∧ (∀ k, (s.keySlot k).kst = 0 ∧ (s.keySlot k).own = 0)
  ∧ (∀ t, let v := (s.tile t).svc
      v.pst = .run ∧ v.bin = 1 ∧ v.trepl = 0 ∧ v.harderr = 0 ∧ v.inj = 0 ∧ v.holdab = 0 ∧ (s.tile t).cyc = 0
        ∧ v.injSeen = 0 ∧ v.up = ⟨0, 0⟩ ∧ v.down = ⟨0, 0⟩)
  ∧ (∀ n < 8, s.cur.crs.sticky.toList.getD n 1 = 0 ∧ s.cur.crs.sigrec.toList.getD n 1 = 0)
  ∧ s.cur.win.stalls = 0 ∧ s.cur.win.bmax = 16 ∧ s.cur.win.head = 0 ∧ s.cur.win.tail = 0 ∧ (∀ b ∈ s.cur.win.q.toList, b = QBind.none)
  ∧ s.gops = [] ∧ s.sops = [] ∧ s.launches = [] ∧ s.groups = []

/-- The canonical form of the memories holds after reset. -/
def Obligations.ResetMemoriesCanonical : Prop := State.reset.memOk = true

/-- Every step keeps the canonical form of both memories: cells strictly rising, none equal to what an unlisted address reads as. -/
def Obligations.MemoriesStayCanonical : Prop := ∀ s t, s.memOk = true → step s = .next t → t.memOk = true

/-- A step runs what the turn names. The core's chosen context, with nothing due, pending or withheld, fetches 64 bytes; where they
decode, every operation is well formed, and the step is the meaning of the one operation, of the empty bundle, or the bundle of
several issued together, under the bundle's control word. An event's turn is the event, on a device that has not stopped; a stopped
one runs its reset alone (R482). Behind the meaning a step adds one thing: where a registered operation has gone from a sync word,
the word's next one is examined (R299); where none has, the step is the meaning itself. -/
def Obligations.StepRunsTheDecodedBundle : Prop :=
  (∀ s k r cid l ctl ops rest,
      let s1 : State := { s with turns := r }
      let u := chooseCtx (tileHears s1 cid) k cid
      let v : State := { u with cur := bundleUp u.cur ctl }
      s.turns = .issue k :: r → coreLive s1 k = true → coreFirst s1 k = true → corePick s1 k = some cid → dueNow u u.cur = [] →
      u.cur.reinj = none → trapDue u u.cur = false → (u.cur.preempt && takeable u u.cur) = false → fetchBytes u = .bytes l → decode l = .ok ((ctl, ops), rest) →
      repDone v.cur = false →
      (∀ i ∈ ops, wfInstr i = true)
      ∧ (ops = [] → step s = withHomes s (exec (.nop ctl) v))
      ∧ (∀ i, ops = [i] → step s = withHomes s (exec i v))
      ∧ (∀ i t, ops = [i] → exec i v = .next t → (∀ x ∈ s.syncRegs, ∃ y ∈ t.syncRegs, y.id = x.id) → step s = .next t)
      ∧ (2 ≤ ops.length → step s = withHomes s (issue (ops.map fun i => ⟨i, slotRun i⟩) v)))
  ∧ (∀ s i r, s.turns = .event i :: r → isEvent i = true → (s.dev.stopped = false ∨ ∃ b, i = .deviceReset b) →
      step s = withHomes s (exec i { s with turns := r }))
  ∧ (∀ s x r, s.turns = x :: r → s.dev.stopped = true → (∀ b, x ≠ .event (.deviceReset b)) →
      step s = .next { s with turns := r }.tick)

/-- What an operation does in a bundle of several is what it does alone in its bundle. -/
def Obligations.OperationsMeanTheSameInEveryBundle : Prop :=
  ∀ i s, (slotOf i).isSome = true → exec i s = issueOne i (slotRun i) s

/-- Words written out from the formats of R32 to R34 and the opcode map decode to the instructions they stand for: one of each
slot, in its place in the bundle. -/
def Obligations.WordsDecodeAsTheFormatsSay : Prop :=
  decodeTableWord 512 (slotAt 0 0x01 1 (3 * 2 ^ 43 + 4 * 2 ^ 38 + 5 * 2 ^ 33)) = some (.add ⟨1, false⟩ ⟨3, 4, 5, 0, 0, 0, 0, 0⟩)
  ∧ decodeTableWord 512 (slotAt 0 0x24 0 (3 * 2 ^ 43 + (2 ^ 38 - 5))) = some (.movi ⟨0, false⟩ ⟨3, 0, BitVec.ofInt 38 (-5)⟩)
  ∧ decodeTableWord 512 (slotAt 0 0x60 0 2) = some (.br ⟨0, false⟩ ⟨0, 0, 0, 0, 2⟩)
  ∧ decodeTableWord 512 (slotAt 1 0x01 0 (3 * 2 ^ 38 + 4 * 2 ^ 27 + 5 * 2 ^ 17)) =
      some (.vadd ⟨0, false⟩ false ⟨3, false, 4, 5, 0, 0, 0⟩)
  ∧ decodeTableWord 512 (slotAt 2 0x48 0 (3 * 2 ^ 38 + 4 * 2 ^ 27 + 5 * 2 ^ 17 + 2 * 2 ^ 4)) =
      some (.vfadd ⟨0, false⟩ true ⟨3, false, 4, 5, 0, 2, 0⟩)
  ∧ decodeTableWord 512 (slotAt 3 0x20 0 (7 * 2 ^ 42 + 2 ^ 6)) = some (.accZero ⟨0, false⟩ ⟨7, 0, 0, 0, 0, 64⟩)
  ∧ decodeTableWord 512 (slotAt 4 0x09 0 (3 * 2 ^ 33 + 4 * 2 ^ 28 + (2 ^ 24 - 4) * 2 ^ 4)) =
      some (.ldgW32 ⟨0, false⟩ ⟨0, 3, 4, BitVec.ofInt 24 (-4), 0⟩)
  ∧ decodeTableWord 512 (slotAt 5 0x03 0 (358 * 2 ^ 38 + 7 * 2 ^ 33 + 8 * 2 ^ 4)) = some (.stsW64 ⟨0, false⟩ ⟨358, 7, 0, 8, 0⟩)
  ∧ decodeTableWord 512 (slotAt 6 0x10 0 (2 * 2 ^ 45 + 5 * 2 ^ 39)) = some (.cpyPoll ⟨0, false⟩ ⟨2 * 2 ^ 45 + 5 * 2 ^ 39⟩)
  ∧ decodeTableWord 512 (slotAt 7 0x02 0 (3 * 2 ^ 43 + 1)) = some (.semPost ⟨0, false⟩ ⟨3, 0, 0, 1⟩)
  ∧ decodeTableWord 512 (slotAt 0 0x1C 0 0) = none
  ∧ decodeTableWord 512 0 = some (.nop 0)

/-- DECODE AND ENCODE AGREE: every well-formed operation of a bundle, encoded alone in its slot, decodes to itself, with every
operand at every value its format admits; and so does the empty bundle under every legal control word. -/
def Obligations.DecodeEncodeAgree : Prop :=
  (∀ i, (slotOf i).isSome = true → wfInstr i = true →
      decodeBundle (encodeBundle (aloneCtl i) [i]) = .ok (aloneCtl i, [i]))
  ∧ (∀ ctl, legCtl ctl = true → decodeBundle (ctl.setWidth 512) = .ok (ctl, []))

/-- Taking a trap with TVEC set, outside a handler and a speculative task, and with its frame written: the handler's address, the
four trap registers, INTRAP, REPI 0, every latch invalid, nothing in flight; the frame's bytes are written and no scratchpad
changes (R335, R337, R338). -/
def Obligations.TrapEntersTheHandler : Prop :=
  ∀ s k entries r repi s1,
    let u := leaveBarrier (withdraw s s.cur.cid) s.cur.cid
    let base := (tfBase s.cur).toNat
    let frame := frameBytes ⟨repi, r.nexti, r.ncnt, r.tfpc, s.cur.regs.lat.toList, entries⟩
    speculative s.cur = false → s.cur.crs.tvec ≠ 0 → s.cur.crs.intrap = false →
    ctxWrite (warmW u s.cur.cid s.cur.bind.vf base frame.length) s.cur.cid s.cur.bind.vf base frame = .ok s1 →
    let t := takeTrapIn s k entries r repi
    t.cur.pc = s.cur.crs.tvec ∧ t.cur.status = .running ∧ t.cur.fl = [] ∧ t.cur.regs = s.cur.regs.clearLatches
    ∧ t.cur.crs = { s.cur.crs with
        tfcause := causeWord k repi, tfpc := r.tfpc, tfaddr := BitVec.ofNat 64 k.addr
        tfinfo := BitVec.ofNat 64 (entries.length % 32 + k.info), repi := 0, intrap := true }
    ∧ t.mem = s1.mem ∧ t.spad = s.spad

/-- A bundle that issues nothing changes nothing: an operation whose predicate does not let it execute raises no fault, pops
nothing, leaves its latch and sends no command, and its produced token is complete (R39); so does the empty bundle, which under
SWP makes every latch invalid (R29, R45). -/
def Obligations.SkippedAndEmptyBundlesDoNothing : Prop :=
  (∀ i s, (slotOf i).isSome = true → declared s i = true → executes s.cur i = false → ctlRep s.cur.ctl = false →
      ctlSwp s.cur.ctl = false → s.cur.crs.repi = 0 → s.cur.fl.length ≤ 16 → (∀ e ∈ s.cur.fl, e.overdue s.cur = false) →
      asleep s = false →
      ∃ t, exec i s = .next t ∧ t.cur.fl = (s.cur.advance 1).fl ∧ t.cur.pc = s.cur.pc + 64 ∧ t.cur.pt = s.cur.pt + 1
        ∧ CtxKept { s with cur := match tokenOf i with
            | some n => completeToken s.cur n.toNat
            | none => s.cur } t
        ∧ t.cur.ldq = s.cur.ldq ∧ t.cur.win = s.cur.win ∧ t.cur.crs = s.cur.crs ∧ OutsideKept s t)
  ∧ (∀ ctl s, ctlRep ctl = false → s.cur.crs.repi = 0 → s.cur.fl.length ≤ 16 →
      (∀ e ∈ s.cur.fl, e.overdue s.cur = false) → asleep s = false →
      ∃ t, exec (.nop ctl) s = .next t ∧ t.cur.pc = s.cur.pc + 64 ∧ t.cur.pt = s.cur.pt + 1
        ∧ CtxKept { s with cur := { s.cur with regs := if ctlSwp ctl then s.cur.regs.clearLatches else s.cur.regs } } t
        ∧ t.cur.ldq = s.cur.ldq ∧ t.cur.win = s.cur.win ∧ t.cur.crs = s.cur.crs ∧ OutsideKept s t)

/-- P0 reads as true and K0 as all lanes, and a result that names either leaves the register files as they were (R34). -/
def Obligations.HardwiredRegistersKeepTheirValues : Prop :=
  ∀ (r : Regs) b m, r.pred 0 = true ∧ r.mask 0 = BitVec.allOnes 128 ∧ r.apply (.pred 0 b) = r ∧ r.apply (.mask 0 m) = r

/-- Precise traps of a bundle of one operation: an address beyond 2^56 is a translation fault, a misaligned one an alignment fault,
for every global load and store (R195, R206); a misaligned target of BRI or RET an alignment fault at the transferring bundle
(R28); an undeclared or, in a task, a blocking instruction is turned away (R415, R515). Each gives the trap of its class with its
address, the bundle's operation in the replay queue, and nothing of its effect. -/
def Obligations.PreciseTraps : Prop :=
  (∀ mk align, (mk, align) ∈ [(Instr.ldgRow, 16), (Instr.ldgW32, 4), (Instr.ldgW64, 8)] → ∀ g f s, Ready (mk g f) s →
      s.cur.ldq.length < 32 → AddressTraps (mk g f) s (address s f true) align)
  ∧ (∀ g f s, Ready (.ldgTag g f) s → s.cur.ldq.length < 32 →
      AddressTraps (.ldgTag g f) s (address s f true) (if f.mod = 0 then 4 else 16))
  ∧ (∀ g f s r, Ready (.stgRow g f) s → rdRowSrc (staged (.stgRow g f) s) 27 0 f.data = .ok r →
      (tagFmt r.tag = 8 → f.mod.toNat % 8 = 0) → AddressTraps (.stgRow g f) s (address s f true) 16)
  ∧ (∀ mk align, (mk, align) ∈ [(Instr.stgW32, 4), (Instr.stgW64, 8)] → ∀ g f s x, Ready (mk g f) s →
      rdScalarSrc (staged (mk g f) s) 0 f.data = .ok x → AddressTraps (mk g f) s (address s f true) align)
  ∧ (∀ g f s a b, Ready (.bri g f) s → Src (.bri g f) s f 1 a → Src (.bri g f) s f 2 b → (a.val + (b.val <<< 6)).toNat % 64 ≠ 0 →
      TrapsAt (.bri g f) s 0x04 0 (a.val + (b.val <<< 6)).toNat)
  ∧ (∀ g f s a, Ready (.ret g f) s → Src (.ret g f) s f 1 a → a.val.toNat % 64 ≠ 0 → TrapsAt (.ret g f) s 0x04 0 a.val.toNat)
  ∧ (∀ i s, (slotOf i).isSome = true → declared s i = false → asleep s = false →
      exec i s = .next (takeTrap s { cls := 0x01 } (flightEntries s.cur s.cur.resume) ⟨s.cur.pc, 0, 0⟩).tick)
  ∧ (∀ mk ∈ [Instr.semInit, .semPost, .semWait, .barInit, .barArrive, .barExpect, .barWait, .moor, .unmoor, .acq, .rel, .pipePush,
        .pipePop, .pipePopTry, .qPush, .qPop, .complete], ∀ g f s, Ready (mk g f) s → s.cur.task.isSome = true →
      TrapsAt (mk g f) s 0x0C 2 0)
  ∧ (∀ mk ∈ [Instr.mmaBf16, .mmaCb4, .mmaPlane, .mgath, .mldb, .cbload, .accZero, .accRd, .accWr, .cpyTen, .cpyRow, .cpyGath, .cpyScat,
        .cpySpad, .cpyRed, .cpyFill, .cpyBind, .cpyBindOff], ∀ g f s, Ready (mk g f) s → s.cur.task.isSome = true →
      TrapsAt (mk g f) s 0x0C 2 0)
  ∧ (∀ mk ∈ [Instr.lease, .leaseTry, .unlease, .chainBegin, .chainEnd, .cpyCancel, .cpyCancelAll, .tmap, .berthSet, .gbar, .fence,
        .tkwait, .tkclr, .bankRel, .hintSucc, .waitvis, .sleep, .endCtx], ∀ g f s, Ready (mk g f) s → s.cur.task.isSome = true →
      TrapsAt (mk g f) s 0x0C 2 0)
  ∧ (∀ g f s, Opens (.yield g f) s → ctlRep s.cur.ctl = false → s.cur.crs.repi = 0 → s.cur.task.isSome = true →
      TrapsAt (.yield g f) s 0x0C 2 0)

/-! ### Operands, visibility, and bundles that repeat, switch or hold several operations -/

/-- What each source selector supplies to operation `i` (R35, R37, R44, R45): a row, the popped row of a stream register, the popped
entry of the LDQ, a latch, a scalar; a reserved value is illegal. An unbound stream register, an empty LDQ and an invalid latch
are illegal operands with SUB 7, 3 and 1; a row or entry that has not come holds the bundle. -/
def Sys2Proof.Claims.SelectorsSupply : Prop :=
  ∀ i s bit pos (sel : BitVec 10), Ready i s →
    let v := staged i s
    let n := sel.toNat
    (n < 320 → rdSel v bit pos sel = .ok (.row (s.cur.regs.row n)))
    ∧ (∀ q b, n = 320 + q → q < 8 → s.cur.win.q.toList[q]? = some b →
        (b.valid = false → rdSel v bit pos sel = trapOp 0x02 7)
        ∧ (b.valid = true → b.arr.getLsbD (b.rd % 8) = false → rdSel v bit pos sel = holdOp v (.wait (.stream q)))
        ∧ (∀ r, b.valid = true → b.arr.getLsbD (b.rd % 8) = true → look (b.rd % 8) b.rowsIn = some r → r.poison = false →
            rdSel v bit pos sel = .ok (.row (ringRow r.tag
              ((List.range 256).map fun j => localByte s s.cur (b.ring * 256 + 256 * (b.rd % 8) + j)) r.plane))))
    ∧ (n = 328 → (s.cur.ldq = [] → rdSel v bit pos sel = trapOp 0x02 3)
        ∧ (∀ e l, s.cur.ldq = e :: l →
            (e.returned = false ∨ e.val = none → rdSel v bit pos sel = holdOp v (.wait .ldq))
            ∧ (∀ r, e.returned = true → e.val = some (.row r) → rdSel v bit pos sel = .ok (.row r))
            ∧ (∀ x, e.returned = true → e.val = some (.scalar x) → rdSel v bit pos sel = .ok (.scalar x))))
    ∧ (329 ≤ n → n ≤ 340 →
        (s.cur.regs.latch (n - 329) = .invalid → rdSel v bit pos sel = trapOp 0x02 1)
        ∧ (∀ r, s.cur.regs.latch (n - 329) = .row r → rdSel v bit pos sel = .ok (.row r))
        ∧ (∀ x, s.cur.regs.latch (n - 329) = .scalar x → rdSel v bit pos sel = .ok (.scalar x))
        ∧ (∀ m, s.cur.regs.latch (n - 329) = .mask m → rdSel v bit pos sel = .ok (.mask m)))
    ∧ (∀ r : BitVec 5, n = 352 + r.toNat → rdSel v bit pos sel = .ok (.scalar (s.cur.regs.scalar r)))
    ∧ ((341 ≤ n ∧ n ≤ 351) ∨ 384 ≤ n → rdSel v bit pos sel = trapOp 0x01 0)

/-- What the positions of the formats make of a selector's operand: a V source takes a row or a scalar, but of the LDQ a row; one
that takes only a row or only a scalar, and the sources of slots W and Y, turn the other kind away; a mask is none (R37, R168,
R191, R212, R516). A slot S source reads the scalar it names, or with QSEL the popped entry, which must be a scalar (R139, R140). -/
def Sys2Proof.Claims.PositionsTake : Prop :=
  (∀ i s inB pos sel r, Ready i s → rdSel (staged i s) (inBit inB) pos sel = .ok (.row r) →
      rdV (staged i s) inB pos sel = .ok (.row r) ∧ rdVRow (staged i s) inB pos sel = .ok r
        ∧ rdVScalar (staged i s) inB pos sel = trapOp 0x02 1)
  ∧ (∀ i s inB pos sel x, Ready i s → rdSel (staged i s) (inBit inB) pos sel = .ok (.scalar x) →
      (sel.toNat = 328 → rdV (staged i s) inB pos sel = trapOp 0x02 2)
      ∧ (sel.toNat ≠ 328 → rdV (staged i s) inB pos sel = .ok (.scalar x) ∧ rdVScalar (staged i s) inB pos sel = .ok x
          ∧ rdVRow (staged i s) inB pos sel = trapOp 0x02 1))
  ∧ (∀ i s inB pos sel m, Ready i s → rdSel (staged i s) (inBit inB) pos sel = .ok (.mask m) →
      rdV (staged i s) inB pos sel = trapOp 0x02 1)
  ∧ (∀ i s bit pos sel r, Ready i s → rdSel (staged i s) bit pos sel = .ok (.row r) → rdRowSrc (staged i s) bit pos sel = .ok r)
  ∧ (∀ i s bit pos sel x, Ready i s → rdSel (staged i s) bit pos sel = .ok (.scalar x) →
      rdRowSrc (staged i s) bit pos sel = trapOp 0x02 (if sel.toNat = 328 then 2 else 1))
  ∧ (∀ i s pos sel x, Ready i s → rdSel (staged i s) 99 pos sel = .ok (.scalar x) → rdScalarSrc (staged i s) pos sel = .ok x)
  ∧ (∀ i s pos sel r, Ready i s → rdSel (staged i s) 99 pos sel = .ok (.row r) →
      rdScalarSrc (staged i s) pos sel = trapOp 0x02 (if sel.toNat = 328 then 2 else 1))
  ∧ (∀ i s (f : SRF) n, Ready i s → 1 ≤ n → n ≤ 3 → qselOf f ≠ n →
      srcS (staged i s) f n = .ok (s.cur.regs.scalar (if n = 1 then f.sa else if n = 2 then f.sb else f.sc)))
  ∧ (∀ i s (f : SRF) n, Ready i s → 1 ≤ n → qselOf f = n → s.cur.ldq = [] → srcS (staged i s) f n = trapOp 0x02 3)
  ∧ (∀ i s (f : SRF) n e l, Ready i s → 1 ≤ n → qselOf f = n → s.cur.ldq = e :: l → e.returned = true →
      (∀ x, e.val = some (.scalar x) → srcS (staged i s) f n = .ok x)
      ∧ (∀ r, e.val = some (.row r) → srcS (staged i s) f n = trapOp 0x02 2))

/-- What a bundle's operands pop: one entry of the LDQ, however many name it, and of each stream register named one row, whose ring
slot no longer counts as arrived (R37, R251). -/
def Sys2Proof.Claims.PopsTakeOne : Prop :=
  (∀ i c, (popped i c).ldq = if popsLdq i then c.ldq.tail else c.ldq)
  ∧ (∀ i c q b, c.win.q.toList[q]? = some b → q ∈ popsStream i →
      ∃ b', (popped i c).win.q.toList[q]? = some b' ∧ b'.rd = (b.rd + 1) % 16 ∧ b'.arr.getLsbD (b.rd % 8) = false
        ∧ (∀ k < 8, k ≠ b.rd % 8 → b'.arr.getLsbD k = b.arr.getLsbD k) ∧ b'.valid = b.valid ∧ b'.ring = b.ring ∧ b'.wr = b.wr)
  ∧ (∀ i c q b, c.win.q.toList[q]? = some b → q ∉ popsStream i → (popped i c).win.q.toList[q]? = some b)
  ∧ (∀ i, popsLdq i = true ↔ (∃ p, qselPop i = some p) ∨ ∃ x ∈ selSrcs i, x.2.toNat = 328)
  ∧ (∀ i q, q ∈ popsStream i ↔ ∃ x ∈ selSrcs i, x.2.toNat = 320 + q ∧ q < 8)

/-- Every source of a bundle supplies what its selector names, before the bundle, in the kind its position takes; queues are popped
once (R35, R37, R44, R45, R139, R140, R168, R191, R212, R516). -/
def Obligations.OperandsComeFromTheirSelectors : Prop :=
  Sys2Proof.Claims.SelectorsSupply ∧ Sys2Proof.Claims.PositionsTake ∧ Sys2Proof.Claims.PopsTakeOne

/-- The results that become visible are those whose time has come and that are ready, taken by due time, then by issue, then by slot
(R40, R52). Where none is withheld: of the writes to one register the last remains, a register none names keeps its value, a result
enters the top of its slot's latches, and its flags and a lane below the floor are recorded (R43, R52, R135, R333, R334). -/
def Sys2Proof.Claims.VisibleInOrder : Prop :=
  (∀ (c : Ctx), (∀ e, e ∈ dueFlights c ↔ e ∈ c.fl ∧ e.due ≤ c.pt ∧ e.ready ≤ c.pt)
      ∧ (dueFlights c).Pairwise fun a b =>
          a.due < b.due ∨ (a.due = b.due ∧ (a.seq < b.seq ∨ (a.seq = b.seq ∧ a.slot ≤ b.slot))))
  ∧ (∀ s l1 e l2, dueNow s s.cur = l1 ++ e :: l2 → (∀ x ∈ l1 ++ e :: l2, x.isBelow = false) →
      (∀ n x, e.res = [.row n x] → (∀ y ∈ l2, ∀ z, Write.row n z ∉ y.res) → (showDue s).cur.regs.row n = x)
      ∧ (∀ n x, e.res = [.scalar n x] → (∀ y ∈ l2, ∀ z, Write.scalar n z ∉ y.res) → (showDue s).cur.regs.scalar n = x)
      ∧ (∀ n x, e.res = [.pred n x] → n ≠ 0 → (∀ y ∈ l2, ∀ z, Write.pred n z ∉ y.res) → (showDue s).cur.regs.pred n = x)
      ∧ (∀ n x, e.res = [.mask n x] → n ≠ 0 → (∀ y ∈ l2, ∀ z, Write.mask n z ∉ y.res) → (showDue s).cur.regs.mask n = x))
  ∧ (∀ s, (∀ x ∈ dueNow s s.cur, x.isBelow = false) →
      (∀ n, (∀ y ∈ dueNow s s.cur, ∀ z, Write.row n z ∉ y.res) → (showDue s).cur.regs.row n = s.cur.regs.row n)
      ∧ (∀ n, (∀ y ∈ dueNow s s.cur, ∀ z, Write.scalar n z ∉ y.res) → (showDue s).cur.regs.scalar n = s.cur.regs.scalar n)
      ∧ (∀ e ∈ dueNow s s.cur, ∀ y ∈ (showDue s).cur.fl, ¬(y.seq = e.seq ∧ y.slot = e.slot))
      ∧ (showDue s).mem = s.mem ∧ (showDue s).cur.pc = s.cur.pc ∧ (showDue s).cur.acc = s.cur.acc ∧ (showDue s).cur.ldq = s.cur.ldq)
  ∧ (∀ s e, dueNow s s.cur = [e] → e.isBelow = false →
      (e.latch = .invalid → (showDue s).cur.regs.lat = s.cur.regs.lat)
      ∧ (∀ b, latchBase e.slot = some b → e.passed = 0 → e.latch ≠ .invalid →
          (showDue s).cur.regs.latch b = e.latch ∧ (showDue s).cur.regs.latch (b + 1) = s.cur.regs.latch b
            ∧ (showDue s).cur.regs.latch (b + 2) = s.cur.regs.latch (b + 1)
            ∧ ∀ j, j < b ∨ b + 3 ≤ j → (showDue s).cur.regs.latch j = s.cur.regs.latch j)
      ∧ (e.flags = 0 → (showDue s).cur.crs.sticky = s.cur.crs.sticky)
      ∧ (∀ st, s.cur.crs.sticky.toList[e.slot]? = some st → ∃ st', (showDue s).cur.crs.sticky.toList[e.slot]? = some st'
          ∧ (∀ k < 5, st'.getLsbD k = (st.getLsbD k || e.flags.getLsbD k))
          ∧ (e.flags ≠ 0 → st.toNat / 2 ^ 39 = 0 → st'.toNat / 2 ^ 39 = 1 + 2 * bundleOff s.cur e.pc)
          ∧ (st.getLsbD 39 = true → st'.toNat / 2 ^ 5 = st.toNat / 2 ^ 5))
      ∧ (∀ n, n ≠ e.slot → (showDue s).cur.crs.sticky.toList[n]? = s.cur.crs.sticky.toList[n]?)
      ∧ (e.below = none ∨ e.mode = 0 → (showDue s).cur.crs.sigrec = s.cur.crs.sigrec)
      ∧ (∀ lane r, e.below = some lane → lane < 128 → e.mode ≠ 0 → s.cur.crs.sigrec.toList[e.slot]? = some r →
          (showDue s).cur.crs.sigrec.toList[e.slot]? = some (if r.getLsbD 63 then r
            else BitVec.ofNat 64 (2 ^ 63 + lane * 2 ^ 56 + e.repi.toNat * 2 ^ 40 + bundleOff s.cur e.pc * 2 ^ 16))))

/-- The floor check (R134, R335): off with MODE 0 and inside a handler, and of integers; an FP32 lane is below FLOOR, a BF16 lane below
BFLOOR, and the first lane below is the one named. -/
def Sys2Proof.Claims.FloorChecks : Prop :=
  (∀ (c : Ctx) (p : Nat) l, c.crs.intrap = true ∨ bitsOf 16 2 c.crs.sigfloor.toNat = 0 ∨ p = 0 → belowFloor c p l = none)
  ∧ (∀ (c : Ctx) l, c.crs.intrap = false → bitsOf 16 2 c.crs.sigfloor.toNat ≠ 0 → ∀ p floor,
      (p, floor) ∈ [(24, bitsOf 0 5 c.crs.sigfloor.toNat), (8, bitsOf 8 4 c.crs.sigfloor.toNat)] →
      (belowFloor c p l = none ↔ ∀ x ∈ l, floor ≤ x.2)
      ∧ (∀ l1 x l2, l = l1 ++ x :: l2 → x.2 < floor → (∀ y ∈ l1, floor ≤ y.2) → belowFloor c p l = some x.1))

/-- In trap mode, the first result below the floor among those of the earliest cycle is withheld: the results of earlier cycles stand,
the trust-floor trap names its slot, lane, bundle and iteration, and it is the first entry of the queue, with HASRES and the result
it computed, the others that are not visible behind it (R136). -/
def Sys2Proof.Claims.ResultsAreWithheld : Prop :=
  ∀ s l1 e l2 lane, dueNow s s.cur = l1 ++ e :: l2 → e.mode = 2 → e.below = some lane →
    (∀ x ∈ l1, x.isBelow = true → e.seen < x.seen) → (∀ x ∈ l2, x.isBelow = true → e.seen ≤ x.seen) →
    ∃ c first others,
      showDue s = takeTrapIn { s with cur := c } { cls := 0x22, slot := e.slot, lane := some lane, addr := e.pc.toNat }
        (first :: others) (resumeHere c) e.repi
      ∧ first.hasRes = true ∧ (∀ n x, e.res = [.row n x] → first.b3 = x) ∧ (∀ n x, e.res = [.scalar n x] → first.b3 = blockOfScalar x)
      ∧ (∀ x, e.res = [] → e.latch = .row x → first.b3 = x)
      ∧ others = (c.fl.filter fun x => !(x.seq = e.seq && x.slot = e.slot)).map (flightEntry c.resume)
      ∧ (∀ x ∈ s.cur.fl, (∀ y ∈ dueNow s s.cur, y.seen < e.seen → ¬(y.seq = x.seq ∧ y.slot = x.slot)) →
          ∃ y ∈ c.fl, y.seq = x.seq ∧ y.slot = x.slot ∧ y.res = x.res)
      ∧ (∀ n, (∀ y ∈ dueNow s s.cur, y.seen < e.seen → ∀ z, Write.row n z ∉ y.res) → c.regs.row n = s.cur.regs.row n)
      ∧ c.pc = s.cur.pc ∧ c.ldq = s.cur.ldq ∧ c.acc = s.cur.acc

/-- Results become visible in the order of R52 and are recorded as R333 to R335 say, or are withheld by the trust floor (R40, R43, R52,
R134 to R136). -/
def Obligations.ResultsBecomeVisibleInOrder : Prop :=
  Sys2Proof.Claims.VisibleInOrder ∧ Sys2Proof.Claims.FloorChecks ∧ Sys2Proof.Claims.ResultsAreWithheld

/-- A bundle comes up that nothing holds: its kernel declares all it names, nothing is overdue, no more than 16 results are in
flight, and no SLEEP's deadline has still to come (R42, R59, R343, R515). -/
def Sys2Proof.Claims.ComesUp (ops : List Instr) (s : State) : Prop :=
  asleep s = false ∧ (∀ i ∈ ops, declared s i = true) ∧ s.cur.fl.length ≤ 16 ∧ ∀ e ∈ s.cur.fl, e.overdue s.cur = false

/-- The operations of a bundle with their meanings. -/
def Sys2Proof.Claims.bundleOf (ops : List Instr) : List OpIn := ops.map fun i => ⟨i, slotRun i⟩

/-- Repeated bundles: a scalar count above 65,535 is a fault before iteration 0, without an entry for the bundle; a count of zero
retires it as an empty one, its tokens complete, SWP acting; a row field in SMASK names its row plus the iteration times STRIDE, and
outside the allotment faults (R45, R47 to R49). An iteration of VMOV moves that row to that row, names its iteration, and goes on
with the next one or behind the bundle; a strided destination outside the allotment traps with that iteration in the queue and
NEXTI behind it (R49, R50, R53). -/
def Sys2Proof.Claims.BundlesRepeat : Prop :=
  (∀ ops s, Sys2Proof.Claims.ComesUp ops s → ctlRep s.cur.ctl = true → s.cur.iss.count = 0 → ctlCsrc s.cur.ctl = true →
      65535 < (s.cur.regs.scalar ((ctlCnt s.cur.ctl).setWidth 5)).val.toNat →
      issue (Sys2Proof.Claims.bundleOf ops) s =
        .next (takeTrap s { cls := 0x06 } (flightEntries s.cur s.cur.resume) ⟨s.cur.pc, 0, 0⟩).tick)
  ∧ (∀ ops s, Sys2Proof.Claims.ComesUp ops s → ctlRep s.cur.ctl = true → s.cur.iss.count = 0 → s.cur.crs.repi = 0 →
      (if ctlCsrc s.cur.ctl then (s.cur.regs.scalar ((ctlCnt s.cur.ctl).setWidth 5)).val.toNat else (ctlCnt s.cur.ctl).toNat) = 0 →
      ∃ t, issue (Sys2Proof.Claims.bundleOf ops) s = .next t ∧ t.cur.pc = s.cur.pc + 64 ∧ t.cur.pt = s.cur.pt + 1
        ∧ CtxKept { s with cur := { skipTokens ops s.cur with
            regs := if ctlSwp s.cur.ctl then s.cur.regs.clearLatches else s.cur.regs } } t
        ∧ t.cur.fl.map Flight.res = s.cur.fl.map Flight.res ∧ (ctlSwp s.cur.ctl = true → ∀ e ∈ t.cur.fl, e.latch = .invalid)
        ∧ t.cur.ldq = s.cur.ldq ∧ t.cur.win = s.cur.win ∧ t.cur.crs = s.cur.crs ∧ OutsideKept s t)
  ∧ (∀ s bit n, (ctlRep s.cur.ctl = false ∨ ctlMask s.cur.ctl bit = false) → effRow s bit n = .ok n)
  ∧ (∀ s bit (n : Nat), ctlRep s.cur.ctl = true → bit < 32 → ctlMask s.cur.ctl bit = true →
      let k : Int := (n : Int) + s.cur.crs.repi.toNat * ctlStride s.cur.ctl
      (k < 0 ∨ (s.cur.bind.rows : Int) ≤ k → effRow s bit n = trapOp 0x05 0)
      ∧ (∀ m : Nat, k = m → m < s.cur.bind.rows → effRow s bit n = .ok m))
  ∧ (∀ g inB f s n da ra, Opens (.vmov g inB f) s → ctlRep s.cur.ctl = true → ctlSwp s.cur.ctl = false → repCount s.cur = some n →
      s.cur.crs.repi.toNat < n → f.t = false → f.k = 0 → f.a.toNat < 320 →
      effRow s (dstBit inB) f.dst.toNat = .ok da → effRow s (inBit inB) f.a.toNat = .ok ra →
      ∃ t e, exec (.vmov g inB f) s = .next t ∧ t.cur.fl = ({ s.cur with fl := s.cur.fl ++ [e] }.advance 1).fl
        ∧ e.res = [.row da (s.cur.regs.row ra)] ∧ e.latch = .row (s.cur.regs.row ra) ∧ e.repi = s.cur.crs.repi
        ∧ t.cur.pt = s.cur.pt + 1 ∧ CtxKept s t ∧ t.cur.ldq = s.cur.ldq ∧ t.cur.win = s.cur.win ∧ OutsideKept s t
        ∧ (s.cur.crs.repi.toNat + 1 < n → t.cur.pc = s.cur.pc ∧ t.cur.iss.count = n
            ∧ t.cur.crs = { s.cur.crs with repi := BitVec.ofNat 16 (s.cur.crs.repi.toNat + 1) })
        ∧ (n ≤ s.cur.crs.repi.toNat + 1 → t.cur.pc = s.cur.pc + 64 ∧ t.cur.crs = { s.cur.crs with repi := 0 }))
  ∧ (∀ g inB f s n, Opens (.vmov g inB f) s → ctlRep s.cur.ctl = true → repCount s.cur = some n → n ≠ 0 → f.t = false → f.k = 0 →
      f.a.toNat < 320 → effRow s (dstBit inB) f.dst.toNat = trapOp 0x05 0 →
      let o : State := { s with cur := openCtx s.cur n }
      exec (.vmov g inB f) s = .next (takeTrap o { cls := 0x05, slot := if inB then 2 else 1 }
        (flightEntries s.cur (s.cur.pt + 1) ++
          [({ captureOp o (.vmov g inB f) false with due := bundleDue s.cur (.vmov g inB f) } : Replay).withAns (keptAnswer s.cur)])
        ⟨s.cur.pc, s.cur.crs.repi.toNat + 1, n⟩).tick)

/-- A switch-point bundle with an operation leaves every latch invalid and lets no result issued up to it enter one; the registers and
what the results write are as without it (R45). -/
def Sys2Proof.Claims.SwitchPointsClearLatches : Prop :=
  ∀ i s u, Opens i s → ctlRep s.cur.ctl = false → ctlSwp s.cur.ctl = true → s.cur.crs.repi = 0 → (slotOf i).isSome = true →
    slotRun i (staged i s) = .ok u → u.cur.iss.after = .none → u.cur.ctl = s.cur.ctl →
    ∃ t, exec i s = .next t ∧ (∀ k, t.cur.regs.latch k = .invalid) ∧ (∀ e ∈ t.cur.fl, e.latch = .invalid)
      ∧ t.cur.fl.map Flight.res = u.cur.fl.map Flight.res ∧ t.cur.regs.rows = u.cur.regs.rows ∧ t.cur.regs.s = u.cur.regs.s
      ∧ t.cur.regs.p = u.cur.regs.p ∧ t.cur.regs.k = u.cur.regs.k ∧ t.cur.status = u.cur.status ∧ t.mem = u.mem

/-- Bundles under REP and under SWP (R45, R47 to R50, R53). -/
def Obligations.RepeatedAndSwitchPointBundles : Prop :=
  Sys2Proof.Claims.BundlesRepeat ∧ Sys2Proof.Claims.SwitchPointsClearLatches

/-- A slot's outcome by itself: it can complete, or it traps. -/
def Sys2Proof.Claims.Decides (i : Instr) (s : State) : Prop :=
  (∃ u, slotRun i (staged i s) = .ok u) ∨ ∃ k, slotRun i (staged i s) = .error (.trap k)

/-- The control transfer that a slot which can complete makes. -/
def Sys2Proof.Claims.targetOf (i : Instr) (s : State) : Option Word :=
  match slotRun i (staged i s) with
  | .ok u => u.cur.iss.target
  | .error _ => none

/-- The bundle of `i` and `j` traps with cause `k` of operation `o`: both are in the queue with their captures, neither has had an
effect, and issue goes on behind the bundle or at `target` (R53, R338). -/
def Sys2Proof.Claims.BothTrap (i j o : Instr) (s : State) (k : Cause) (target : Option Word) : Prop :=
  issue (Sys2Proof.Claims.bundleOf [i, j]) s = .next (takeTrap (opened s) { k with slot := (slotOf o).getD 0 }
    (flightEntries s.cur (s.cur.pt + 1) ++ [i, j].map fun x =>
      ({ captureOp (opened s) x false with due := bundleDue s.cur x } : Replay).withAns (keptAnswer s.cur))
    ⟨target.getD (s.cur.pc + 64), 0, 0⟩).tick

/-- A bundle of two operations retires both or none (R53): where the first traps, the bundle traps with its cause, whatever the second
does; where only the second does, with the second's. An ADDI and a VMOV in one bundle both issue their results, the second
behind the first in the order of R29. -/
def Sys2Proof.Claims.AllOrNone : Prop :=
  (∀ i j s a b k, Ready i s → Ready j s → slotOf i = some a → slotOf j = some b → a < b → isTmap i = false → isTmap j = false →
      (∀ x ∈ [i, j], ∀ g f, x ≠ .cread g f) → slotRun i (staged i s) = .error (.trap k) → k.cls ≠ 0x23 →
      Sys2Proof.Claims.Decides j s → Sys2Proof.Claims.BothTrap i j i s k (Sys2Proof.Claims.targetOf j s))
  ∧ (∀ i j s a b k u, Ready i s → Ready j s → slotOf i = some a → slotOf j = some b → a < b → isTmap i = false → isTmap j = false →
      (∀ x ∈ [i, j], ∀ g f, x ≠ .cread g f) → slotRun i (staged i s) = .ok u → slotRun j (staged j s) = .error (.trap k) →
      k.cls ≠ 0x23 → Sys2Proof.Claims.BothTrap i j j s k (Sys2Proof.Claims.targetOf i s))
  ∧ (∀ g f g' inB f' s, Ready (.addi g f) s → Ready (.vmov g' inB f') s → f'.a.toNat < 320 → f'.t = false → f'.k = 0 →
      let x : Scalar := ⟨(s.cur.regs.scalar f.sa).val + f.imm.signExtend 64, 24⟩
      let r := s.cur.regs.row f'.a.toNat
      ∃ t e e', issue (Sys2Proof.Claims.bundleOf [.addi g f, .vmov g' inB f']) s = .next t
        ∧ t.cur.fl = ({ s.cur with fl := s.cur.fl ++ [e, e'] }.advance 1).fl
        ∧ IsResult e (.addi g f) s 0 [.scalar f.sd x] (.scalar x) 0 ∧ IsResult e' (.vmov g' inB f') s 4 [.row f'.dst.toNat r] (.row r) 0
        ∧ t.cur.pc = s.cur.pc + 64 ∧ t.cur.pt = s.cur.pt + 1 ∧ CtxKept s t ∧ t.cur.ldq = s.cur.ldq ∧ t.cur.win = s.cur.win
        ∧ t.cur.crs = s.cur.crs ∧ OutsideKept s t)

/-- With more than 16 results in flight a bundle holds for a cycle in which they go on (R42). An ADDI that reads or writes the scalar of
an overdue result, or whose result would enter the latches of slot S behind one, stalls: the pipelines stand still but for the
overdue results; where it depends on none of them it issues (R40, R59). -/
def Sys2Proof.Claims.HoldsAndStalls : Prop :=
  (∀ ops s, asleep s = false → (∀ i ∈ ops, declared s i = true) → 16 < s.cur.fl.length →
      ∃ t, issue (Sys2Proof.Claims.bundleOf ops) s = .next t ∧ t.cur.pc = s.cur.pc ∧ t.cur.pt = s.cur.pt + 1
        ∧ t.cur.fl = s.cur.fl ∧ CtxKept s t ∧ t.cur.ldq = s.cur.ldq ∧ t.cur.win = s.cur.win ∧ t.cur.crs = s.cur.crs ∧ OutsideKept s t)
  ∧ (∀ g f s, declared s (.addi g f) = true → executes s.cur (.addi g f) = true → asleep s = false → s.cur.fl.length ≤ 16 →
      ctlRep s.cur.ctl = false → s.cur.crs.repi = 0 → (∀ e ∈ s.cur.fl, e.overdue s.cur = true → ∀ n b, Write.pred n b ∉ e.res) →
      let hits (e : Flight) : Prop := e.overdue s.cur = true ∧
        ((∃ x, Write.scalar f.sa x ∈ e.res) ∨ (∃ x, Write.scalar f.sd x ∈ e.res) ∨ (e.slot = 0 ∧ e.latch ≠ .invalid))
      ((∃ e ∈ s.cur.fl, hits e) →
        ∃ t, exec (.addi g f) s = .next t ∧ t.cur.pc = s.cur.pc ∧ t.cur.pt = s.cur.pt
          ∧ t.cur.fl = (s.cur.fl.map fun e => if e.overdue s.cur then { e with ready := e.ready - 1 } else e)
          ∧ CtxKept s t ∧ t.cur.ldq = s.cur.ldq ∧ t.cur.win = s.cur.win ∧ t.cur.crs = s.cur.crs ∧ OutsideKept s t)
      ∧ ((∀ e ∈ s.cur.fl, ¬hits e) → ctlSwp s.cur.ctl = false →
        let x : Scalar := ⟨(s.cur.regs.scalar f.sa).val + f.imm.signExtend 64, 24⟩
        ∃ t e, exec (.addi g f) s = .next t ∧ t.cur.fl = ({ s.cur with fl := s.cur.fl ++ [e] }.advance 1).fl
          ∧ IsResult e (.addi g f) s 0 [.scalar f.sd x] (.scalar x) 0 ∧ t.cur.pc = s.cur.pc + 64 ∧ CtxKept s t ∧ OutsideKept s t))

/-- Bundles of several operations, the hold of R42 and the stall of R59 (R40, R42, R53, R59). -/
def Obligations.SeveralOperationsHoldsAndStalls : Prop := Sys2Proof.Claims.AllOrNone ∧ Sys2Proof.Claims.HoldsAndStalls

/-- No context has more than 32 load entries, and the window's head and tail are numbers below 32 (R200, R229, R232). -/
def Sys2Proof.Claims.queuesBounded (s : State) : Prop :=
  ∀ c ∈ s.cur :: s.others, c.ldq.length ≤ 32 ∧ c.win.head < 32 ∧ c.win.tail < 32

/-- The bounds of the queues hold after reset. -/
def Obligations.ResetQueuesBounded : Prop := Sys2Proof.Claims.queuesBounded State.reset

/-- Every step keeps the bounds of the queues of every context. -/
def Obligations.QueuesStayBounded : Prop :=
  ∀ s t, Sys2Proof.Claims.queuesBounded s → step s = .next t → Sys2Proof.Claims.queuesBounded t

/-! ### Forms whose effect is on the machine around a context: each completes -/

/-- Instruction `i` completes in a next state of which `p` holds. -/
def Sys2Proof.Claims.Completes (i : Instr) (s : State) (p : State → Prop) : Prop := ∃ t, exec i s = .next t ∧ p t

/-- TRAP, YIELD, SLEEP and END retire with their bundle, and what they ask for follows; RETT leaves the handler (R340, R343). -/
def Sys2Proof.Claims.ContextFormsComplete : Prop :=
  (∀ g f s, Ready (.trap g f) s → ∃ u, Closes (.trap g f) s s u
      ∧ exec (.trap g f) s = .next (trapBetween u { cls := 0x24, code := f.ext.toNat % 65536, slot := 7 }).tick)
  ∧ (∀ g f s, Opens (.yield g f) s → ctlRep s.cur.ctl = false → ctlSwp s.cur.ctl = true → s.cur.crs.repi = 0 → s.cur.task = none →
      Completes (.yield g f) s fun t =>
        t.cur.status = .ready ∧ t.cur.pc = s.cur.pc + 64 ∧ t.cur.regs = s.cur.regs.clearLatches ∧ t.mem = s.mem)
  ∧ (∀ g f s, Ready (.sleep g f) s → s.cur.task = none →
      let a := reg s (f.ext.extractLsb' 43 5)
      Completes (.sleep g f) s fun t => t.cur.pc = s.cur.pc + 64 ∧ t.cur.regs = s.cur.regs ∧ t.mem = s.mem
        ∧ t.cur.sleepTill = some (if f.ext.getLsbD 42 then a.toNat else (tileTime s (tileOf s.cur.cid) + a.toNat) % 2 ^ 64))
  ∧ (∀ g f s, Ready (.endCtx g f) s → s.cur.task = none → chainOf s s.cur = none → windowBusy s.cur = false →
      arrayBusy s s.cur = false → ∃ u, Closes (.endCtx g f) s s u ∧ exec (.endCtx g f) s = .next (retireCtx u u.cur.cid none).tick)
  ∧ (∀ g f s x, Ready (.rett g f) s → s.cur.crs.intrap = true → anyStorePending s s.cur.cid = false →
      readFrame (staged (.rett g f) s) = .ok (some x) →
      Completes (.rett g f) s fun t => t.cur.pc = s.cur.crs.tfpc ∧ t.cur.crs.intrap = false ∧ t.cur.crs.repi = x.repi
        ∧ t.cur.regs = s.cur.regs.setLatches x.latches ∧ t.mem = s.mem)

/-- Events of a context: results become visible, a pending trap is taken, waits end, pre-emption, save and restore (R22, R40,
R312, R335, R343 to R345, R349, R362). -/
def Sys2Proof.Claims.ContextEventsComplete : Prop :=
  (∀ c s, s.hasCtx c = true → dueNow s (s.ctx c) ≠ [] → firstBelow (dueNow s (s.ctx c)) = none →
      Completes (.resultVisible c) s fun t =>
        (t.ctx c).regs = (showAll (s.ctx c) (dueNow s (s.ctx c))).regs ∧ (t.ctx c).fl = (showAll (s.ctx c) (dueNow s (s.ctx c))).fl)
  ∧ (∀ c s k, s.hasCtx c = true → (s.ctx c).status = .running → (s.ctx c).crs.intrap = false → (s.ctx c).reinj = none →
      performed s (s.ctx c) = false → dueNow s (s.ctx c) = [] → (s.ctx c).pends = [k] →
      let u := s.focus c
      Completes (.trapEntry c) s fun t => t = (trapBetween { u with cur := { u.cur with pends := [] } } k).tick)
  ∧ (∀ c s m, s.hasCtx c = true → (s.ctx c).status = .blocked (.tokens m) → (s.ctx c).tok &&& m = 0 →
      Completes (.tokenWaitRelease c) s fun t => (t.ctx c).status = .ready)
  ∧ (∀ c s d, s.hasCtx c = true → (s.ctx c).sleepTill = some d → d ≤ tileTime s (tileOf c) →
      Completes (.sleepDeadline c) s fun t =>
        (t.ctx c).sleepTill = none ∧ ((s.ctx c).status = .blocked .sleep → (t.ctx c).status = .ready))
  ∧ (∀ c s, s.hasCtx c = true → (s.ctx c).onCore = true → (∀ d ∈ s.doms, d.ctxs.contains c = false) →
      Completes (.preemptRequest c) s fun t => (t.ctx c).preempt = true)
  ∧ (∀ c s, (s.ctx c).status = .saving → saveDrained s (s.ctx c) = true →
      Completes (.contextSave c) s fun t => t = (endSave s c).tick)
  ∧ (∀ gr g s, s.group gr = some g → g.st = .saved → restorable s g = true →
      canRestore s ((gangGroups s g).filter fun x => x.st = .saved) = true → s.tickets = [] →
      Completes (.restoreRequest gr) s fun t =>
        ∀ x ∈ (gangGroups s g).filter (fun x => x.st = .saved), ∃ y ∈ t.groups, y.id = x.id ∧ y.st = .restoring)
  ∧ (∀ c s b p y u w, (s.ctx c).status = .restoring →
      let x := s.ctx c
      let base := x.crs.sabase.toNat
      devRead s (devAgent x.bind.vf) x.bind.vf base (saveSize x) = .ok (b, p) → restoreOf x b = some y → y.waitOn = none →
      devWrite { s with fresh := s.fresh + 1 } (devAgent x.bind.vf) x.bind.vf base (leBytes 8 (numAt b 0 8 % 2 ^ 63)) = .ok (u, w) →
      Completes (.contextRestore c) s fun t =>
        let v := (flushCore u (hwOf c / 4)).updCtx c fun _ => y
        t = (groupRestored { v with parked := v.parked.filter fun o => o.cid != c } x.bind.group).tick)
  ∧ (∀ t n s, Completes (.clockStretch t n) s fun u => u = { s with htime := s.htime + n })

/-- The copy engine and the sync homes (R230, R240, R251, R253, R264, R291, R302, R357). -/
def Sys2Proof.Claims.EngineFormsComplete : Prop :=
  (∀ c e s y, look e (s.ctx c).win.cmds = some y → y.state = 1 → waitsDone (s.ctx c) y.waits = true →
      pausedFor (s.ctx c) y = false →
      Completes (.copyStart c e) s fun t => t = (updRecord (updCmd s c e fun z => { z with state := 2 }) c).tick)
  ∧ (∀ t s c, roundRobin (((s.tile t).berthNext + 15) % 16)
        ((s.allCtx.filter fun x => tileOf x.cid = t && wantsBerth s (s.tile t) x.cid).map Ctx.cid) = some c →
      (s.tile t).berths.foldl (fun n b => n + (b.2 + 63) / 64) 0 < 64 →
      Completes (.berthGrant t) s fun u =>
        (u.tile t).berths = put c ((look c (s.tile t).berths).getD 0 + 64) (s.tile t).berths ∧ u.mem = s.mem ∧ u.spad = s.spad)
  ∧ (∀ c e j pick s x, look e (s.ctx c).win.cmds = some x → x.state = 2 → j < x.total → x.has j = false → j < x.cursor + 256 →
      pausedFor (s.ctx c) x = false → remoteOk s (s.ctx c) x = true → x.isList = false → x.isScat = false →
      (x.readsGlobal = true → (look c (s.tile (tileOf c)).berths).getD 0 ≠ 0) →
      Completes (.copySector c e j pick) s fun t => t = (updRecord (runSector s c e x 0 j pick false x.readsGlobal) c).tick)
  ∧ (∀ (c q slot : Nat) (s : State) (r : RingRow), let b := (s.ctx c).win.q.toList.getD q QBind.none
      look slot b.rowsIn = some r → r.landed = 8 → b.arr.getLsbD slot = false → b.valid = true → (s.ctx c).away = false →
      let d := { b with arr := b.arr ||| (1#8 <<< slot), rowsIn := put slot (fixRow s (s.ctx c) b slot r) b.rowsIn }
      let u := s.updCtx c fun y => { y with win := { y.win with q := y.win.q.setIfInBounds q d } }.readyFrom fun w => w = WaitOn.stream q
      (u.ctx c).win.rowInFlight r.cmd = true →
      Completes (.streamRowArrive c q slot) s fun t => t = (updRecord (sendPosts u c r.pc r.bar 8 []) c).tick)
  ∧ (∀ n s x b, s.posts.find? (fun y => y.id = n) = some x → x.carry = [] → s.syncRegs = [] →
      (∀ t off, parseLoc (clearLow4 x.loc) ≠ .remote t off) →
      let p := wordPlace s x.loc x.word
      let u := { s with posts := s.posts.filter fun y => y.id != n }
      let v := serveWord p u.syncRegs.length u
      parseBar (wordRead v p x.key) = some b →
      Completes (.sectorPost n) s fun t => t = (serveWord p v.syncRegs.length
        (addRel (wordWrite v x.cid (v.ctx x.cid).bind.vf p x.key x.shadow (b.post x.tag).word) p x.carry)).tick)
  ∧ (∀ n s o, s.sops.find? (fun x => x.id = n) = some o → opWaits s o = false →
      Completes (.syncOpAtHome n) s (fun t => t = (performSync s o).tick)
      ∧ Completes (.queueOpAtHome n) s fun t => t = (performSync s o).tick)
  ∧ (∀ c s a p, s.hasCtx c = true → s.answers.find? (fun x => x.cid = c) = some a → (s.ctx c).wait = some p → p.id = a.id →
      Completes (.syncAnswer c) s fun t => ∃ q, (t.ctx c).wait = some q ∧ q.id = p.id ∧ q.answer = some a.answer ∧ q.data = a.data
        ∧ q.row = a.row ∧ q.acq = a.acq)
  ∧ (∀ p s x r, s.pipe p = some x → x.rows.find? (fun y => !y.arrived) = some r → carryDone s (r.carry.map Carry.w) = true →
      Completes (.pipeRowArrive p) s fun t => t = (s.updPipe p fun y => { y with
        rows := y.rows.map fun z => if z.id = r.id then { z with arrived := true } else z }).tick)
  ∧ (∀ t s w, (s.tile t).lease.next = some w →
      Completes (.leaseGrant t) s fun u => (u.tile t).lease = (s.tile t).lease.grant)

/-- The array (R260, R268, R269, R274, R277, R278, R281). -/
def Sys2Proof.Claims.ArrayFormsComplete : Prop :=
  (∀ t op i j k s o ch, (s.tile t).arr.find? (fun o => o.id = op) = some o → (s.tile t).chain = some ch →
      (∃ g f, o.op = .mmaBf16 g f ∨ o.op = .mmaCb4 g f ∨ o.op = .mmaPlane g f) →
      let x := s.tile t
      let d := descOf (o.ops.getD 2 0)
      let n := (i * d.nb + j) * d.kb + k
      i < d.mb → j < d.nb → k < d.kb → o.steps.contains n = false → o.steps.length + 1 ≠ d.mb * d.nb * d.kb →
      ch.owner = o.cid → arrReady s x o = true → arrBlocked x o [d.acb + i * d.nb + j] = false → ch.late s x = false →
      Completes (.mmaStep t op i j k) s fun u => u.mem = s.mem ∧ u.spad = s.spad
        ∧ ∃ y ∈ (u.tile t).arr, y.id = op ∧ y.steps = n :: o.steps)
  ∧ (∀ t op s o g f, (s.tile t).arr.find? (fun o => o.id = op) = some o → o.op = .mgath g f → waitsDone (s.ctx o.cid) o.waits = true →
      lateIn s (s.tile t) = false → Completes (.mgathFill t op) s fun u =>
        u.mem = s.mem ∧ u.spad = s.spad ∧ (∀ y ∈ (u.tile t).arr, y.id ≠ op)
        ∧ ∀ l ∈ (s.tile t).gatherLat, l.id = op → ∃ m ∈ (u.tile t).gatherLat, m.id = op ∧ m.filled = true)
  ∧ (∀ t op s o g f, (s.tile t).arr.find? (fun o => o.id = op) = some o → o.op = .mldb g f → waitsDone (s.ctx o.cid) o.waits = true →
      lateIn s (s.tile t) = false → Completes (.mldbLoad t op) s fun u =>
        u.mem = s.mem ∧ u.spad = s.spad ∧ (∀ y ∈ (u.tile t).arr, y.id ≠ op)
        ∧ ∀ l ∈ (s.tile t).bLat, l.id = op → ∃ m ∈ (u.tile t).bLat, m.id = op ∧ m.filled = true)
  ∧ (∀ t op s o g f, (s.tile t).arr.find? (fun o => o.id = op) = some o → o.op = .accZero g f → o.steps = [] →
      (s.tile t).chain = none → waitsDone (s.ctx o.cid) o.waits = true → arrBlocked (s.tile t) o o.blocks = false →
      Completes (.accOpPerformed t op) s fun u => u = ((s.setTile ((s.tile t).dropArr op)).updCtx o.cid fun c =>
        finishToken (o.blocks.foldl (fun y b => y.setBlock b (AccBlock.fresh (f.ext.getLsbD 4))) c) op []).tick)
  ∧ (∀ t s ch, (s.tile t).chain = some ch → ch.ending = true → (s.tile t).cyc < ch.start + (s.ctx ch.owner).bind.chainMax →
      (s.tile t).arr = [] → Completes (.chainComplete t) s fun u => (u.tile t).chain = none ∧ u.mem = s.mem ∧ u.spad = s.spad)
  ∧ (∀ t s ch, (s.tile t).chain = some ch → ch.start + (s.ctx ch.owner).bind.chainMax ≤ (s.tile t).cyc →
      s.hasCtx ch.owner = true → Completes (.chainOverrun t) s fun u => (u.tile t).chain = none ∧ u.mem = s.mem ∧ u.spad = s.spad
        ∧ ∃ k ∈ (u.ctx ch.owner).pends, k.cls = 0x20 ∧ k.addr = ch.pc.toNat)

/-- Memory, links, ports and time (R444, R482, R486, R487). -/
def Sys2Proof.Claims.DeviceFormsComplete : Prop :=
  (∀ q s, q.pa % 32 = 0 → q.pa + q.len ≤ 2 ^ 30 * 384 → q.len ≠ 0 →
      Completes (.dramQuarantine q) s fun t => t = (quarantine s q).tick)
  ∧ (∀ pa len kind n s, pa % 32 = 0 → len ≠ 0 → pa + len ≤ 2 ^ 30 * 384 → kind < 4 →
      (look (4 * pa + kind) s.dev.errs).getD 0 + n < s.dev.qthresh →
      Completes (.hbmScrub pa ⟨len, kind, n⟩) s fun t =>
        t.dev.errs = put (4 * pa + kind) ((look (4 * pa + kind) s.dev.errs).getD 0 + n) s.dev.errs ∧ t.mem = s.mem)
  ∧ (∀ u s, u.stop = true → Completes (.ucieLinkDown u) s fun t => t.dev.stopped = true)
  ∧ (∀ p s, (s.port p).st = .up ∨ (s.port p).st = .degraded →
      Completes (.portRetrain p) s fun t => t = (s.setPort p { s.port p with st := .training }).tick)
  ∧ (∀ p peer s, (s.port p).st = .training → s.dev.devidSet = true → peer ≠ s.dev.devid → peer < 320 →
      Completes (.portTraining p 8 peer s.dev.dtag) s fun t => t = (s.setPort p ⟨.up, 0, some peer⟩).tick)
  ∧ (∀ b s, Completes (.timeSync b) s fun t => t.dev.sync = b ∧ t.mem = s.mem)

/-- The scheduler, launches, audits and task domains (R360 to R363, R375 to R377, R381, R382, R393, R398, R404, R409, R418, R427,
R469 to R471). -/
def Sys2Proof.Claims.SchedulerFormsComplete : Prop :=
  (∀ s k b, (∀ l ∈ s.launches, l.node ≠ some .fired) → nextQueue s = some k → (s.lq k).isDev = false →
      let u : State := { s with lastLq := put (s.lq k).level k s.lastLq }
      peekEntry u k (s.lq k) = some b →
      Completes .launchPop s fun t => t = (enterFired
        (takeLaunch (u.setLq k { s.lq k with head := (s.lq k).head + 1 }) (k / 16) (s.lq k).level b (s.lq k).known)).tick)
  ∧ (∀ k s x d, s.tickets.find? (fun y => y.id = k) = some x → servable s x = true → x.die = none →
      (List.range 8).find? (fun n => ticketFits s x n) = some d →
      Completes (.ticketReserve k) s fun t => t = (reserveStep s { x with die := some d } d).tick)
  ∧ (∀ k s x, s.tickets.find? (fun y => y.id = k) = some x → fitsSomewhere s x = false →
      Completes (.preemptTimeout k) s fun t => t.mem = s.mem ∧ t.spad = s.spad
        ∧ ∀ g ∈ s.groups, (victims s x).contains g.ticket = true → g.st = .running →
          ∃ y ∈ t.groups, y.id = g.id ∧ y.victim = some k)
  ∧ (∀ gr s g l, s.group gr = some g → s.launch g.launch = some l → g.st = .resident →
      let gs := s.groups.filter fun x => x.ticket = g.ticket && x.launch = g.launch && x.st = .resident
      (∀ x ∈ gs, ∀ i < x.banks, ((s.tile x.tile).banks.toList.getD (x.bank + i) ⟨none, none, none⟩).owner = none) →
      Completes (.groupReady gr) s fun t =>
        t = ((gs.foldl (readyGroup l) s).updLaunch l.id fun x => { x with tstart := some (x.tstart.getD s.htime) }).tick)
  ∧ (∀ t b s o g, ((s.tile t).banks.toList.getD b ⟨none, none, none⟩).owner = some o → s.group o = some g →
      g.releasing.contains b = true → bankBusy s g b = false →
      Completes (.bankFree t b) s fun u => u = (forgetGroups (updBanks s t b 1 fun x => { x with owner := none })).tick)
  ∧ (∀ l s x, s.launch l = some x → launchOver s x = true →
      Completes (.completionRecordWrite l) s fun t => t = (completeLaunch s x).tick)
  ∧ (∀ n s l u es, s.launch n = some l → l.node = some .parked → popInputs l.fn l.inq s = some (u, es) →
      (∀ e ∈ es, bitsOf 0 2 (numAt e.bytes 0 8) < 2) → Completes (.nodeFire n) s fun t =>
        ∃ v : Launch, v.id = l.id ∧ v.preds = es.map (fun e => (predOf u l.fn e.bytes).1) ∧ v.node = some .fired
          ∧ t = (enterFired (u.updLaunch n fun _ => v)).tick)
  ∧ (∀ l s x, s.launch l = some x → Completes (.launchCancel l) s fun t => t = (cancelLaunch s x).tick)
  ∧ (∀ a s x u, s.audits.find? (fun y => y.id = a) = some x → settledAudit s x = true → x.replay = none → placeReplay s x = some u →
      Completes (.auditReplay a) s fun t => t = u.tick)
  ∧ (∀ a s x n g, s.audits.find? (fun y => y.id = a) = some x → x.replay = some n → s.group n = some g → replayDone s x g = true →
      x.lack = false → x.sig = x.sig2 → Completes (.auditCompare a) s fun t =>
        t = ((endAudit s x).updSvc x.tile fun v => { v with susp := v.susp - 1 }).tick)
  ∧ (∀ d q s x u c, s.dom d = some x → x.task q = some u → x.resident = true → u.st = .queued →
      (x.nextOn u.tile).map Task.seq = some q → freeTaskOn s x u.tile = some c → x.linesOn u.tile + 64 ≤ 8192 →
      Completes (.taskDispatch d q) s fun t => t = (startTask s x u c).tick)
  ∧ (∀ d s x q, s.dom d = some x → x.frontier = some q → q.st = .finished →
      (∀ g ∈ s.gops, g.task = some (d, q.seq) → g.writes = false) →
      Completes (.taskCommit d) s fun t => t = (becomeFront ((drainTask s d q).updDom d fun y => { y with
        tasks := y.tasks.filter fun u => u.seq != q.seq, committed := y.committed + 1, taint := y.taint || q.poison
        corrected := y.corrected || q.corrected }) d).tick)
  ∧ (∀ d s x, s.dom d = some x → x.resident = true → x.tasks = [] → carryDone s x.ws = true → x.stopped = none → x.taint = false → x.corrected = false →
      Completes (.domainComplete d) s fun t =>
        t = (sweepObjs (writeRecord (releaseDomain s x) x.vf x.record
          (recordTail 0 (x.tstart.getD 0) x.tend (x.committed % 2 ^ 32) 0 0) (recordStatus 0 0 0)).1).tick)
  ∧ (∀ fn s m k, mailFor s fn 3 = some m → (∀ y ∈ s.doms, y.vf = fn → y.resident = true) → domainChecks s fn m.arg = .error k →
      Completes (.domainOpen fn) s fun t => t = (mailDone s fn k []).tick)
  ∧ (∀ fn s m x, mailFor s fn 3 = some m → (∀ y ∈ s.doms, y.vf = fn → y.resident = true) → domainChecks s fn m.arg = .ok x →
      Completes (.domainOpen fn) s fun t => t = (claimStore { s with
        uid := s.uid + 1, doms := s.doms ++ [x]
        tickets := s.tickets ++ [{ id := s.uid, launch := 0, num := 0, dom := some x.id, level := 15, since := s.htime, die := none
                                   groups := [], rows := 0, spared := [], after := none }] } x).tick)

/-- EVERY FORM THAT ACTS ON THE MACHINE AROUND A CONTEXT COMPLETES: the context instructions, the events of contexts, of the copy
engine and the sync homes, of the array, of memory, links and time, and of the scheduler and the task domains. -/
def Obligations.MachineFormsComplete : Prop :=
  ContextFormsComplete ∧ ContextEventsComplete ∧ EngineFormsComplete ∧ ArrayFormsComplete ∧ DeviceFormsComplete
    ∧ SchedulerFormsComplete
end

