-- ==== Sys2Proof/Laws/State.lean ====
section
/-!
SUPPORT. What each update of the state leaves alone: one lemma per field and update.
-/
namespace Sys2Proof.Machine

/-! ### State.updCur -/

@[simp] theorem State.updCur_others (s : State) (f : Ctx → Ctx) : (s.updCur f).others = s.others := rfl
@[simp] theorem State.updCur_tiles (s : State) (f : Ctx → Ctx) : (s.updCur f).tiles = s.tiles := rfl
@[simp] theorem State.updCur_htime (s : State) (f : Ctx → Ctx) : (s.updCur f).htime = s.htime := rfl
@[simp] theorem State.updCur_mem (s : State) (f : Ctx → Ctx) : (s.updCur f).mem = s.mem := rfl
@[simp] theorem State.updCur_spad (s : State) (f : Ctx → Ctx) : (s.updCur f).spad = s.spad := rfl
@[simp] theorem State.updCur_poison (s : State) (f : Ctx → Ctx) : (s.updCur f).poison = s.poison := rfl
@[simp] theorem State.updCur_pcover (s : State) (f : Ctx → Ctx) : (s.updCur f).pcover = s.pcover := rfl
@[simp] theorem State.updCur_skey (s : State) (f : Ctx → Ctx) : (s.updCur f).skey = s.skey := rfl
@[simp] theorem State.updCur_fns (s : State) (f : Ctx → Ctx) : (s.updCur f).fns = s.fns := rfl
@[simp] theorem State.updCur_keys (s : State) (f : Ctx → Ctx) : (s.updCur f).keys = s.keys := rfl
@[simp] theorem State.updCur_tlb (s : State) (f : Ctx → Ctx) : (s.updCur f).tlb = s.tlb := rfl
@[simp] theorem State.updCur_walks (s : State) (f : Ctx → Ctx) : (s.updCur f).walks = s.walks := rfl
@[simp] theorem State.updCur_walkFaults (s : State) (f : Ctx → Ctx) : (s.updCur f).walkFaults = s.walkFaults := rfl
@[simp] theorem State.updCur_gops (s : State) (f : Ctx → Ctx) : (s.updCur f).gops = s.gops := rfl
@[simp] theorem State.updCur_hist (s : State) (f : Ctx → Ctx) : (s.updCur f).hist = s.hist := rfl
@[simp] theorem State.updCur_sops (s : State) (f : Ctx → Ctx) : (s.updCur f).sops = s.sops := rfl
@[simp] theorem State.updCur_syncRegs (s : State) (f : Ctx → Ctx) : (s.updCur f).syncRegs = s.syncRegs := rfl
@[simp] theorem State.updCur_parked (s : State) (f : Ctx → Ctx) : (s.updCur f).parked = s.parked := rfl
@[simp] theorem State.updCur_answers (s : State) (f : Ctx → Ctx) : (s.updCur f).answers = s.answers := rfl
@[simp] theorem State.updCur_rels (s : State) (f : Ctx → Ctx) : (s.updCur f).rels = s.rels := rfl
@[simp] theorem State.updCur_posts (s : State) (f : Ctx → Ctx) : (s.updCur f).posts = s.posts := rfl
@[simp] theorem State.updCur_doms (s : State) (f : Ctx → Ctx) : (s.updCur f).doms = s.doms := rfl
@[simp] theorem State.updCur_objs (s : State) (f : Ctx → Ctx) : (s.updCur f).objs = s.objs := rfl
@[simp] theorem State.updCur_launches (s : State) (f : Ctx → Ctx) : (s.updCur f).launches = s.launches := rfl
@[simp] theorem State.updCur_tickets (s : State) (f : Ctx → Ctx) : (s.updCur f).tickets = s.tickets := rfl
@[simp] theorem State.updCur_groups (s : State) (f : Ctx → Ctx) : (s.updCur f).groups = s.groups := rfl
@[simp] theorem State.updCur_pipes (s : State) (f : Ctx → Ctx) : (s.updCur f).pipes = s.pipes := rfl
@[simp] theorem State.updCur_lqs (s : State) (f : Ctx → Ctx) : (s.updCur f).lqs = s.lqs := rfl
@[simp] theorem State.updCur_lastLq (s : State) (f : Ctx → Ctx) : (s.updCur f).lastLq = s.lastLq := rfl
@[simp] theorem State.updCur_audits (s : State) (f : Ctx → Ctx) : (s.updCur f).audits = s.audits := rfl
@[simp] theorem State.updCur_dev (s : State) (f : Ctx → Ctx) : (s.updCur f).dev = s.dev := rfl
@[simp] theorem State.updCur_turns (s : State) (f : Ctx → Ctx) : (s.updCur f).turns = s.turns := rfl
@[simp] theorem State.updCur_uid (s : State) (f : Ctx → Ctx) : (s.updCur f).uid = s.uid := rfl
@[simp] theorem State.updCur_fresh (s : State) (f : Ctx → Ctx) : (s.updCur f).fresh = s.fresh := rfl

/-! ### State.setTile -/

@[simp] theorem State.setTile_cur (s : State) (x : Tile) : (s.setTile x).cur = s.cur := rfl
@[simp] theorem State.setTile_others (s : State) (x : Tile) : (s.setTile x).others = s.others := rfl
@[simp] theorem State.setTile_htime (s : State) (x : Tile) : (s.setTile x).htime = s.htime := rfl
@[simp] theorem State.setTile_mem (s : State) (x : Tile) : (s.setTile x).mem = s.mem := rfl
@[simp] theorem State.setTile_spad (s : State) (x : Tile) : (s.setTile x).spad = s.spad := rfl
@[simp] theorem State.setTile_poison (s : State) (x : Tile) : (s.setTile x).poison = s.poison := rfl
@[simp] theorem State.setTile_pcover (s : State) (x : Tile) : (s.setTile x).pcover = s.pcover := rfl
@[simp] theorem State.setTile_skey (s : State) (x : Tile) : (s.setTile x).skey = s.skey := rfl
@[simp] theorem State.setTile_fns (s : State) (x : Tile) : (s.setTile x).fns = s.fns := rfl
@[simp] theorem State.setTile_keys (s : State) (x : Tile) : (s.setTile x).keys = s.keys := rfl
@[simp] theorem State.setTile_tlb (s : State) (x : Tile) : (s.setTile x).tlb = s.tlb := rfl
@[simp] theorem State.setTile_walks (s : State) (x : Tile) : (s.setTile x).walks = s.walks := rfl
@[simp] theorem State.setTile_walkFaults (s : State) (x : Tile) : (s.setTile x).walkFaults = s.walkFaults := rfl
@[simp] theorem State.setTile_gops (s : State) (x : Tile) : (s.setTile x).gops = s.gops := rfl
@[simp] theorem State.setTile_hist (s : State) (x : Tile) : (s.setTile x).hist = s.hist := rfl
@[simp] theorem State.setTile_sops (s : State) (x : Tile) : (s.setTile x).sops = s.sops := rfl
@[simp] theorem State.setTile_syncRegs (s : State) (x : Tile) : (s.setTile x).syncRegs = s.syncRegs := rfl
@[simp] theorem State.setTile_parked (s : State) (x : Tile) : (s.setTile x).parked = s.parked := rfl
@[simp] theorem State.setTile_answers (s : State) (x : Tile) : (s.setTile x).answers = s.answers := rfl
@[simp] theorem State.setTile_rels (s : State) (x : Tile) : (s.setTile x).rels = s.rels := rfl
@[simp] theorem State.setTile_posts (s : State) (x : Tile) : (s.setTile x).posts = s.posts := rfl
@[simp] theorem State.setTile_doms (s : State) (x : Tile) : (s.setTile x).doms = s.doms := rfl
@[simp] theorem State.setTile_objs (s : State) (x : Tile) : (s.setTile x).objs = s.objs := rfl
@[simp] theorem State.setTile_launches (s : State) (x : Tile) : (s.setTile x).launches = s.launches := rfl
@[simp] theorem State.setTile_tickets (s : State) (x : Tile) : (s.setTile x).tickets = s.tickets := rfl
@[simp] theorem State.setTile_groups (s : State) (x : Tile) : (s.setTile x).groups = s.groups := rfl
@[simp] theorem State.setTile_pipes (s : State) (x : Tile) : (s.setTile x).pipes = s.pipes := rfl
@[simp] theorem State.setTile_lqs (s : State) (x : Tile) : (s.setTile x).lqs = s.lqs := rfl
@[simp] theorem State.setTile_lastLq (s : State) (x : Tile) : (s.setTile x).lastLq = s.lastLq := rfl
@[simp] theorem State.setTile_audits (s : State) (x : Tile) : (s.setTile x).audits = s.audits := rfl
@[simp] theorem State.setTile_dev (s : State) (x : Tile) : (s.setTile x).dev = s.dev := rfl
@[simp] theorem State.setTile_turns (s : State) (x : Tile) : (s.setTile x).turns = s.turns := rfl
@[simp] theorem State.setTile_uid (s : State) (x : Tile) : (s.setTile x).uid = s.uid := rfl
@[simp] theorem State.setTile_fresh (s : State) (x : Tile) : (s.setTile x).fresh = s.fresh := rfl

/-! ### State.setFn -/

@[simp] theorem State.setFn_cur (s : State) (n : Nat) (x : Fn) : (s.setFn n x).cur = s.cur := rfl
@[simp] theorem State.setFn_others (s : State) (n : Nat) (x : Fn) : (s.setFn n x).others = s.others := rfl
@[simp] theorem State.setFn_tiles (s : State) (n : Nat) (x : Fn) : (s.setFn n x).tiles = s.tiles := rfl
@[simp] theorem State.setFn_htime (s : State) (n : Nat) (x : Fn) : (s.setFn n x).htime = s.htime := rfl
@[simp] theorem State.setFn_mem (s : State) (n : Nat) (x : Fn) : (s.setFn n x).mem = s.mem := rfl
@[simp] theorem State.setFn_spad (s : State) (n : Nat) (x : Fn) : (s.setFn n x).spad = s.spad := rfl
@[simp] theorem State.setFn_poison (s : State) (n : Nat) (x : Fn) : (s.setFn n x).poison = s.poison := rfl
@[simp] theorem State.setFn_pcover (s : State) (n : Nat) (x : Fn) : (s.setFn n x).pcover = s.pcover := rfl
@[simp] theorem State.setFn_skey (s : State) (n : Nat) (x : Fn) : (s.setFn n x).skey = s.skey := rfl
@[simp] theorem State.setFn_keys (s : State) (n : Nat) (x : Fn) : (s.setFn n x).keys = s.keys := rfl
@[simp] theorem State.setFn_tlb (s : State) (n : Nat) (x : Fn) : (s.setFn n x).tlb = s.tlb := rfl
@[simp] theorem State.setFn_walks (s : State) (n : Nat) (x : Fn) : (s.setFn n x).walks = s.walks := rfl
@[simp] theorem State.setFn_walkFaults (s : State) (n : Nat) (x : Fn) : (s.setFn n x).walkFaults = s.walkFaults := rfl
@[simp] theorem State.setFn_gops (s : State) (n : Nat) (x : Fn) : (s.setFn n x).gops = s.gops := rfl
@[simp] theorem State.setFn_hist (s : State) (n : Nat) (x : Fn) : (s.setFn n x).hist = s.hist := rfl
@[simp] theorem State.setFn_sops (s : State) (n : Nat) (x : Fn) : (s.setFn n x).sops = s.sops := rfl
@[simp] theorem State.setFn_syncRegs (s : State) (n : Nat) (x : Fn) : (s.setFn n x).syncRegs = s.syncRegs := rfl
@[simp] theorem State.setFn_parked (s : State) (n : Nat) (x : Fn) : (s.setFn n x).parked = s.parked := rfl
@[simp] theorem State.setFn_answers (s : State) (n : Nat) (x : Fn) : (s.setFn n x).answers = s.answers := rfl
@[simp] theorem State.setFn_rels (s : State) (n : Nat) (x : Fn) : (s.setFn n x).rels = s.rels := rfl
@[simp] theorem State.setFn_posts (s : State) (n : Nat) (x : Fn) : (s.setFn n x).posts = s.posts := rfl
@[simp] theorem State.setFn_doms (s : State) (n : Nat) (x : Fn) : (s.setFn n x).doms = s.doms := rfl
@[simp] theorem State.setFn_objs (s : State) (n : Nat) (x : Fn) : (s.setFn n x).objs = s.objs := rfl
@[simp] theorem State.setFn_launches (s : State) (n : Nat) (x : Fn) : (s.setFn n x).launches = s.launches := rfl
@[simp] theorem State.setFn_tickets (s : State) (n : Nat) (x : Fn) : (s.setFn n x).tickets = s.tickets := rfl
@[simp] theorem State.setFn_groups (s : State) (n : Nat) (x : Fn) : (s.setFn n x).groups = s.groups := rfl
@[simp] theorem State.setFn_pipes (s : State) (n : Nat) (x : Fn) : (s.setFn n x).pipes = s.pipes := rfl
@[simp] theorem State.setFn_lqs (s : State) (n : Nat) (x : Fn) : (s.setFn n x).lqs = s.lqs := rfl
@[simp] theorem State.setFn_lastLq (s : State) (n : Nat) (x : Fn) : (s.setFn n x).lastLq = s.lastLq := rfl
@[simp] theorem State.setFn_audits (s : State) (n : Nat) (x : Fn) : (s.setFn n x).audits = s.audits := rfl
@[simp] theorem State.setFn_dev (s : State) (n : Nat) (x : Fn) : (s.setFn n x).dev = s.dev := rfl
@[simp] theorem State.setFn_turns (s : State) (n : Nat) (x : Fn) : (s.setFn n x).turns = s.turns := rfl
@[simp] theorem State.setFn_uid (s : State) (n : Nat) (x : Fn) : (s.setFn n x).uid = s.uid := rfl
@[simp] theorem State.setFn_fresh (s : State) (n : Nat) (x : Fn) : (s.setFn n x).fresh = s.fresh := rfl

/-! ### State.tick -/

@[simp] theorem State.tick_cur (s : State) : (s.tick).cur = s.cur := rfl
@[simp] theorem State.tick_others (s : State) : (s.tick).others = s.others := rfl
@[simp] theorem State.tick_tiles (s : State) : (s.tick).tiles = s.tiles := rfl
@[simp] theorem State.tick_mem (s : State) : (s.tick).mem = s.mem := rfl
@[simp] theorem State.tick_spad (s : State) : (s.tick).spad = s.spad := rfl
@[simp] theorem State.tick_poison (s : State) : (s.tick).poison = s.poison := rfl
@[simp] theorem State.tick_pcover (s : State) : (s.tick).pcover = s.pcover := rfl
@[simp] theorem State.tick_skey (s : State) : (s.tick).skey = s.skey := rfl
@[simp] theorem State.tick_fns (s : State) : (s.tick).fns = s.fns := rfl
@[simp] theorem State.tick_keys (s : State) : (s.tick).keys = s.keys := rfl
@[simp] theorem State.tick_tlb (s : State) : (s.tick).tlb = s.tlb := rfl
@[simp] theorem State.tick_walks (s : State) : (s.tick).walks = s.walks := rfl
@[simp] theorem State.tick_walkFaults (s : State) : (s.tick).walkFaults = s.walkFaults := rfl
@[simp] theorem State.tick_gops (s : State) : (s.tick).gops = s.gops := rfl
@[simp] theorem State.tick_hist (s : State) : (s.tick).hist = s.hist := rfl
@[simp] theorem State.tick_sops (s : State) : (s.tick).sops = s.sops := rfl
@[simp] theorem State.tick_syncRegs (s : State) : (s.tick).syncRegs = s.syncRegs := rfl
@[simp] theorem State.tick_parked (s : State) : (s.tick).parked = s.parked := rfl
@[simp] theorem State.tick_answers (s : State) : (s.tick).answers = s.answers := rfl
@[simp] theorem State.tick_rels (s : State) : (s.tick).rels = s.rels := rfl
@[simp] theorem State.tick_posts (s : State) : (s.tick).posts = s.posts := rfl
@[simp] theorem State.tick_doms (s : State) : (s.tick).doms = s.doms := rfl
@[simp] theorem State.tick_objs (s : State) : (s.tick).objs = s.objs := rfl
@[simp] theorem State.tick_launches (s : State) : (s.tick).launches = s.launches := rfl
@[simp] theorem State.tick_tickets (s : State) : (s.tick).tickets = s.tickets := rfl
@[simp] theorem State.tick_groups (s : State) : (s.tick).groups = s.groups := rfl
@[simp] theorem State.tick_pipes (s : State) : (s.tick).pipes = s.pipes := rfl
@[simp] theorem State.tick_lqs (s : State) : (s.tick).lqs = s.lqs := rfl
@[simp] theorem State.tick_lastLq (s : State) : (s.tick).lastLq = s.lastLq := rfl
@[simp] theorem State.tick_audits (s : State) : (s.tick).audits = s.audits := rfl
@[simp] theorem State.tick_dev (s : State) : (s.tick).dev = s.dev := rfl
@[simp] theorem State.tick_turns (s : State) : (s.tick).turns = s.turns := rfl
@[simp] theorem State.tick_uid (s : State) : (s.tick).uid = s.uid := rfl
@[simp] theorem State.tick_fresh (s : State) : (s.tick).fresh = s.fresh := rfl

/-! ### State.updGroup -/

@[simp] theorem State.updGroup_cur (s : State) (n : Nat) (f : Group → Group) : (s.updGroup n f).cur = s.cur := rfl
@[simp] theorem State.updGroup_others (s : State) (n : Nat) (f : Group → Group) : (s.updGroup n f).others = s.others := rfl
@[simp] theorem State.updGroup_tiles (s : State) (n : Nat) (f : Group → Group) : (s.updGroup n f).tiles = s.tiles := rfl
@[simp] theorem State.updGroup_htime (s : State) (n : Nat) (f : Group → Group) : (s.updGroup n f).htime = s.htime := rfl
@[simp] theorem State.updGroup_mem (s : State) (n : Nat) (f : Group → Group) : (s.updGroup n f).mem = s.mem := rfl
@[simp] theorem State.updGroup_spad (s : State) (n : Nat) (f : Group → Group) : (s.updGroup n f).spad = s.spad := rfl
@[simp] theorem State.updGroup_poison (s : State) (n : Nat) (f : Group → Group) : (s.updGroup n f).poison = s.poison := rfl
@[simp] theorem State.updGroup_pcover (s : State) (n : Nat) (f : Group → Group) : (s.updGroup n f).pcover = s.pcover := rfl
@[simp] theorem State.updGroup_skey (s : State) (n : Nat) (f : Group → Group) : (s.updGroup n f).skey = s.skey := rfl
@[simp] theorem State.updGroup_fns (s : State) (n : Nat) (f : Group → Group) : (s.updGroup n f).fns = s.fns := rfl
@[simp] theorem State.updGroup_keys (s : State) (n : Nat) (f : Group → Group) : (s.updGroup n f).keys = s.keys := rfl
@[simp] theorem State.updGroup_tlb (s : State) (n : Nat) (f : Group → Group) : (s.updGroup n f).tlb = s.tlb := rfl
@[simp] theorem State.updGroup_walks (s : State) (n : Nat) (f : Group → Group) : (s.updGroup n f).walks = s.walks := rfl
@[simp] theorem State.updGroup_walkFaults (s : State) (n : Nat) (f : Group → Group) : (s.updGroup n f).walkFaults = s.walkFaults := rfl
@[simp] theorem State.updGroup_gops (s : State) (n : Nat) (f : Group → Group) : (s.updGroup n f).gops = s.gops := rfl
@[simp] theorem State.updGroup_hist (s : State) (n : Nat) (f : Group → Group) : (s.updGroup n f).hist = s.hist := rfl
@[simp] theorem State.updGroup_sops (s : State) (n : Nat) (f : Group → Group) : (s.updGroup n f).sops = s.sops := rfl
@[simp] theorem State.updGroup_syncRegs (s : State) (n : Nat) (f : Group → Group) : (s.updGroup n f).syncRegs = s.syncRegs := rfl
@[simp] theorem State.updGroup_parked (s : State) (n : Nat) (f : Group → Group) : (s.updGroup n f).parked = s.parked := rfl
@[simp] theorem State.updGroup_answers (s : State) (n : Nat) (f : Group → Group) : (s.updGroup n f).answers = s.answers := rfl
@[simp] theorem State.updGroup_rels (s : State) (n : Nat) (f : Group → Group) : (s.updGroup n f).rels = s.rels := rfl
@[simp] theorem State.updGroup_posts (s : State) (n : Nat) (f : Group → Group) : (s.updGroup n f).posts = s.posts := rfl
@[simp] theorem State.updGroup_doms (s : State) (n : Nat) (f : Group → Group) : (s.updGroup n f).doms = s.doms := rfl
@[simp] theorem State.updGroup_objs (s : State) (n : Nat) (f : Group → Group) : (s.updGroup n f).objs = s.objs := rfl
@[simp] theorem State.updGroup_launches (s : State) (n : Nat) (f : Group → Group) : (s.updGroup n f).launches = s.launches := rfl
@[simp] theorem State.updGroup_tickets (s : State) (n : Nat) (f : Group → Group) : (s.updGroup n f).tickets = s.tickets := rfl
@[simp] theorem State.updGroup_pipes (s : State) (n : Nat) (f : Group → Group) : (s.updGroup n f).pipes = s.pipes := rfl
@[simp] theorem State.updGroup_lqs (s : State) (n : Nat) (f : Group → Group) : (s.updGroup n f).lqs = s.lqs := rfl
@[simp] theorem State.updGroup_lastLq (s : State) (n : Nat) (f : Group → Group) : (s.updGroup n f).lastLq = s.lastLq := rfl
@[simp] theorem State.updGroup_audits (s : State) (n : Nat) (f : Group → Group) : (s.updGroup n f).audits = s.audits := rfl
@[simp] theorem State.updGroup_dev (s : State) (n : Nat) (f : Group → Group) : (s.updGroup n f).dev = s.dev := rfl
@[simp] theorem State.updGroup_turns (s : State) (n : Nat) (f : Group → Group) : (s.updGroup n f).turns = s.turns := rfl
@[simp] theorem State.updGroup_uid (s : State) (n : Nat) (f : Group → Group) : (s.updGroup n f).uid = s.uid := rfl
@[simp] theorem State.updGroup_fresh (s : State) (n : Nat) (f : Group → Group) : (s.updGroup n f).fresh = s.fresh := rfl

/-! ### State.updLaunch -/

@[simp] theorem State.updLaunch_cur (s : State) (n : Nat) (f : Launch → Launch) : (s.updLaunch n f).cur = s.cur := rfl
@[simp] theorem State.updLaunch_others (s : State) (n : Nat) (f : Launch → Launch) : (s.updLaunch n f).others = s.others := rfl
@[simp] theorem State.updLaunch_tiles (s : State) (n : Nat) (f : Launch → Launch) : (s.updLaunch n f).tiles = s.tiles := rfl
@[simp] theorem State.updLaunch_htime (s : State) (n : Nat) (f : Launch → Launch) : (s.updLaunch n f).htime = s.htime := rfl
@[simp] theorem State.updLaunch_mem (s : State) (n : Nat) (f : Launch → Launch) : (s.updLaunch n f).mem = s.mem := rfl
@[simp] theorem State.updLaunch_spad (s : State) (n : Nat) (f : Launch → Launch) : (s.updLaunch n f).spad = s.spad := rfl
@[simp] theorem State.updLaunch_poison (s : State) (n : Nat) (f : Launch → Launch) : (s.updLaunch n f).poison = s.poison := rfl
@[simp] theorem State.updLaunch_pcover (s : State) (n : Nat) (f : Launch → Launch) : (s.updLaunch n f).pcover = s.pcover := rfl
@[simp] theorem State.updLaunch_skey (s : State) (n : Nat) (f : Launch → Launch) : (s.updLaunch n f).skey = s.skey := rfl
@[simp] theorem State.updLaunch_fns (s : State) (n : Nat) (f : Launch → Launch) : (s.updLaunch n f).fns = s.fns := rfl
@[simp] theorem State.updLaunch_keys (s : State) (n : Nat) (f : Launch → Launch) : (s.updLaunch n f).keys = s.keys := rfl
@[simp] theorem State.updLaunch_tlb (s : State) (n : Nat) (f : Launch → Launch) : (s.updLaunch n f).tlb = s.tlb := rfl
@[simp] theorem State.updLaunch_walks (s : State) (n : Nat) (f : Launch → Launch) : (s.updLaunch n f).walks = s.walks := rfl
@[simp] theorem State.updLaunch_walkFaults (s : State) (n : Nat) (f : Launch → Launch) : (s.updLaunch n f).walkFaults = s.walkFaults := rfl
@[simp] theorem State.updLaunch_gops (s : State) (n : Nat) (f : Launch → Launch) : (s.updLaunch n f).gops = s.gops := rfl
@[simp] theorem State.updLaunch_hist (s : State) (n : Nat) (f : Launch → Launch) : (s.updLaunch n f).hist = s.hist := rfl
@[simp] theorem State.updLaunch_sops (s : State) (n : Nat) (f : Launch → Launch) : (s.updLaunch n f).sops = s.sops := rfl
@[simp] theorem State.updLaunch_syncRegs (s : State) (n : Nat) (f : Launch → Launch) : (s.updLaunch n f).syncRegs = s.syncRegs := rfl
@[simp] theorem State.updLaunch_parked (s : State) (n : Nat) (f : Launch → Launch) : (s.updLaunch n f).parked = s.parked := rfl
@[simp] theorem State.updLaunch_answers (s : State) (n : Nat) (f : Launch → Launch) : (s.updLaunch n f).answers = s.answers := rfl
@[simp] theorem State.updLaunch_rels (s : State) (n : Nat) (f : Launch → Launch) : (s.updLaunch n f).rels = s.rels := rfl
@[simp] theorem State.updLaunch_posts (s : State) (n : Nat) (f : Launch → Launch) : (s.updLaunch n f).posts = s.posts := rfl
@[simp] theorem State.updLaunch_doms (s : State) (n : Nat) (f : Launch → Launch) : (s.updLaunch n f).doms = s.doms := rfl
@[simp] theorem State.updLaunch_objs (s : State) (n : Nat) (f : Launch → Launch) : (s.updLaunch n f).objs = s.objs := rfl
@[simp] theorem State.updLaunch_tickets (s : State) (n : Nat) (f : Launch → Launch) : (s.updLaunch n f).tickets = s.tickets := rfl
@[simp] theorem State.updLaunch_groups (s : State) (n : Nat) (f : Launch → Launch) : (s.updLaunch n f).groups = s.groups := rfl
@[simp] theorem State.updLaunch_pipes (s : State) (n : Nat) (f : Launch → Launch) : (s.updLaunch n f).pipes = s.pipes := rfl
@[simp] theorem State.updLaunch_lqs (s : State) (n : Nat) (f : Launch → Launch) : (s.updLaunch n f).lqs = s.lqs := rfl
@[simp] theorem State.updLaunch_lastLq (s : State) (n : Nat) (f : Launch → Launch) : (s.updLaunch n f).lastLq = s.lastLq := rfl
@[simp] theorem State.updLaunch_audits (s : State) (n : Nat) (f : Launch → Launch) : (s.updLaunch n f).audits = s.audits := rfl
@[simp] theorem State.updLaunch_dev (s : State) (n : Nat) (f : Launch → Launch) : (s.updLaunch n f).dev = s.dev := rfl
@[simp] theorem State.updLaunch_turns (s : State) (n : Nat) (f : Launch → Launch) : (s.updLaunch n f).turns = s.turns := rfl
@[simp] theorem State.updLaunch_uid (s : State) (n : Nat) (f : Launch → Launch) : (s.updLaunch n f).uid = s.uid := rfl
@[simp] theorem State.updLaunch_fresh (s : State) (n : Nat) (f : Launch → Launch) : (s.updLaunch n f).fresh = s.fresh := rfl

/-! ### State.updPipe -/

@[simp] theorem State.updPipe_cur (s : State) (n : Nat) (f : Pipe → Pipe) : (s.updPipe n f).cur = s.cur := rfl
@[simp] theorem State.updPipe_others (s : State) (n : Nat) (f : Pipe → Pipe) : (s.updPipe n f).others = s.others := rfl
@[simp] theorem State.updPipe_tiles (s : State) (n : Nat) (f : Pipe → Pipe) : (s.updPipe n f).tiles = s.tiles := rfl
@[simp] theorem State.updPipe_htime (s : State) (n : Nat) (f : Pipe → Pipe) : (s.updPipe n f).htime = s.htime := rfl
@[simp] theorem State.updPipe_mem (s : State) (n : Nat) (f : Pipe → Pipe) : (s.updPipe n f).mem = s.mem := rfl
@[simp] theorem State.updPipe_spad (s : State) (n : Nat) (f : Pipe → Pipe) : (s.updPipe n f).spad = s.spad := rfl
@[simp] theorem State.updPipe_poison (s : State) (n : Nat) (f : Pipe → Pipe) : (s.updPipe n f).poison = s.poison := rfl
@[simp] theorem State.updPipe_pcover (s : State) (n : Nat) (f : Pipe → Pipe) : (s.updPipe n f).pcover = s.pcover := rfl
@[simp] theorem State.updPipe_skey (s : State) (n : Nat) (f : Pipe → Pipe) : (s.updPipe n f).skey = s.skey := rfl
@[simp] theorem State.updPipe_fns (s : State) (n : Nat) (f : Pipe → Pipe) : (s.updPipe n f).fns = s.fns := rfl
@[simp] theorem State.updPipe_keys (s : State) (n : Nat) (f : Pipe → Pipe) : (s.updPipe n f).keys = s.keys := rfl
@[simp] theorem State.updPipe_tlb (s : State) (n : Nat) (f : Pipe → Pipe) : (s.updPipe n f).tlb = s.tlb := rfl
@[simp] theorem State.updPipe_walks (s : State) (n : Nat) (f : Pipe → Pipe) : (s.updPipe n f).walks = s.walks := rfl
@[simp] theorem State.updPipe_walkFaults (s : State) (n : Nat) (f : Pipe → Pipe) : (s.updPipe n f).walkFaults = s.walkFaults := rfl
@[simp] theorem State.updPipe_gops (s : State) (n : Nat) (f : Pipe → Pipe) : (s.updPipe n f).gops = s.gops := rfl
@[simp] theorem State.updPipe_hist (s : State) (n : Nat) (f : Pipe → Pipe) : (s.updPipe n f).hist = s.hist := rfl
@[simp] theorem State.updPipe_sops (s : State) (n : Nat) (f : Pipe → Pipe) : (s.updPipe n f).sops = s.sops := rfl
@[simp] theorem State.updPipe_syncRegs (s : State) (n : Nat) (f : Pipe → Pipe) : (s.updPipe n f).syncRegs = s.syncRegs := rfl
@[simp] theorem State.updPipe_parked (s : State) (n : Nat) (f : Pipe → Pipe) : (s.updPipe n f).parked = s.parked := rfl
@[simp] theorem State.updPipe_answers (s : State) (n : Nat) (f : Pipe → Pipe) : (s.updPipe n f).answers = s.answers := rfl
@[simp] theorem State.updPipe_rels (s : State) (n : Nat) (f : Pipe → Pipe) : (s.updPipe n f).rels = s.rels := rfl
@[simp] theorem State.updPipe_posts (s : State) (n : Nat) (f : Pipe → Pipe) : (s.updPipe n f).posts = s.posts := rfl
@[simp] theorem State.updPipe_doms (s : State) (n : Nat) (f : Pipe → Pipe) : (s.updPipe n f).doms = s.doms := rfl
@[simp] theorem State.updPipe_objs (s : State) (n : Nat) (f : Pipe → Pipe) : (s.updPipe n f).objs = s.objs := rfl
@[simp] theorem State.updPipe_launches (s : State) (n : Nat) (f : Pipe → Pipe) : (s.updPipe n f).launches = s.launches := rfl
@[simp] theorem State.updPipe_tickets (s : State) (n : Nat) (f : Pipe → Pipe) : (s.updPipe n f).tickets = s.tickets := rfl
@[simp] theorem State.updPipe_groups (s : State) (n : Nat) (f : Pipe → Pipe) : (s.updPipe n f).groups = s.groups := rfl
@[simp] theorem State.updPipe_lqs (s : State) (n : Nat) (f : Pipe → Pipe) : (s.updPipe n f).lqs = s.lqs := rfl
@[simp] theorem State.updPipe_lastLq (s : State) (n : Nat) (f : Pipe → Pipe) : (s.updPipe n f).lastLq = s.lastLq := rfl
@[simp] theorem State.updPipe_audits (s : State) (n : Nat) (f : Pipe → Pipe) : (s.updPipe n f).audits = s.audits := rfl
@[simp] theorem State.updPipe_dev (s : State) (n : Nat) (f : Pipe → Pipe) : (s.updPipe n f).dev = s.dev := rfl
@[simp] theorem State.updPipe_turns (s : State) (n : Nat) (f : Pipe → Pipe) : (s.updPipe n f).turns = s.turns := rfl
@[simp] theorem State.updPipe_uid (s : State) (n : Nat) (f : Pipe → Pipe) : (s.updPipe n f).uid = s.uid := rfl
@[simp] theorem State.updPipe_fresh (s : State) (n : Nat) (f : Pipe → Pipe) : (s.updPipe n f).fresh = s.fresh := rfl

/-! ### State.setLq -/

@[simp] theorem State.setLq_cur (s : State) (n : Nat) (x : LaunchQ) : (s.setLq n x).cur = s.cur := rfl
@[simp] theorem State.setLq_others (s : State) (n : Nat) (x : LaunchQ) : (s.setLq n x).others = s.others := rfl
@[simp] theorem State.setLq_tiles (s : State) (n : Nat) (x : LaunchQ) : (s.setLq n x).tiles = s.tiles := rfl
@[simp] theorem State.setLq_htime (s : State) (n : Nat) (x : LaunchQ) : (s.setLq n x).htime = s.htime := rfl
@[simp] theorem State.setLq_mem (s : State) (n : Nat) (x : LaunchQ) : (s.setLq n x).mem = s.mem := rfl
@[simp] theorem State.setLq_spad (s : State) (n : Nat) (x : LaunchQ) : (s.setLq n x).spad = s.spad := rfl
@[simp] theorem State.setLq_poison (s : State) (n : Nat) (x : LaunchQ) : (s.setLq n x).poison = s.poison := rfl
@[simp] theorem State.setLq_pcover (s : State) (n : Nat) (x : LaunchQ) : (s.setLq n x).pcover = s.pcover := rfl
@[simp] theorem State.setLq_skey (s : State) (n : Nat) (x : LaunchQ) : (s.setLq n x).skey = s.skey := rfl
@[simp] theorem State.setLq_fns (s : State) (n : Nat) (x : LaunchQ) : (s.setLq n x).fns = s.fns := rfl
@[simp] theorem State.setLq_keys (s : State) (n : Nat) (x : LaunchQ) : (s.setLq n x).keys = s.keys := rfl
@[simp] theorem State.setLq_tlb (s : State) (n : Nat) (x : LaunchQ) : (s.setLq n x).tlb = s.tlb := rfl
@[simp] theorem State.setLq_walks (s : State) (n : Nat) (x : LaunchQ) : (s.setLq n x).walks = s.walks := rfl
@[simp] theorem State.setLq_walkFaults (s : State) (n : Nat) (x : LaunchQ) : (s.setLq n x).walkFaults = s.walkFaults := rfl
@[simp] theorem State.setLq_gops (s : State) (n : Nat) (x : LaunchQ) : (s.setLq n x).gops = s.gops := rfl
@[simp] theorem State.setLq_hist (s : State) (n : Nat) (x : LaunchQ) : (s.setLq n x).hist = s.hist := rfl
@[simp] theorem State.setLq_sops (s : State) (n : Nat) (x : LaunchQ) : (s.setLq n x).sops = s.sops := rfl
@[simp] theorem State.setLq_syncRegs (s : State) (n : Nat) (x : LaunchQ) : (s.setLq n x).syncRegs = s.syncRegs := rfl
@[simp] theorem State.setLq_parked (s : State) (n : Nat) (x : LaunchQ) : (s.setLq n x).parked = s.parked := rfl
@[simp] theorem State.setLq_answers (s : State) (n : Nat) (x : LaunchQ) : (s.setLq n x).answers = s.answers := rfl
@[simp] theorem State.setLq_rels (s : State) (n : Nat) (x : LaunchQ) : (s.setLq n x).rels = s.rels := rfl
@[simp] theorem State.setLq_posts (s : State) (n : Nat) (x : LaunchQ) : (s.setLq n x).posts = s.posts := rfl
@[simp] theorem State.setLq_doms (s : State) (n : Nat) (x : LaunchQ) : (s.setLq n x).doms = s.doms := rfl
@[simp] theorem State.setLq_objs (s : State) (n : Nat) (x : LaunchQ) : (s.setLq n x).objs = s.objs := rfl
@[simp] theorem State.setLq_launches (s : State) (n : Nat) (x : LaunchQ) : (s.setLq n x).launches = s.launches := rfl
@[simp] theorem State.setLq_tickets (s : State) (n : Nat) (x : LaunchQ) : (s.setLq n x).tickets = s.tickets := rfl
@[simp] theorem State.setLq_groups (s : State) (n : Nat) (x : LaunchQ) : (s.setLq n x).groups = s.groups := rfl
@[simp] theorem State.setLq_pipes (s : State) (n : Nat) (x : LaunchQ) : (s.setLq n x).pipes = s.pipes := rfl
@[simp] theorem State.setLq_lastLq (s : State) (n : Nat) (x : LaunchQ) : (s.setLq n x).lastLq = s.lastLq := rfl
@[simp] theorem State.setLq_audits (s : State) (n : Nat) (x : LaunchQ) : (s.setLq n x).audits = s.audits := rfl
@[simp] theorem State.setLq_dev (s : State) (n : Nat) (x : LaunchQ) : (s.setLq n x).dev = s.dev := rfl
@[simp] theorem State.setLq_turns (s : State) (n : Nat) (x : LaunchQ) : (s.setLq n x).turns = s.turns := rfl
@[simp] theorem State.setLq_uid (s : State) (n : Nat) (x : LaunchQ) : (s.setLq n x).uid = s.uid := rfl
@[simp] theorem State.setLq_fresh (s : State) (n : Nat) (x : LaunchQ) : (s.setLq n x).fresh = s.fresh := rfl

/-! ### State.updDom -/

@[simp] theorem State.updDom_cur (s : State) (n : Nat) (f : Dom → Dom) : (s.updDom n f).cur = s.cur := rfl
@[simp] theorem State.updDom_others (s : State) (n : Nat) (f : Dom → Dom) : (s.updDom n f).others = s.others := rfl
@[simp] theorem State.updDom_tiles (s : State) (n : Nat) (f : Dom → Dom) : (s.updDom n f).tiles = s.tiles := rfl
@[simp] theorem State.updDom_htime (s : State) (n : Nat) (f : Dom → Dom) : (s.updDom n f).htime = s.htime := rfl
@[simp] theorem State.updDom_mem (s : State) (n : Nat) (f : Dom → Dom) : (s.updDom n f).mem = s.mem := rfl
@[simp] theorem State.updDom_spad (s : State) (n : Nat) (f : Dom → Dom) : (s.updDom n f).spad = s.spad := rfl
@[simp] theorem State.updDom_poison (s : State) (n : Nat) (f : Dom → Dom) : (s.updDom n f).poison = s.poison := rfl
@[simp] theorem State.updDom_pcover (s : State) (n : Nat) (f : Dom → Dom) : (s.updDom n f).pcover = s.pcover := rfl
@[simp] theorem State.updDom_skey (s : State) (n : Nat) (f : Dom → Dom) : (s.updDom n f).skey = s.skey := rfl
@[simp] theorem State.updDom_fns (s : State) (n : Nat) (f : Dom → Dom) : (s.updDom n f).fns = s.fns := rfl
@[simp] theorem State.updDom_keys (s : State) (n : Nat) (f : Dom → Dom) : (s.updDom n f).keys = s.keys := rfl
@[simp] theorem State.updDom_tlb (s : State) (n : Nat) (f : Dom → Dom) : (s.updDom n f).tlb = s.tlb := rfl
@[simp] theorem State.updDom_walks (s : State) (n : Nat) (f : Dom → Dom) : (s.updDom n f).walks = s.walks := rfl
@[simp] theorem State.updDom_walkFaults (s : State) (n : Nat) (f : Dom → Dom) : (s.updDom n f).walkFaults = s.walkFaults := rfl
@[simp] theorem State.updDom_gops (s : State) (n : Nat) (f : Dom → Dom) : (s.updDom n f).gops = s.gops := rfl
@[simp] theorem State.updDom_hist (s : State) (n : Nat) (f : Dom → Dom) : (s.updDom n f).hist = s.hist := rfl
@[simp] theorem State.updDom_sops (s : State) (n : Nat) (f : Dom → Dom) : (s.updDom n f).sops = s.sops := rfl
@[simp] theorem State.updDom_syncRegs (s : State) (n : Nat) (f : Dom → Dom) : (s.updDom n f).syncRegs = s.syncRegs := rfl
@[simp] theorem State.updDom_parked (s : State) (n : Nat) (f : Dom → Dom) : (s.updDom n f).parked = s.parked := rfl
@[simp] theorem State.updDom_answers (s : State) (n : Nat) (f : Dom → Dom) : (s.updDom n f).answers = s.answers := rfl
@[simp] theorem State.updDom_rels (s : State) (n : Nat) (f : Dom → Dom) : (s.updDom n f).rels = s.rels := rfl
@[simp] theorem State.updDom_posts (s : State) (n : Nat) (f : Dom → Dom) : (s.updDom n f).posts = s.posts := rfl
@[simp] theorem State.updDom_objs (s : State) (n : Nat) (f : Dom → Dom) : (s.updDom n f).objs = s.objs := rfl
@[simp] theorem State.updDom_launches (s : State) (n : Nat) (f : Dom → Dom) : (s.updDom n f).launches = s.launches := rfl
@[simp] theorem State.updDom_tickets (s : State) (n : Nat) (f : Dom → Dom) : (s.updDom n f).tickets = s.tickets := rfl
@[simp] theorem State.updDom_groups (s : State) (n : Nat) (f : Dom → Dom) : (s.updDom n f).groups = s.groups := rfl
@[simp] theorem State.updDom_pipes (s : State) (n : Nat) (f : Dom → Dom) : (s.updDom n f).pipes = s.pipes := rfl
@[simp] theorem State.updDom_lqs (s : State) (n : Nat) (f : Dom → Dom) : (s.updDom n f).lqs = s.lqs := rfl
@[simp] theorem State.updDom_lastLq (s : State) (n : Nat) (f : Dom → Dom) : (s.updDom n f).lastLq = s.lastLq := rfl
@[simp] theorem State.updDom_audits (s : State) (n : Nat) (f : Dom → Dom) : (s.updDom n f).audits = s.audits := rfl
@[simp] theorem State.updDom_dev (s : State) (n : Nat) (f : Dom → Dom) : (s.updDom n f).dev = s.dev := rfl
@[simp] theorem State.updDom_turns (s : State) (n : Nat) (f : Dom → Dom) : (s.updDom n f).turns = s.turns := rfl
@[simp] theorem State.updDom_uid (s : State) (n : Nat) (f : Dom → Dom) : (s.updDom n f).uid = s.uid := rfl
@[simp] theorem State.updDom_fresh (s : State) (n : Nat) (f : Dom → Dom) : (s.updDom n f).fresh = s.fresh := rfl

/-! ### State.updTask -/

@[simp] theorem State.updTask_cur (s : State) (n q : Nat) (f : Task → Task) : (s.updTask n q f).cur = s.cur := rfl
@[simp] theorem State.updTask_others (s : State) (n q : Nat) (f : Task → Task) : (s.updTask n q f).others = s.others := rfl
@[simp] theorem State.updTask_tiles (s : State) (n q : Nat) (f : Task → Task) : (s.updTask n q f).tiles = s.tiles := rfl
@[simp] theorem State.updTask_htime (s : State) (n q : Nat) (f : Task → Task) : (s.updTask n q f).htime = s.htime := rfl
@[simp] theorem State.updTask_mem (s : State) (n q : Nat) (f : Task → Task) : (s.updTask n q f).mem = s.mem := rfl
@[simp] theorem State.updTask_spad (s : State) (n q : Nat) (f : Task → Task) : (s.updTask n q f).spad = s.spad := rfl
@[simp] theorem State.updTask_poison (s : State) (n q : Nat) (f : Task → Task) : (s.updTask n q f).poison = s.poison := rfl
@[simp] theorem State.updTask_pcover (s : State) (n q : Nat) (f : Task → Task) : (s.updTask n q f).pcover = s.pcover := rfl
@[simp] theorem State.updTask_skey (s : State) (n q : Nat) (f : Task → Task) : (s.updTask n q f).skey = s.skey := rfl
@[simp] theorem State.updTask_fns (s : State) (n q : Nat) (f : Task → Task) : (s.updTask n q f).fns = s.fns := rfl
@[simp] theorem State.updTask_keys (s : State) (n q : Nat) (f : Task → Task) : (s.updTask n q f).keys = s.keys := rfl
@[simp] theorem State.updTask_tlb (s : State) (n q : Nat) (f : Task → Task) : (s.updTask n q f).tlb = s.tlb := rfl
@[simp] theorem State.updTask_walks (s : State) (n q : Nat) (f : Task → Task) : (s.updTask n q f).walks = s.walks := rfl
@[simp] theorem State.updTask_walkFaults (s : State) (n q : Nat) (f : Task → Task) : (s.updTask n q f).walkFaults = s.walkFaults := rfl
@[simp] theorem State.updTask_gops (s : State) (n q : Nat) (f : Task → Task) : (s.updTask n q f).gops = s.gops := rfl
@[simp] theorem State.updTask_hist (s : State) (n q : Nat) (f : Task → Task) : (s.updTask n q f).hist = s.hist := rfl
@[simp] theorem State.updTask_sops (s : State) (n q : Nat) (f : Task → Task) : (s.updTask n q f).sops = s.sops := rfl
@[simp] theorem State.updTask_syncRegs (s : State) (n q : Nat) (f : Task → Task) : (s.updTask n q f).syncRegs = s.syncRegs := rfl
@[simp] theorem State.updTask_parked (s : State) (n q : Nat) (f : Task → Task) : (s.updTask n q f).parked = s.parked := rfl
@[simp] theorem State.updTask_answers (s : State) (n q : Nat) (f : Task → Task) : (s.updTask n q f).answers = s.answers := rfl
@[simp] theorem State.updTask_rels (s : State) (n q : Nat) (f : Task → Task) : (s.updTask n q f).rels = s.rels := rfl
@[simp] theorem State.updTask_posts (s : State) (n q : Nat) (f : Task → Task) : (s.updTask n q f).posts = s.posts := rfl
@[simp] theorem State.updTask_objs (s : State) (n q : Nat) (f : Task → Task) : (s.updTask n q f).objs = s.objs := rfl
@[simp] theorem State.updTask_launches (s : State) (n q : Nat) (f : Task → Task) : (s.updTask n q f).launches = s.launches := rfl
@[simp] theorem State.updTask_tickets (s : State) (n q : Nat) (f : Task → Task) : (s.updTask n q f).tickets = s.tickets := rfl
@[simp] theorem State.updTask_groups (s : State) (n q : Nat) (f : Task → Task) : (s.updTask n q f).groups = s.groups := rfl
@[simp] theorem State.updTask_pipes (s : State) (n q : Nat) (f : Task → Task) : (s.updTask n q f).pipes = s.pipes := rfl
@[simp] theorem State.updTask_lqs (s : State) (n q : Nat) (f : Task → Task) : (s.updTask n q f).lqs = s.lqs := rfl
@[simp] theorem State.updTask_lastLq (s : State) (n q : Nat) (f : Task → Task) : (s.updTask n q f).lastLq = s.lastLq := rfl
@[simp] theorem State.updTask_audits (s : State) (n q : Nat) (f : Task → Task) : (s.updTask n q f).audits = s.audits := rfl
@[simp] theorem State.updTask_dev (s : State) (n q : Nat) (f : Task → Task) : (s.updTask n q f).dev = s.dev := rfl
@[simp] theorem State.updTask_turns (s : State) (n q : Nat) (f : Task → Task) : (s.updTask n q f).turns = s.turns := rfl
@[simp] theorem State.updTask_uid (s : State) (n q : Nat) (f : Task → Task) : (s.updTask n q f).uid = s.uid := rfl
@[simp] theorem State.updTask_fresh (s : State) (n q : Nat) (f : Task → Task) : (s.updTask n q f).fresh = s.fresh := rfl

/-! ### State.setPort -/

@[simp] theorem State.setPort_cur (s : State) (n : Nat) (x : Port) : (s.setPort n x).cur = s.cur := rfl
@[simp] theorem State.setPort_others (s : State) (n : Nat) (x : Port) : (s.setPort n x).others = s.others := rfl
@[simp] theorem State.setPort_tiles (s : State) (n : Nat) (x : Port) : (s.setPort n x).tiles = s.tiles := rfl
@[simp] theorem State.setPort_htime (s : State) (n : Nat) (x : Port) : (s.setPort n x).htime = s.htime := rfl
@[simp] theorem State.setPort_mem (s : State) (n : Nat) (x : Port) : (s.setPort n x).mem = s.mem := rfl
@[simp] theorem State.setPort_spad (s : State) (n : Nat) (x : Port) : (s.setPort n x).spad = s.spad := rfl
@[simp] theorem State.setPort_poison (s : State) (n : Nat) (x : Port) : (s.setPort n x).poison = s.poison := rfl
@[simp] theorem State.setPort_pcover (s : State) (n : Nat) (x : Port) : (s.setPort n x).pcover = s.pcover := rfl
@[simp] theorem State.setPort_skey (s : State) (n : Nat) (x : Port) : (s.setPort n x).skey = s.skey := rfl
@[simp] theorem State.setPort_fns (s : State) (n : Nat) (x : Port) : (s.setPort n x).fns = s.fns := rfl
@[simp] theorem State.setPort_keys (s : State) (n : Nat) (x : Port) : (s.setPort n x).keys = s.keys := rfl
@[simp] theorem State.setPort_tlb (s : State) (n : Nat) (x : Port) : (s.setPort n x).tlb = s.tlb := rfl
@[simp] theorem State.setPort_walks (s : State) (n : Nat) (x : Port) : (s.setPort n x).walks = s.walks := rfl
@[simp] theorem State.setPort_walkFaults (s : State) (n : Nat) (x : Port) : (s.setPort n x).walkFaults = s.walkFaults := rfl
@[simp] theorem State.setPort_gops (s : State) (n : Nat) (x : Port) : (s.setPort n x).gops = s.gops := rfl
@[simp] theorem State.setPort_hist (s : State) (n : Nat) (x : Port) : (s.setPort n x).hist = s.hist := rfl
@[simp] theorem State.setPort_sops (s : State) (n : Nat) (x : Port) : (s.setPort n x).sops = s.sops := rfl
@[simp] theorem State.setPort_syncRegs (s : State) (n : Nat) (x : Port) : (s.setPort n x).syncRegs = s.syncRegs := rfl
@[simp] theorem State.setPort_parked (s : State) (n : Nat) (x : Port) : (s.setPort n x).parked = s.parked := rfl
@[simp] theorem State.setPort_answers (s : State) (n : Nat) (x : Port) : (s.setPort n x).answers = s.answers := rfl
@[simp] theorem State.setPort_rels (s : State) (n : Nat) (x : Port) : (s.setPort n x).rels = s.rels := rfl
@[simp] theorem State.setPort_posts (s : State) (n : Nat) (x : Port) : (s.setPort n x).posts = s.posts := rfl
@[simp] theorem State.setPort_doms (s : State) (n : Nat) (x : Port) : (s.setPort n x).doms = s.doms := rfl
@[simp] theorem State.setPort_objs (s : State) (n : Nat) (x : Port) : (s.setPort n x).objs = s.objs := rfl
@[simp] theorem State.setPort_launches (s : State) (n : Nat) (x : Port) : (s.setPort n x).launches = s.launches := rfl
@[simp] theorem State.setPort_tickets (s : State) (n : Nat) (x : Port) : (s.setPort n x).tickets = s.tickets := rfl
@[simp] theorem State.setPort_groups (s : State) (n : Nat) (x : Port) : (s.setPort n x).groups = s.groups := rfl
@[simp] theorem State.setPort_pipes (s : State) (n : Nat) (x : Port) : (s.setPort n x).pipes = s.pipes := rfl
@[simp] theorem State.setPort_lqs (s : State) (n : Nat) (x : Port) : (s.setPort n x).lqs = s.lqs := rfl
@[simp] theorem State.setPort_lastLq (s : State) (n : Nat) (x : Port) : (s.setPort n x).lastLq = s.lastLq := rfl
@[simp] theorem State.setPort_audits (s : State) (n : Nat) (x : Port) : (s.setPort n x).audits = s.audits := rfl
@[simp] theorem State.setPort_turns (s : State) (n : Nat) (x : Port) : (s.setPort n x).turns = s.turns := rfl
@[simp] theorem State.setPort_uid (s : State) (n : Nat) (x : Port) : (s.setPort n x).uid = s.uid := rfl
@[simp] theorem State.setPort_fresh (s : State) (n : Nat) (x : Port) : (s.setPort n x).fresh = s.fresh := rfl

/-! ### State.setSigner -/

@[simp] theorem State.setSigner_cur (s : State) (n : Nat) (x : Signer) : (s.setSigner n x).cur = s.cur := rfl
@[simp] theorem State.setSigner_others (s : State) (n : Nat) (x : Signer) : (s.setSigner n x).others = s.others := rfl
@[simp] theorem State.setSigner_tiles (s : State) (n : Nat) (x : Signer) : (s.setSigner n x).tiles = s.tiles := rfl
@[simp] theorem State.setSigner_htime (s : State) (n : Nat) (x : Signer) : (s.setSigner n x).htime = s.htime := rfl
@[simp] theorem State.setSigner_mem (s : State) (n : Nat) (x : Signer) : (s.setSigner n x).mem = s.mem := rfl
@[simp] theorem State.setSigner_spad (s : State) (n : Nat) (x : Signer) : (s.setSigner n x).spad = s.spad := rfl
@[simp] theorem State.setSigner_poison (s : State) (n : Nat) (x : Signer) : (s.setSigner n x).poison = s.poison := rfl
@[simp] theorem State.setSigner_pcover (s : State) (n : Nat) (x : Signer) : (s.setSigner n x).pcover = s.pcover := rfl
@[simp] theorem State.setSigner_skey (s : State) (n : Nat) (x : Signer) : (s.setSigner n x).skey = s.skey := rfl
@[simp] theorem State.setSigner_fns (s : State) (n : Nat) (x : Signer) : (s.setSigner n x).fns = s.fns := rfl
@[simp] theorem State.setSigner_keys (s : State) (n : Nat) (x : Signer) : (s.setSigner n x).keys = s.keys := rfl
@[simp] theorem State.setSigner_tlb (s : State) (n : Nat) (x : Signer) : (s.setSigner n x).tlb = s.tlb := rfl
@[simp] theorem State.setSigner_walks (s : State) (n : Nat) (x : Signer) : (s.setSigner n x).walks = s.walks := rfl
@[simp] theorem State.setSigner_walkFaults (s : State) (n : Nat) (x : Signer) : (s.setSigner n x).walkFaults = s.walkFaults := rfl
@[simp] theorem State.setSigner_gops (s : State) (n : Nat) (x : Signer) : (s.setSigner n x).gops = s.gops := rfl
@[simp] theorem State.setSigner_hist (s : State) (n : Nat) (x : Signer) : (s.setSigner n x).hist = s.hist := rfl
@[simp] theorem State.setSigner_sops (s : State) (n : Nat) (x : Signer) : (s.setSigner n x).sops = s.sops := rfl
@[simp] theorem State.setSigner_syncRegs (s : State) (n : Nat) (x : Signer) : (s.setSigner n x).syncRegs = s.syncRegs := rfl
@[simp] theorem State.setSigner_parked (s : State) (n : Nat) (x : Signer) : (s.setSigner n x).parked = s.parked := rfl
@[simp] theorem State.setSigner_answers (s : State) (n : Nat) (x : Signer) : (s.setSigner n x).answers = s.answers := rfl
@[simp] theorem State.setSigner_rels (s : State) (n : Nat) (x : Signer) : (s.setSigner n x).rels = s.rels := rfl
@[simp] theorem State.setSigner_posts (s : State) (n : Nat) (x : Signer) : (s.setSigner n x).posts = s.posts := rfl
@[simp] theorem State.setSigner_doms (s : State) (n : Nat) (x : Signer) : (s.setSigner n x).doms = s.doms := rfl
@[simp] theorem State.setSigner_objs (s : State) (n : Nat) (x : Signer) : (s.setSigner n x).objs = s.objs := rfl
@[simp] theorem State.setSigner_launches (s : State) (n : Nat) (x : Signer) : (s.setSigner n x).launches = s.launches := rfl
@[simp] theorem State.setSigner_tickets (s : State) (n : Nat) (x : Signer) : (s.setSigner n x).tickets = s.tickets := rfl
@[simp] theorem State.setSigner_groups (s : State) (n : Nat) (x : Signer) : (s.setSigner n x).groups = s.groups := rfl
@[simp] theorem State.setSigner_pipes (s : State) (n : Nat) (x : Signer) : (s.setSigner n x).pipes = s.pipes := rfl
@[simp] theorem State.setSigner_lqs (s : State) (n : Nat) (x : Signer) : (s.setSigner n x).lqs = s.lqs := rfl
@[simp] theorem State.setSigner_lastLq (s : State) (n : Nat) (x : Signer) : (s.setSigner n x).lastLq = s.lastLq := rfl
@[simp] theorem State.setSigner_audits (s : State) (n : Nat) (x : Signer) : (s.setSigner n x).audits = s.audits := rfl
@[simp] theorem State.setSigner_turns (s : State) (n : Nat) (x : Signer) : (s.setSigner n x).turns = s.turns := rfl
@[simp] theorem State.setSigner_uid (s : State) (n : Nat) (x : Signer) : (s.setSigner n x).uid = s.uid := rfl
@[simp] theorem State.setSigner_fresh (s : State) (n : Nat) (x : Signer) : (s.setSigner n x).fresh = s.fresh := rfl

/-! ### State.updSvc -/

@[simp] theorem State.updSvc_cur (s : State) (n : Nat) (f : Svc → Svc) : (s.updSvc n f).cur = s.cur := rfl
@[simp] theorem State.updSvc_others (s : State) (n : Nat) (f : Svc → Svc) : (s.updSvc n f).others = s.others := rfl
@[simp] theorem State.updSvc_htime (s : State) (n : Nat) (f : Svc → Svc) : (s.updSvc n f).htime = s.htime := rfl
@[simp] theorem State.updSvc_mem (s : State) (n : Nat) (f : Svc → Svc) : (s.updSvc n f).mem = s.mem := rfl
@[simp] theorem State.updSvc_spad (s : State) (n : Nat) (f : Svc → Svc) : (s.updSvc n f).spad = s.spad := rfl
@[simp] theorem State.updSvc_poison (s : State) (n : Nat) (f : Svc → Svc) : (s.updSvc n f).poison = s.poison := rfl
@[simp] theorem State.updSvc_pcover (s : State) (n : Nat) (f : Svc → Svc) : (s.updSvc n f).pcover = s.pcover := rfl
@[simp] theorem State.updSvc_skey (s : State) (n : Nat) (f : Svc → Svc) : (s.updSvc n f).skey = s.skey := rfl
@[simp] theorem State.updSvc_fns (s : State) (n : Nat) (f : Svc → Svc) : (s.updSvc n f).fns = s.fns := rfl
@[simp] theorem State.updSvc_keys (s : State) (n : Nat) (f : Svc → Svc) : (s.updSvc n f).keys = s.keys := rfl
@[simp] theorem State.updSvc_tlb (s : State) (n : Nat) (f : Svc → Svc) : (s.updSvc n f).tlb = s.tlb := rfl
@[simp] theorem State.updSvc_walks (s : State) (n : Nat) (f : Svc → Svc) : (s.updSvc n f).walks = s.walks := rfl
@[simp] theorem State.updSvc_walkFaults (s : State) (n : Nat) (f : Svc → Svc) : (s.updSvc n f).walkFaults = s.walkFaults := rfl
@[simp] theorem State.updSvc_gops (s : State) (n : Nat) (f : Svc → Svc) : (s.updSvc n f).gops = s.gops := rfl
@[simp] theorem State.updSvc_hist (s : State) (n : Nat) (f : Svc → Svc) : (s.updSvc n f).hist = s.hist := rfl
@[simp] theorem State.updSvc_sops (s : State) (n : Nat) (f : Svc → Svc) : (s.updSvc n f).sops = s.sops := rfl
@[simp] theorem State.updSvc_syncRegs (s : State) (n : Nat) (f : Svc → Svc) : (s.updSvc n f).syncRegs = s.syncRegs := rfl
@[simp] theorem State.updSvc_parked (s : State) (n : Nat) (f : Svc → Svc) : (s.updSvc n f).parked = s.parked := rfl
@[simp] theorem State.updSvc_answers (s : State) (n : Nat) (f : Svc → Svc) : (s.updSvc n f).answers = s.answers := rfl
@[simp] theorem State.updSvc_rels (s : State) (n : Nat) (f : Svc → Svc) : (s.updSvc n f).rels = s.rels := rfl
@[simp] theorem State.updSvc_posts (s : State) (n : Nat) (f : Svc → Svc) : (s.updSvc n f).posts = s.posts := rfl
@[simp] theorem State.updSvc_doms (s : State) (n : Nat) (f : Svc → Svc) : (s.updSvc n f).doms = s.doms := rfl
@[simp] theorem State.updSvc_objs (s : State) (n : Nat) (f : Svc → Svc) : (s.updSvc n f).objs = s.objs := rfl
@[simp] theorem State.updSvc_launches (s : State) (n : Nat) (f : Svc → Svc) : (s.updSvc n f).launches = s.launches := rfl
@[simp] theorem State.updSvc_tickets (s : State) (n : Nat) (f : Svc → Svc) : (s.updSvc n f).tickets = s.tickets := rfl
@[simp] theorem State.updSvc_groups (s : State) (n : Nat) (f : Svc → Svc) : (s.updSvc n f).groups = s.groups := rfl
@[simp] theorem State.updSvc_pipes (s : State) (n : Nat) (f : Svc → Svc) : (s.updSvc n f).pipes = s.pipes := rfl
@[simp] theorem State.updSvc_lqs (s : State) (n : Nat) (f : Svc → Svc) : (s.updSvc n f).lqs = s.lqs := rfl
@[simp] theorem State.updSvc_lastLq (s : State) (n : Nat) (f : Svc → Svc) : (s.updSvc n f).lastLq = s.lastLq := rfl
@[simp] theorem State.updSvc_audits (s : State) (n : Nat) (f : Svc → Svc) : (s.updSvc n f).audits = s.audits := rfl
@[simp] theorem State.updSvc_dev (s : State) (n : Nat) (f : Svc → Svc) : (s.updSvc n f).dev = s.dev := rfl
@[simp] theorem State.updSvc_turns (s : State) (n : Nat) (f : Svc → Svc) : (s.updSvc n f).turns = s.turns := rfl
@[simp] theorem State.updSvc_uid (s : State) (n : Nat) (f : Svc → Svc) : (s.updSvc n f).uid = s.uid := rfl
@[simp] theorem State.updSvc_fresh (s : State) (n : Nat) (f : Svc → Svc) : (s.updSvc n f).fresh = s.fresh := rfl

/-! ### State.updAudit -/

@[simp] theorem State.updAudit_cur (s : State) (n : Nat) (f : Audit → Audit) : (s.updAudit n f).cur = s.cur := rfl
@[simp] theorem State.updAudit_others (s : State) (n : Nat) (f : Audit → Audit) : (s.updAudit n f).others = s.others := rfl
@[simp] theorem State.updAudit_tiles (s : State) (n : Nat) (f : Audit → Audit) : (s.updAudit n f).tiles = s.tiles := rfl
@[simp] theorem State.updAudit_htime (s : State) (n : Nat) (f : Audit → Audit) : (s.updAudit n f).htime = s.htime := rfl
@[simp] theorem State.updAudit_mem (s : State) (n : Nat) (f : Audit → Audit) : (s.updAudit n f).mem = s.mem := rfl
@[simp] theorem State.updAudit_spad (s : State) (n : Nat) (f : Audit → Audit) : (s.updAudit n f).spad = s.spad := rfl
@[simp] theorem State.updAudit_poison (s : State) (n : Nat) (f : Audit → Audit) : (s.updAudit n f).poison = s.poison := rfl
@[simp] theorem State.updAudit_pcover (s : State) (n : Nat) (f : Audit → Audit) : (s.updAudit n f).pcover = s.pcover := rfl
@[simp] theorem State.updAudit_skey (s : State) (n : Nat) (f : Audit → Audit) : (s.updAudit n f).skey = s.skey := rfl
@[simp] theorem State.updAudit_fns (s : State) (n : Nat) (f : Audit → Audit) : (s.updAudit n f).fns = s.fns := rfl
@[simp] theorem State.updAudit_keys (s : State) (n : Nat) (f : Audit → Audit) : (s.updAudit n f).keys = s.keys := rfl
@[simp] theorem State.updAudit_tlb (s : State) (n : Nat) (f : Audit → Audit) : (s.updAudit n f).tlb = s.tlb := rfl
@[simp] theorem State.updAudit_walks (s : State) (n : Nat) (f : Audit → Audit) : (s.updAudit n f).walks = s.walks := rfl
@[simp] theorem State.updAudit_walkFaults (s : State) (n : Nat) (f : Audit → Audit) : (s.updAudit n f).walkFaults = s.walkFaults := rfl
@[simp] theorem State.updAudit_gops (s : State) (n : Nat) (f : Audit → Audit) : (s.updAudit n f).gops = s.gops := rfl
@[simp] theorem State.updAudit_hist (s : State) (n : Nat) (f : Audit → Audit) : (s.updAudit n f).hist = s.hist := rfl
@[simp] theorem State.updAudit_sops (s : State) (n : Nat) (f : Audit → Audit) : (s.updAudit n f).sops = s.sops := rfl
@[simp] theorem State.updAudit_syncRegs (s : State) (n : Nat) (f : Audit → Audit) : (s.updAudit n f).syncRegs = s.syncRegs := rfl
@[simp] theorem State.updAudit_parked (s : State) (n : Nat) (f : Audit → Audit) : (s.updAudit n f).parked = s.parked := rfl
@[simp] theorem State.updAudit_answers (s : State) (n : Nat) (f : Audit → Audit) : (s.updAudit n f).answers = s.answers := rfl
@[simp] theorem State.updAudit_rels (s : State) (n : Nat) (f : Audit → Audit) : (s.updAudit n f).rels = s.rels := rfl
@[simp] theorem State.updAudit_posts (s : State) (n : Nat) (f : Audit → Audit) : (s.updAudit n f).posts = s.posts := rfl
@[simp] theorem State.updAudit_doms (s : State) (n : Nat) (f : Audit → Audit) : (s.updAudit n f).doms = s.doms := rfl
@[simp] theorem State.updAudit_objs (s : State) (n : Nat) (f : Audit → Audit) : (s.updAudit n f).objs = s.objs := rfl
@[simp] theorem State.updAudit_launches (s : State) (n : Nat) (f : Audit → Audit) : (s.updAudit n f).launches = s.launches := rfl
@[simp] theorem State.updAudit_tickets (s : State) (n : Nat) (f : Audit → Audit) : (s.updAudit n f).tickets = s.tickets := rfl
@[simp] theorem State.updAudit_groups (s : State) (n : Nat) (f : Audit → Audit) : (s.updAudit n f).groups = s.groups := rfl
@[simp] theorem State.updAudit_pipes (s : State) (n : Nat) (f : Audit → Audit) : (s.updAudit n f).pipes = s.pipes := rfl
@[simp] theorem State.updAudit_lqs (s : State) (n : Nat) (f : Audit → Audit) : (s.updAudit n f).lqs = s.lqs := rfl
@[simp] theorem State.updAudit_lastLq (s : State) (n : Nat) (f : Audit → Audit) : (s.updAudit n f).lastLq = s.lastLq := rfl
@[simp] theorem State.updAudit_dev (s : State) (n : Nat) (f : Audit → Audit) : (s.updAudit n f).dev = s.dev := rfl
@[simp] theorem State.updAudit_turns (s : State) (n : Nat) (f : Audit → Audit) : (s.updAudit n f).turns = s.turns := rfl
@[simp] theorem State.updAudit_uid (s : State) (n : Nat) (f : Audit → Audit) : (s.updAudit n f).uid = s.uid := rfl
@[simp] theorem State.updAudit_fresh (s : State) (n : Nat) (f : Audit → Audit) : (s.updAudit n f).fresh = s.fresh := rfl

@[simp] theorem State.updCur_cur (s : State) (f : Ctx → Ctx) : (s.updCur f).cur = f s.cur := rfl
@[simp] theorem State.tick_htime (s : State) : s.tick.htime = s.htime + 1 := rfl

end Sys2Proof.Machine
end

