-- ==== Sys2Proof/Laws/Issue.lean ====
section
/-!
SUPPORT. What issuing a bundle of one operation does, said once: where nothing holds it and its operation answers, the
bundle retires; and what the retirement leaves alone.
-/
namespace Sys2Proof.Machine

theorem waitsFor_false {c : Ctx} (h : ∀ e ∈ c.fl, e.overdue c = false) (p : Write → Bool) : waitsFor c p = false := by
  unfold waitsFor
  rw [List.any_eq_false]
  intro e he
  simp [h e he]

theorem readyB_iff (i : Instr) (s : State) : readyB i s = true ↔ Ready i s := by
  unfold readyB
  constructor
  · intro h
    simp only [Bool.and_eq_true, Bool.not_eq_true', decide_eq_true_eq, List.all_eq_true] at h
    obtain ⟨⟨⟨⟨⟨⟨⟨⟨⟨a, b⟩, c⟩, d⟩, e⟩, f⟩, g⟩, k⟩, m⟩, l⟩ := h
    exact ⟨⟨a, b, f, fun x hx => by simpa using g x hx, k, by simpa using m, fun n hn => by simpa using l n hn⟩, c, d, e⟩
  · intro h
    simp only [Bool.and_eq_true, Bool.not_eq_true', decide_eq_true_eq, List.all_eq_true]
    exact ⟨⟨⟨⟨⟨⟨⟨⟨⟨h.declares, h.executes⟩, h.once⟩, h.noSwitch⟩, h.first⟩, h.room⟩, fun x hx => by simpa using h.ontime x hx⟩,
      h.awake⟩, by simp [h.supplied]⟩, fun n hn => by simpa using h.lats n hn⟩

/-- Every declared latency of a ready bundle's context is at least 1. -/
theorem declLat_pos {i : Instr} {s : State} (h : Ready i s) (cls : Nat) : 1 ≤ declLat s.cur cls := by
  unfold declLat
  rw [List.getD_eq_getElem?_getD]
  cases k : s.cur.lat.toList[cls]? with
  | none => simp
  | some n => exact h.lats n (List.mem_of_getElem? k)

theorem resultLat_pos {i : Instr} {s : State} (h : Ready i s) (cls : Nat) (xs : List Nat) : 1 ≤ resultLat s.cur cls xs := by
  have := declLat_pos h cls
  unfold resultLat
  omega

/-- Nothing in flight that is overdue holds a result back. -/
theorem resultWaits_false {c t : Ctx} (h : ∀ e ∈ c.fl, e.overdue c = false) : resultWaits c t = false := by
  unfold resultWaits
  rw [List.any_eq_false]
  intro e _
  simp only [Bool.not_eq_true, List.any_eq_false]
  intro x hx
  simp [h x hx]

theorem guardWaits_false {i : Instr} {run : State → Op State} {s : State} (h : Ready i s) :
    guardWaits s.cur [⟨i, run⟩] = false := by
  unfold guardWaits
  simp [waitsFor_false h.ontime, h.once]

/-- One operation commits as it stands. -/
theorem commitOps_one (c : Ctx) (o : OpIn) (s : State) : commitOps c [o] s = stageOps c [o] s := by
  unfold commitOps
  cases h : isEnd o.ins <;> simp [h]

/-- Alone in its bundle an operation is judged as it runs. -/
theorem probe_one (c : Ctx) (o : OpIn) (s : State) (h : isTmap o.ins = true → slotOf o.ins ≠ some 5 := by decide) :
    probe c [o] s o = runOp c o s := by
  unfold probe
  cases hi : isTmap o.ins
  · simp
  · simp [h hi]

theorem isTmap_slot (i : Instr) (h : isTmap i = true) : slotOf i ≠ some 5 := by
  cases i <;> simp_all [isTmap, slotOf]

/-- A bundle whose one operation answers, with nothing overdue, retires. -/
theorem settle_one {i : Instr} {run : State → Op State} {s u : State} (n : Nat) (h : ∀ e ∈ s.cur.fl, e.overdue s.cur = false)
    (hr : runOp s.cur ⟨i, run⟩ s = .ok u) :
    settle n s [⟨i, run⟩] [] [(⟨i, run⟩, runOp s.cur ⟨i, run⟩ s)] = .next (retire s u [i] []) := by
  unfold settle
  simp only [hr, firstOf, isHold, isStopped, isSend, Bool.false_eq_true, if_false, commit, commitOps_one, stageOps,
    resultWaits_false (t := u.cur) h, List.map_cons, List.map_nil]

/-- A bundle of one operation that nothing holds is settled by its operation's outcome. -/
theorem issueOne_settle {i : Instr} {run : State → Op State} {s : State} (h : Ready i s) :
    issueOne i run s = settle 1 (opened s) [⟨i, run⟩] [] [(⟨i, run⟩, runOp (opened s).cur ⟨i, run⟩ (opened s))] := by
  have h16 : ¬ (16 < s.cur.fl.length) := by have := h.room; omega
  unfold issueOne issue
  simp only [h.awake, List.any_cons, List.any_nil, Bool.or_false, h.declares, Bool.not_true, Bool.false_eq_true, if_false,
    guardWaits_false h, h.once, Bool.false_and, h16, List.filter_cons, h.executes, if_true, List.filter_nil,
    List.map_cons, List.map_nil, probe_one _ ⟨i, run⟩ _ (isTmap_slot i)]
  rfl

/-- One operation alone in its bundle, where nothing holds the bundle and the operation answers: the bundle retires. -/
theorem issueOne_ok {i : Instr} {run : State → Op State} {s u : State} (h : Ready i s) (hr : run (staged i s) = .ok u) :
    issueOne i run s = .next (retired i s u) :=
  (issueOne_settle h).trans (settle_one (s := opened s) 1 (fun e he => h.ontime e he) hr)

/-! ### Tiles -/

theorem tile_tid (s : State) (n : Nat) : (s.tile n).tid = n := by
  unfold State.tile
  split
  · rename_i x h
    simpa using List.find?_some h
  · rfl

theorem find_setTileIn (x : Tile) (l : List Tile) (n : Nat) :
    (setTileIn x l).find? (fun y => y.tid = n) = if x.tid = n then some x else l.find? fun y => y.tid = n := by
  induction l with
  | nil => by_cases h : x.tid = n <;> simp [setTileIn, h]
  | cons y r ih =>
    unfold setTileIn
    by_cases h : y.tid = x.tid
    · rw [if_pos h]
      by_cases k : x.tid = n
      · simp [k]
      · simp [k, h]
    · rw [if_neg h]
      by_cases k : y.tid = n
      · have : ¬ x.tid = n := fun e => h (k.trans e.symm)
        simp [k, this]
      · simp [k, ih]

/-- A tile that has been set is what was set; every other tile is as it was. -/
theorem tile_setTile (s : State) (x : Tile) (n : Nat) : (s.setTile x).tile n = if x.tid = n then x else s.tile n := by
  show (match (setTileIn x s.tiles).find? (fun y => y.tid = n) with
    | some y => y
    | none => Tile.reset n) = _
  rw [find_setTileIn]
  by_cases h : x.tid = n
  · simp [h]
  · rw [if_neg h, if_neg h]; rfl

theorem noClock_setTile (s : State) (x : Tile) (h : noClock x = noClock (s.tile x.tid)) (n : Nat) :
    noClock ((s.setTile x).tile n) = noClock (s.tile n) := by
  rw [tile_setTile]
  by_cases k : x.tid = n
  · rw [if_pos k, h, k]
  · rw [if_neg k]

/-! ### What time and the end of a bundle touch -/

@[simp] theorem noCounts_bumpPhase (c : Ctx) (w n : Nat) : noCounts (bumpPhase c w n) = noCounts c := rfl

@[simp] theorem noCounts_coreCycle (cid n b : Nat) (c : Ctx) : noCounts (coreCycle cid n b c) = noCounts c := by
  unfold coreCycle Ctx.passes
  split
  · split
    · rfl
    · split <;> rfl
  · rfl

@[simp] theorem noCounts_map_coreCycle (cid n b : Nat) (l : List Ctx) :
    (l.map (coreCycle cid n b)).map noCounts = l.map noCounts := by
  rw [List.map_map]
  exact List.map_congr_left fun c _ => noCounts_coreCycle cid n b c

theorem spendCycles_cur (s : State) (cid n b : Nat) : noCounts (spendCycles s cid n b).cur = noCounts s.cur :=
  noCounts_coreCycle cid n b s.cur

/-- The passing of a core's cycles leaves everything but clocks and counters alone. -/
theorem spendCycles_outside (s : State) (cid n b : Nat) : OutsideKept s (spendCycles s cid n b) where
  mem := rfl
  spad := rfl
  poison := rfl
  skey := rfl
  others := noCounts_map_coreCycle cid n b s.others
  tiles := by
    intro m
    refine noClock_setTile s _ ?_ m
    simp only [noClock, tile_tid]
  fns := rfl
  keys := rfl
  tlb := rfl
  walks := rfl
  gops := rfl
  hist := rfl
  sops := rfl
  syncRegs := rfl
  answers := rfl
  rels := rfl
  posts := rfl
  doms := rfl
  objs := rfl
  launches := rfl
  tickets := rfl
  groups := rfl
  pipes := rfl
  lqs := rfl
  lastLq := rfl
  parked := rfl
  turns := rfl
  audits := rfl
  dev := rfl

theorem sealBundle_outside (s : State) (cid : Nat) : OutsideKept s (sealBundle s cid) where
  mem := rfl
  spad := rfl
  poison := rfl
  skey := rfl
  others := rfl
  tiles := by
    intro m
    refine noClock_setTile s _ ?_ m
    simp only [noClock, tile_tid, Svc.seal]
  fns := rfl
  keys := rfl
  tlb := rfl
  walks := rfl
  gops := rfl
  hist := rfl
  sops := rfl
  syncRegs := rfl
  answers := rfl
  rels := rfl
  posts := rfl
  doms := rfl
  objs := rfl
  launches := rfl
  tickets := rfl
  groups := rfl
  pipes := rfl
  lqs := rfl
  lastLq := rfl
  parked := rfl
  turns := rfl
  audits := rfl
  dev := rfl

theorem OutsideKept.trans {s t u : State} (h : OutsideKept s t) (k : OutsideKept t u) : OutsideKept s u :=
  ⟨k.mem.trans h.mem, k.spad.trans h.spad, k.poison.trans h.poison, k.skey.trans h.skey, k.others.trans h.others,
    fun n => (k.tiles n).trans (h.tiles n), k.fns.trans h.fns, k.keys.trans h.keys, k.tlb.trans h.tlb, k.walks.trans h.walks,
    k.gops.trans h.gops, k.hist.trans h.hist, k.sops.trans h.sops, k.syncRegs.trans h.syncRegs, k.answers.trans h.answers,
    k.rels.trans h.rels, k.posts.trans h.posts, k.doms.trans h.doms, k.objs.trans h.objs, k.launches.trans h.launches,
    k.tickets.trans h.tickets, k.groups.trans h.groups, k.pipes.trans h.pipes, k.lqs.trans h.lqs, k.lastLq.trans h.lastLq,
    k.parked.trans h.parked, k.turns.trans h.turns, k.audits.trans h.audits, k.dev.trans h.dev⟩

/-- A state that differs in the context in focus, in time, and in the model's own counters alone. -/
theorem outside_of_cur (s : State) (c : Ctx) (h n m : Nat) (w : List WalkFault) :
    OutsideKept s { s with cur := c, htime := h, uid := n, fresh := m, walkFaults := w } := by
  constructor <;> first | rfl | (intro; rfl)

/-- What closes every bundle: its core's cycles pass, its tile's service windows count it. -/
def closing (u : State) (c : Ctx) (cid n b : Nat) : State :=
  dropWalkFaults (sealBundle (spendCycles { u with cur := c } cid n b) cid) cid

theorem closing_outside (u : State) (c : Ctx) (cid n b : Nat) : OutsideKept u (closing u c cid n b) := by
  unfold closing
  refine OutsideKept.trans (outside_of_cur u c u.htime u.uid u.fresh u.walkFaults) ?_
  generalize ({ u with cur := c } : State) = v
  refine OutsideKept.trans (spendCycles_outside v cid n b) ?_
  generalize spendCycles v cid n b = v
  refine OutsideKept.trans (sealBundle_outside v cid) ?_
  generalize sealBundle v cid = v
  exact outside_of_cur v v.cur v.htime v.uid v.fresh _

theorem closing_cur (u : State) (c : Ctx) (cid n b : Nat) : noCounts (closing u c cid n b).cur = noCounts c :=
  spendCycles_cur { u with cur := c } cid n b

theorem tick_outside (s : State) : OutsideKept s s.tick := outside_of_cur s s.cur (s.htime + 1) s.uid s.fresh s.walkFaults

/-- Counting cycles changes the counters alone. -/
theorem bumpPhase_counts (c : Ctx) (w n : Nat) : ∃ l, bumpPhase c w n = { c with counts := l } := ⟨_, rfl⟩

theorem closeCounts_counts (a : After) (w g : Nat) (c : Ctx) : ∃ l, closeCounts a w g c = { c with counts := l } := by
  unfold closeCounts
  obtain ⟨l1, h1⟩ := bumpPhase_counts c 0 1
  obtain ⟨l2, h2⟩ := bumpPhase_counts { c with counts := l1 } 1 w
  obtain ⟨l3, h3⟩ := bumpPhase_counts { c with counts := l2 } 3 w
  rw [h1, h2, h3]
  exact ⟨_, rfl⟩

@[simp] theorem noCounts_closeCounts (a : After) (w g : Nat) (c : Ctx) : noCounts (closeCounts a w g c) = noCounts c := by
  obtain ⟨l, h⟩ := closeCounts_counts a w g c
  rw [h]
  rfl

/-- Only CREAD puts anything into the log of an audit as its bundle ends (19 R468). -/
theorem noteCreads_single (s t : State) (i : Instr) (h : ∀ g f, i ≠ .cread g f) : noteCreads s t [i] = t := by
  simp only [noteCreads, List.foldl]

theorem retired_eq (i : Instr) (s u : State) (hi : noteCreads (opened s) u [i] = u) (h : u.cur.iss.after = .none) :
    ∃ c n, retired i s u = (closing u c s.cur.cid n 1).tick
      ∧ noCounts c = noCounts (retireBundle [i] [] (Ctx.stallCycles (bankCost u.cur.iss.lines) u.cur)) :=
  ⟨closeCounts .none (bankCost u.cur.iss.lines) (issueGap u.cur.iss ([i].any isRett))
      (retireBundle [i] [] (Ctx.stallCycles (bankCost u.cur.iss.lines) u.cur)),
    issueGap u.cur.iss ([i].any isRett) + bankCost u.cur.iss.lines,
    by simp only [retired, retire, h, hi, afterBundle, closing]; rfl, noCounts_closeCounts _ _ _ _⟩

/-- The end of a bundle after which nothing follows leaves everything outside its context alone. -/
theorem retired_outside (i : Instr) (s u : State) (hi : noteCreads (opened s) u [i] = u) (h : u.cur.iss.after = .none) : OutsideKept u (retired i s u) := by
  obtain ⟨c, n, e, _⟩ := retired_eq i s u hi h
  rw [e]
  exact OutsideKept.trans (closing_outside u c s.cur.cid n 1) (tick_outside _)

/-- The context in focus after such a bundle, but for its counters. -/
theorem retired_cur (i : Instr) (s u : State) (hi : noteCreads (opened s) u [i] = u) (h : u.cur.iss.after = .none) :
    noCounts (retired i s u).cur = noCounts (retireBundle [i] [] (Ctx.stallCycles (bankCost u.cur.iss.lines) u.cur)) := by
  obtain ⟨c, n, e, k⟩ := retired_eq i s u hi h
  rw [e, ← k]
  exact closing_cur u c s.cur.cid n 1

/-! ### Pops -/

/-- Two contexts with the same queues and control registers. -/
def SameQueues (c d : Ctx) : Prop := c.ldq = d.ldq ∧ c.win = d.win ∧ c.crs = d.crs

theorem popLdq_same {c d : Ctx} (h : SameQueues c d) : SameQueues (popLdq c) (popLdq d) := by
  obtain ⟨h1, h2, h3⟩ := h
  unfold popLdq
  rw [← h1]
  cases c.ldq with
  | nil => exact ⟨by assumption, h2, h3⟩
  | cons e r => exact ⟨rfl, h2, by simp only [h3]⟩

theorem popStream_same {c d : Ctx} (q : Nat) (h : SameQueues c d) : SameQueues (popStream c q) (popStream d q) := by
  obtain ⟨h1, h2, h3⟩ := h
  unfold popStream
  rw [← h2]
  cases c.win.q.toList[q]? with
  | none => exact ⟨h1, h2, h3⟩
  | some b => exact ⟨h1, by simp only [h2], by simp only [h3]⟩

theorem foldl_popStream_same (l : List Nat) {c d : Ctx} (h : SameQueues c d) :
    SameQueues (l.foldl popStream c) (l.foldl popStream d) := by
  induction l generalizing c d with
  | nil => exact h
  | cons q r ih => exact ih (popStream_same q h)

theorem popped_same (i : Instr) {c d : Ctx} (h : SameQueues c d) : SameQueues (popped i c) (popped i d) := by
  unfold popped
  refine foldl_popStream_same _ ?_
  split
  · exact popLdq_same h
  · exact h

/-- Popping changes the queues and the poison bit alone. -/
def OnlyQueues (c d : Ctx) : Prop := ∃ l w p, d = { c with ldq := l, win := w, crs := { c.crs with poisonC := p } }

theorem onlyQueues_refl (c : Ctx) : OnlyQueues c c := ⟨c.ldq, c.win, c.crs.poisonC, rfl⟩
theorem onlyQueues_trans {a b c : Ctx} (h : OnlyQueues a b) (k : OnlyQueues b c) : OnlyQueues a c := by
  obtain ⟨l, w, p, rfl⟩ := h
  obtain ⟨l2, w2, p2, rfl⟩ := k
  exact ⟨l2, w2, p2, rfl⟩

theorem popLdq_only (c : Ctx) : OnlyQueues c (popLdq c) := by
  unfold popLdq
  split
  · exact onlyQueues_refl c
  · exact ⟨_, c.win, _, rfl⟩

theorem popStream_only (c : Ctx) (q : Nat) : OnlyQueues c (popStream c q) := by
  unfold popStream
  split
  · exact ⟨c.ldq, _, _, rfl⟩
  · exact onlyQueues_refl c

theorem foldl_popStream_only (l : List Nat) (c : Ctx) : OnlyQueues c (l.foldl popStream c) := by
  induction l generalizing c with
  | nil => exact onlyQueues_refl c
  | cons q r ih => exact onlyQueues_trans (popStream_only c q) (ih _)

theorem popped_only (i : Instr) (c : Ctx) : OnlyQueues c (popped i c) := by
  unfold popped
  split
  · exact onlyQueues_trans (popLdq_only c) (foldl_popStream_only _ _)
  · exact foldl_popStream_only _ _

/-- The control registers after the writes of the bundle's retirement (R162); REPI reads 0 outside a repeated bundle (R50). -/
def crsAfter (i : Instr) (u : Ctx) : Crs :=
  { u.iss.atRetire.foldl (fun r x => r.write x.1 x.2) (popped i u).crs with repi := 0 }

/-- The retirement of a bundle that neither repeats nor switches: the pops, the cycles to the next issue, the next bundle. -/
theorem retireBundle_once (i : Instr) (c : Ctx) (hrep : ctlRep c.ctl = false) (hsw : ctlSwp c.ctl = false) (hr : isRett i = false) :
    retireBundle [i] [] c = { (popped i c).advance (issueGap c.iss false) with
      ldq := (popped i c).ldq.drop (c.iss.dropped (popsLdq i))
      crs := crsAfter i c
      resume := c.pt + 1, seq := c.seq + 1, wait := none, reads := [], atSwp := false, resumeAt := none, pc := c.iss.target.getD (c.pc + 64), iss := Iss.none } := by
  obtain ⟨l, w, p, e⟩ := popped_only i c
  have e2 : ([i].flatMap popsStream).eraseDups.foldl popStream (if [i].any popsLdq then popLdq c else c) = popped i c := by
    simp [popped]
  unfold retireBundle crsAfter
  simp only [e2]
  rw [e]
  simp [hr, hrep, hsw, Ctx.advance, skipTokens, dropEntries]

/-! ### A bundle whose retirement nothing follows -/

/-- Scratch after which nothing follows the bundle, and which needs no further cycle at a bank. -/
structure QuietIss (x : Iss) : Prop where
  after : x.after = .none
  lines : x.lines = []

/-- A context after the retirement of such a bundle. -/
structure Closed (i : Instr) (u c : Ctx) : Prop where
  pc : c.pc = u.iss.target.getD (u.pc + 64)
  pt : c.pt = u.pt + issueGap u.iss false
  fl : c.fl = (u.advance (issueGap u.iss false)).fl
  ldq : c.ldq = (popped i u).ldq.drop (u.iss.dropped (popsLdq i))
  win : c.win = (popped i u).win
  crs : c.crs = crsAfter i u
  cid : c.cid = u.cid
  status : c.status = u.status
  ctl : c.ctl = u.ctl
  regs : c.regs = u.regs
  cb : c.cb = u.cb
  acc : c.acc = u.acc
  tok : c.tok = u.tok
  tokBind : c.tokBind = u.tokBind
  tokWs : c.tokWs = u.tokWs
  moor : c.moor = u.moor
  view : c.view = u.view
  maps : c.maps = u.maps
  lat : c.lat = u.lat
  bind : c.bind = u.bind
  pends : c.pends = u.pends
  reinj : c.reinj = u.reinj
  phase : c.phase = u.phase
  preempt : c.preempt = u.preempt
  held : c.held = u.held
  task : c.task = u.task

theorem closed_of {i : Instr} {u c : Ctx} (h : noCounts c = noCounts { (popped i u).advance (issueGap u.iss false) with
      ldq := (popped i u).ldq.drop (u.iss.dropped (popsLdq i))
      crs := crsAfter i u
      resume := u.pt + 1, seq := u.seq + 1, wait := none, reads := [], atSwp := false, resumeAt := none, pc := u.iss.target.getD (u.pc + 64),
      iss := Iss.none }) : Closed i u c := by
  have h1 : c.ldq = (popped i u).ldq.drop (u.iss.dropped (popsLdq i)) := by have k := congrArg Ctx.ldq h; exact k
  have h2 : c.win = (popped i u).win := by have k := congrArg Ctx.win h; exact k
  have h3 : c.crs = crsAfter i u := by have k := congrArg Ctx.crs h; exact k
  obtain ⟨l, w, p, eo⟩ := popped_only i u
  rw [eo] at h
  exact {
    pc := by have k := congrArg Ctx.pc h; exact k
    pt := by have k := congrArg Ctx.pt h; exact k
    fl := by have k := congrArg Ctx.fl h; exact k
    ldq := h1
    win := h2
    crs := h3
    cid := by have k := congrArg Ctx.cid h; exact k
    status := by have k := congrArg Ctx.status h; exact k
    ctl := by have k := congrArg Ctx.ctl h; exact k
    regs := by have k := congrArg Ctx.regs h; exact k
    cb := by have k := congrArg Ctx.cb h; exact k
    acc := by have k := congrArg Ctx.acc h; exact k
    tok := by have k := congrArg Ctx.tok h; exact k
    tokBind := by have k := congrArg Ctx.tokBind h; exact k
    tokWs := by have k := congrArg Ctx.tokWs h; exact k
    moor := by have k := congrArg Ctx.moor h; exact k
    view := by have k := congrArg Ctx.view h; exact k
    maps := by have k := congrArg Ctx.maps h; exact k
    lat := by have k := congrArg Ctx.lat h; exact k
    bind := by have k := congrArg Ctx.bind h; exact k
    pends := by have k := congrArg Ctx.pends h; exact k
    reinj := by have k := congrArg Ctx.reinj h; exact k
    phase := by have k := congrArg Ctx.phase h; exact k
    preempt := by have k := congrArg Ctx.preempt h; exact k
    held := by have k := congrArg Ctx.held h; exact k
    task := by have k := congrArg Ctx.task h; exact k
  }

/-- The context in focus after a bundle that nothing follows. -/
theorem retired_closed {i : Instr} {s u : State} (hi : noteCreads (opened s) u [i] = u) (hp : QuietIss u.cur.iss) (hrep : ctlRep u.cur.ctl = false)
    (hsw : ctlSwp u.cur.ctl = false) (hn : isRett i = false) : Closed i u.cur (retired i s u).cur := by
  have e1 := retired_cur i s u hi hp.after
  have hb : bankCost u.cur.iss.lines = 0 := by rw [hp.lines]; rfl
  rw [hb, Ctx.stallCycles, retireBundle_once i u.cur hrep hsw hn] at e1
  exact closed_of e1

/-- Scratch that asks nothing of the bundle's retirement but where it goes on. -/
structure PlainIss (x : Iss) : Prop where
  quiet : QuietIss x
  drop : x.drop = 0
  atRetire : x.atRetire = []

theorem crsAfter_plain {i : Instr} {u c : Ctx} (h : u.iss.atRetire = []) (h0 : c.crs.repi = 0) (hq : SameQueues u c) :
    crsAfter i u = (popped i c).crs := by
  have k := (popped_same i hq).2.2
  obtain ⟨l, w, p, e⟩ := popped_only i c
  unfold crsAfter
  rw [h, List.foldl_nil, k, e]
  cases hc : c.crs
  simp only [hc] at h0
  rw [h0]

/-- What an emitted result leaves in the context. -/
theorem emit_cur {i : Instr} {s : State} {cls : Nat} {res : List Write} {latch : Latch} {fl : Flags} {below : Option Nat}
    (hs : (slotOf i).isSome = true) :
    ∃ x e, (emit (staged i s) cls res latch fl below).cur = { s.cur with sleepTill := none, iss := x, fl := s.cur.fl ++ [e] }
      ∧ PlainIss x ∧ x.target = none ∧ IsResult e i s cls res latch fl below := by
  obtain ⟨k, hk⟩ := Option.isSome_iff_exists.1 hs
  refine ⟨(staged i s).cur.iss, _, rfl, ⟨⟨rfl, rfl⟩, rfl, rfl⟩, rfl, ⟨rfl, rfl, rfl, ?_, rfl, rfl, rfl, rfl, rfl⟩⟩
  show some ((slotOf i).getD 0) = slotOf i
  rw [hk]; rfl

/-- What a bundle that leaves the context's registers alone has done when it has retired. -/
theorem retired_kept {i : Instr} {run : State → Op State} {s u : State} {x : Iss} {fl : List Flight} (h : Ready i s)
    (hx : exec i s = issueOne i run s) (hr : run (staged i s) = .ok u)
    (hi : noteCreads (opened s) u [i] = u) (hc : u.cur = { s.cur with sleepTill := none, iss := x, fl := fl }) (hp : PlainIss x) (ho : OutsideKept s u)
    (hn : isRett i = false) :
    exec i s = .next (retired i s u) ∧ (retired i s u).cur.fl = ({ s.cur with fl := fl }.advance (issueGap x false)).fl
      ∧ (retired i s u).cur.pc = x.target.getD (s.cur.pc + 64) ∧ (retired i s u).cur.pt = s.cur.pt + issueGap x false
      ∧ CtxKept s (retired i s u) ∧ QueuesPopped i s (retired i s u) ∧ OutsideKept s (retired i s u) := by
  have hcl : Closed i u.cur (retired i s u).cur := retired_closed hi (by rw [hc]; exact hp.quiet) (by rw [hc]; exact h.once)
    (by rw [hc]; exact h.noSwitch) hn
  have hsq : SameQueues u.cur s.cur := by rw [hc]; exact ⟨rfl, rfl, rfl⟩
  have hq := popped_same i hsq
  refine ⟨hx.trans (issueOne_ok h hr), ?_, ?_, ?_, ?_, ?_,
    OutsideKept.trans ho (retired_outside i s u hi (by rw [hc]; exact hp.quiet.after))⟩
  · rw [hcl.fl, hc]; rfl
  · rw [hcl.pc, hc]
  · rw [hcl.pt, hc]
  · exact {
      cid := by rw [hcl.cid, hc]
      status := by rw [hcl.status, hc]
      regs := by rw [hcl.regs, hc]
      cb := by rw [hcl.cb, hc]
      acc := by rw [hcl.acc, hc]
      tok := by rw [hcl.tok, hc]
      tokBind := by rw [hcl.tokBind, hc]
      tokWs := by rw [hcl.tokWs, hc]
      moor := by rw [hcl.moor, hc]
      view := by rw [hcl.view, hc]
      maps := by rw [hcl.maps, hc]
      bind := by rw [hcl.bind, hc]
      pends := by rw [hcl.pends, hc]
      phase := by rw [hcl.phase, hc]
      preempt := by rw [hcl.preempt, hc]
      task := by rw [hcl.task, hc]
    }
  · refine ⟨?_, hcl.win.trans hq.2.1, ?_⟩
    · rw [hcl.ldq, show u.cur.iss.dropped (popsLdq i) = 0 by rw [hc]; simp [Iss.dropped, hp.drop], List.drop_zero]; exact hq.1
    · rw [hcl.crs]; exact crsAfter_plain (by rw [hc]; exact hp.atRetire) h.first hsq

/-- Where nothing holds the bundle of an operation and the operation answers with one emitted result, the bundle completes with
that result and no other effect. -/
theorem gives_of {i : Instr} {run : State → Op State} {s u : State} {cls : Nat} {res : List Write} {latch : Latch}
    {fl : Flags} {below : Option Nat} (h : Ready i s) (hx : exec i s = issueOne i run s) (hr : run (staged i s) = .ok u)
    (hi : noteCreads (opened s) u [i] = u) (hc : u.cur = (emit (staged i s) cls res latch fl below).cur)
    (ho : OutsideKept s u) (hs : (slotOf i).isSome = true) (hn : isRett i = false) : Gives i s cls res latch fl below := by
  obtain ⟨x, e, h1, h2, h3, h4⟩ :=
    emit_cur (i := i) (s := s) (cls := cls) (res := res) (latch := latch) (fl := fl) (below := below) hs
  have hg : issueGap x false = 1 := by simp [issueGap, h3]
  obtain ⟨a1, a2, a3, a4, a5, a6, a7⟩ := retired_kept h hx hr hi (hc.trans h1) h2 ho hn
  rw [hg] at a2 a4
  rw [h3] at a3
  exact ⟨retired i s u, e, a1, a2, h4, a3, a4, a5, a6, a7⟩

/-- The same with a transfer of control to `pc`. -/
theorem gives_moves_of {i : Instr} {run : State → Op State} {s u : State} {cls gap : Nat} {res : List Write} {latch : Latch}
    {fl : Flags} {below : Option Nat} {pc : Word} {x : Iss} (h : Ready i s) (hx : exec i s = issueOne i run s)
    (hr : run (staged i s) = .ok u) (hi : noteCreads (opened s) u [i] = u) (hc : u.cur = { (emit (staged i s) cls res latch fl below).cur with iss := x })
    (hp : PlainIss x) (hg : issueGap x false = gap) (ht : x.target = some pc)
    (ho : OutsideKept s u) (hs : (slotOf i).isSome = true) (hn : isRett i = false) :
    GivesAndMoves i s pc gap cls res latch fl below := by
  obtain ⟨y, e, h1, _, _, h4⟩ :=
    emit_cur (i := i) (s := s) (cls := cls) (res := res) (latch := latch) (fl := fl) (below := below) hs
  rw [h1] at hc
  obtain ⟨a1, a2, a3, a4, a5, a6, a7⟩ := retired_kept h hx hr hi hc hp ho hn
  rw [hg] at a2 a4
  rw [ht] at a3
  exact ⟨retired i s u, e, a1, a2, h4, a3, a4, a5, a6, a7⟩

/-- A bundle whose operation leaves no result. -/
theorem moves_of {i : Instr} {run : State → Op State} {s u : State} {gap : Nat} {pc : Word} {x : Iss} (h : Ready i s)
    (hx : exec i s = issueOne i run s) (hr : run (staged i s) = .ok u)
    (hi : noteCreads (opened s) u [i] = u) (hc : u.cur = { s.cur with sleepTill := none, iss := x }) (hp : PlainIss x) (hg : issueGap x false = gap)
    (ht : x.target.getD (s.cur.pc + 64) = pc) (ho : OutsideKept s u) (hn : isRett i = false) : MovesTo i s pc gap := by
  obtain ⟨a1, a2, a3, a4, a5, a6, a7⟩ := retired_kept (fl := s.cur.fl) h hx hr hi hc hp ho hn
  rw [hg] at a2 a4
  rw [ht] at a3
  exact ⟨retired i s u, a1, a2, a3, a4, a5, a6, a7⟩

end Sys2Proof.Machine
end

