-- ==== Sys2Proof/Laws/Operands.lean ====
section
/-!
SUPPORT. What an operation of a ready bundle reads, and how it delivers a row: one lemma per operand form.
-/
namespace Sys2Proof.Machine

theorem staged_noWait {i : Instr} {s : State} (h : Ready i s) (p : Write → Bool) : waitsFor (staged i s).cur p = false :=
  waitsFor_false (c := (staged i s).cur) (fun e he => h.ontime e he) p

/-- A state whose context in focus is the one an operation of a ready bundle is performed on. -/
structure Stage (i : Instr) (s v : State) : Prop where
  ready : Ready i s
  cur : v.cur = (staged i s).cur

theorem stage_self {i : Instr} {s : State} (h : Ready i s) : Stage i s (staged i s) := ⟨h, rfl⟩

theorem Stage.noWait {i : Instr} {s v : State} (h : Stage i s v) (p : Write → Bool) : waitsFor v.cur p = false := by
  rw [h.cur]; exact staged_noWait h.ready p
theorem Stage.cap {i : Instr} {s v : State} (h : Stage i s v) : v.cur.iss.cap = none := by rw [h.cur]; rfl
theorem Stage.regs {i : Instr} {s v : State} (h : Stage i s v) : v.cur.regs = s.cur.regs := by rw [h.cur]; rfl
theorem Stage.ctl {i : Instr} {s v : State} (h : Stage i s v) : ctlRep v.cur.ctl = false := by rw [h.cur]; exact h.ready.once

theorem Stage.rdS {i : Instr} {s v : State} (h : Stage i s v) (n : Nat) (r : BitVec 5) :
    Machine.rdS v n r = .ok (s.cur.regs.scalar r) := by
  simp [Machine.rdS, h.cap, h.noWait, h.regs]
theorem Stage.rdE {i : Instr} {s v : State} (h : Stage i s v) (n : Nat) (r : BitVec 5) :
    Machine.rdE v n r = .ok (s.cur.regs.scalar r).val := by
  simp [Machine.rdE, h.cap, h.noWait, h.regs]
theorem Stage.rdP {i : Instr} {s v : State} (h : Stage i s v) (n : Nat) (r : BitVec 3) :
    Machine.rdP v n r = .ok (s.cur.regs.pred r) := by
  simp [Machine.rdP, h.cap, h.noWait, h.regs]
theorem Stage.rdK {i : Instr} {s v : State} (h : Stage i s v) (r : BitVec 3) :
    Machine.rdK v r = .ok (s.cur.regs.mask r) := by
  simp [Machine.rdK, h.cap, h.noWait, h.regs]
theorem Stage.rdKOperand {i : Instr} {s v : State} (h : Stage i s v) (n : Nat) (r : BitVec 3) :
    Machine.rdKOperand v n r = .ok (s.cur.regs.mask r) := by
  simp [Machine.rdKOperand, h.cap, h.noWait, h.regs]
theorem Stage.rdOld {i : Instr} {s v : State} (h : Stage i s v) (d : Nat) :
    Machine.rdOld v d = .ok (s.cur.regs.row d) := by
  simp [Machine.rdOld, h.cap, h.noWait, h.regs]
theorem Stage.rdOldMask {i : Instr} {s v : State} (h : Stage i s v) (f : VF) :
    Machine.rdOldMask v f = .ok (s.cur.regs.mask (f.dst.setWidth 3)) := by
  simp [Machine.rdOldMask, h.cap, h.noWait, h.regs]
theorem Stage.effRow {i : Instr} {s v : State} (h : Stage i s v) (b n : Nat) : Machine.effRow v b n = .ok n := by
  simp [Machine.effRow, h.ctl]
theorem Stage.dstRow {i : Instr} {s v : State} (h : Stage i s v) (b : Nat) (d : BitVec 10) :
    Machine.dstRow v b d = .ok d.toNat := by
  simp [Machine.dstRow, h.cap, h.effRow]

/-- A row goes to its destination under the write mask (R169). -/
theorem Stage.putRow {i : Instr} {s v : State} (h : Stage i s v) (inB : Bool) (f : VF) (cls : Nat) (new : Row)
    (lanes : List (Nat × Lane)) (chk : Bool) (hm : maskFits f s new.tag = true) :
    Machine.putRow v inB f cls new lanes chk
      = .ok (emit v cls (if f.t || maskEmpty f s new.tag then [] else [.row f.dst.toNat (rowOut f s new)]) (.row (rowOut f s new))
          (laneFlags f s new.tag lanes) (laneBelow f s new.tag lanes chk)) := by
  have hb : ∀ p l, belowFloor v.cur p l = belowFloor s.cur p l := by
    intro p l; rw [h.cur]; rfl
  unfold Machine.putRow
  simp only [h.rdK, h.dstRow, h.rdOld, hb, laneFlags, laneBelow, rowOut, maskEmpty, bind, Except.bind]
  by_cases ht : f.t = true
  · simp only [ht, if_true, Bool.true_or]
  · by_cases hk : f.k = 0
    · simp only [ht, hk, if_true, Bool.false_eq_true, if_false, decide_true, Bool.or_true, bne_self_eq_false, Bool.false_and,
        Bool.or_false]
    · have : (s.cur.regs.row f.dst.toNat).tag = new.tag := by
        simp only [maskFits, ht, hk, Bool.false_or, decide_false, decide_eq_true_eq] at hm
        exact hm
      have hb : (f.k != 0) = true := by simpa using hk
      simp only [ht, hk, hb, Bool.false_eq_true, if_false, this, bne_self_eq_false, decide_false, Bool.or_false, Bool.true_and,
        Bool.false_or]

theorem Stage.putWhole {i : Instr} {s v : State} (h : Stage i s v) (inB : Bool) (f : VF) (cls : Nat) (new : Row)
    (fl : Flags) (below : Option Nat) :
    Machine.putWhole v inB f cls new fl below
      = .ok (emit v cls (if f.t then [] else [.row f.dst.toNat new]) (.row new) fl below) := by
  unfold Machine.putWhole
  simp only [h.dstRow, bind, Except.bind]
  by_cases ht : f.t = true <;> simp [ht]

/-- A result emitted on such a state is that of the bundle. -/
theorem Stage.emit_cur {i : Instr} {s v : State} (h : Stage i s v) (cls : Nat) (res : List Write) (latch : Latch) (fl : Flags)
    (below : Option Nat) : (emit v cls res latch fl below).cur = (emit (staged i s) cls res latch fl below).cur := by
  unfold emit
  rw [h.cur]

/-- A bundle whose operation emits one result on its stage, and changes outside its context the model's counters at most,
completes with it. -/
theorem gives_of_stage {i : Instr} {run : State → Op State} {s : State} {cls : Nat} {res : List Write} {latch : Latch}
    {fl : Flags} {below : Option Nat} {m : Nat} (h : Ready i s) (hx : exec i s = issueOne i run s)
    (hr : run (staged i s) = .ok (emit { staged i s with fresh := m } cls res latch fl below))
    (hs : (slotOf i).isSome = true) (hn : isRett i = false) (hi : ∀ g f, i ≠ .cread g f := by nofun) :
    Gives i s cls res latch fl below :=
  gives_of h hx hr (noteCreads_single _ _ i hi) rfl (outside_of_cur s _ s.htime s.uid m s.walkFaults) hs hn

/-- The same, the counters left alone. -/
theorem gives_of_emit {i : Instr} {run : State → Op State} {s : State} {cls : Nat} {res : List Write} {latch : Latch}
    {fl : Flags} {below : Option Nat} (h : Ready i s) (hx : exec i s = issueOne i run s)
    (hr : run (staged i s) = .ok (emit (staged i s) cls res latch fl below))
    (hs : (slotOf i).isSome = true) (hn : isRett i = false) (hi : ∀ g f, i ≠ .cread g f := by nofun) :
    Gives i s cls res latch fl below :=
  gives_of_stage (m := s.fresh) h hx hr hs hn hi

theorem staged_outside (i : Instr) (s : State) : OutsideKept s (staged i s) :=
  outside_of_cur s _ s.htime s.uid s.fresh s.walkFaults
theorem outside_with_cur (v : State) (c : Ctx) : OutsideKept v { v with cur := c } :=
  outside_of_cur v c v.htime v.uid v.fresh v.walkFaults
theorem emit_outside (v : State) (cls : Nat) (res : List Write) (latch : Latch) (fl : Flags) (below : Option Nat) :
    OutsideKept v (emit v cls res latch fl below) := outside_with_cur v _

/-! ### Transfers of control (R156, R157) -/

/-- The scratch of a bundle whose transfer goes to `pc`. -/
def jumpIss (i : Instr) (s : State) (pc : Word) (ind : Bool) : Iss :=
  { (staged i s).cur.iss with target := some pc, indirect := ind }

theorem jumpIss_plain (i : Instr) (s : State) (pc : Word) (ind : Bool) : PlainIss (jumpIss i s pc ind) :=
  ⟨⟨rfl, rfl⟩, rfl, rfl⟩
theorem jumpIss_gap (i : Instr) (s : State) (pc : Word) (ind : Bool) :
    issueGap (jumpIss i s pc ind) false = if ind then 3 else 2 := rfl

theorem transfer_of_none {v : State} (h : v.cur.iss.cap = none) (pc : Word) (ind : Bool) :
    transfer v pc ind = { v with cur := { v.cur with iss := { v.cur.iss with target := some pc, indirect := ind } } } := by
  unfold transfer
  rw [h]
  rfl

/-- A transfer without a result. -/
theorem moves_of_transfer {i : Instr} {run : State → Op State} {s : State} {pc : Word} {ind : Bool} (h : Ready i s)
    (hx : exec i s = issueOne i run s) (hr : run (staged i s) = .ok (transfer (staged i s) pc ind)) (hn : isRett i = false) (hi : ∀ g f, i ≠ .cread g f := by nofun) :
    MovesTo i s pc (if ind then 3 else 2) := by
  rw [transfer_of_none rfl] at hr
  exact moves_of (x := jumpIss i s pc ind) h hx hr (noteCreads_single _ _ i hi) rfl (jumpIss_plain i s pc ind) rfl rfl
    (OutsideKept.trans (staged_outside i s) (outside_with_cur (staged i s) _)) hn

/-- A transfer that is not taken. -/
theorem moves_of_stay {i : Instr} {run : State → Op State} {s : State} (h : Ready i s)
    (hx : exec i s = issueOne i run s) (hr : run (staged i s) = .ok (staged i s)) (hn : isRett i = false)
    (hi : ∀ g f, i ≠ .cread g f := by nofun) : MovesTo i s (s.cur.pc + 64) 1 :=
  moves_of (x := (staged i s).cur.iss) h hx hr (noteCreads_single _ _ i hi) rfl ⟨⟨rfl, rfl⟩, rfl, rfl⟩ rfl rfl
    (outside_of_cur s _ s.htime s.uid s.fresh s.walkFaults) hn

theorem emit_iss (v : State) (cls : Nat) (res : List Write) (latch : Latch) (fl : Flags) (below : Option Nat) :
    (emit v cls res latch fl below).cur.iss = v.cur.iss := rfl

/-- A transfer with a result. -/
theorem gives_of_transfer {i : Instr} {run : State → Op State} {s : State} {cls : Nat} {res : List Write} {latch : Latch}
    {fl : Flags} {below : Option Nat} {pc : Word} {ind : Bool} (h : Ready i s) (hx : exec i s = issueOne i run s)
    (hr : run (staged i s) = .ok (transfer (emit (staged i s) cls res latch fl below) pc ind))
    (hs : (slotOf i).isSome = true) (hn : isRett i = false) (hi : ∀ g f, i ≠ .cread g f := by nofun) :
    GivesAndMoves i s pc (if ind then 3 else 2) cls res latch fl below := by
  rw [transfer_of_none (by rw [emit_iss]; rfl)] at hr
  refine gives_moves_of (below := below) (x := jumpIss i s pc ind) h hx hr (noteCreads_single _ _ i hi) ?_ (jumpIss_plain i s pc ind) rfl rfl ?_ hs hn
  · simp only [emit_iss, jumpIss]
  · exact OutsideKept.trans (staged_outside i s) (OutsideKept.trans (emit_outside _ _ _ _ _ _) (outside_with_cur _ _))

end Sys2Proof.Machine
end

