-- ==== Sys2Proof/Laws/Effects.lean ====
section
/-!
SUPPORT. What issuing a bundle of one operation does where the operation has another effect than a result.
-/
namespace Sys2Proof.Machine

theorem stallCycle_ontime {c : Ctx} (h : ∀ e ∈ c.fl, e.overdue c = false) : c.stallCycle = c := by
  have : (c.fl.map fun e => if e.overdue c then { e with ready := e.ready - 1 } else e) = c.fl := by
    refine (List.map_congr_left fun e he => ?_).trans (List.map_id _)
    simp [h e he]
  unfold Ctx.stallCycle
  rw [this]

theorem stallCycles_ontime (n : Nat) {c : Ctx} (h : ∀ e ∈ c.fl, e.overdue c = false) : Ctx.stallCycles n c = c := by
  induction n with
  | zero => rfl
  | succ n ih => unfold Ctx.stallCycles; rw [stallCycle_ontime h]; exact ih

/-- The state of an operation from which its bundle retires with nothing following. -/
structure Settled (s v : State) : Prop where
  drop : v.cur.iss.drop = 0
  atRetire : v.cur.iss.atRetire = []
  target : v.cur.iss.target = none
  ctl : v.cur.ctl = s.cur.ctl
  pc : v.cur.pc = s.cur.pc
  pt : v.cur.pt = s.cur.pt
  repi : v.cur.crs.repi = 0
  ontime : ∀ e ∈ v.cur.fl, e.overdue v.cur = false

theorem settled_of_cur {i : Instr} {s v : State} (h : Ready i s) (hi : v.cur.iss.drop = 0 ∧ v.cur.iss.atRetire = [] ∧ v.cur.iss.target = none)
    (hc : v.cur.ctl = s.cur.ctl ∧ v.cur.pc = s.cur.pc ∧ v.cur.pt = s.cur.pt ∧ v.cur.crs.repi = s.cur.crs.repi ∧ v.cur.fl = s.cur.fl) :
    Settled s v := by
  obtain ⟨h1, h2, h3, h4, h5⟩ := hc
  refine ⟨hi.1, hi.2.1, hi.2.2, h1, h2, h3, h4.trans h.first, ?_⟩
  intro e he
  rw [h5] at he
  have := h.ontime e he
  unfold Flight.overdue at this ⊢
  rw [h3]
  exact this

/-- A bundle's state when it has retired, before what follows it. -/
def closing1 (i : Instr) (s u : State) : State :=
  closing u (closeCounts u.cur.iss.after (bankCost u.cur.iss.lines) (issueGap u.cur.iss ([i].any isRett))
      (retireBundle [i] [] (Ctx.stallCycles (bankCost u.cur.iss.lines) u.cur)))
    s.cur.cid (issueGap u.cur.iss ([i].any isRett) + bankCost u.cur.iss.lines) 1

/-- The log of an audit is all that noting a bundle's CREADs touches; with no audit, nothing is touched. -/
theorem logDatum_cur (s : State) (cid : Nat) (kind : DatumKind) (key : Nat) (val : Datum) :
    (logDatum s cid kind key val).cur = s.cur := by
  unfold logDatum
  split
  · rfl
  · simp only
    split <;> rfl
theorem logDatum_none {s : State} {cid : Nat} (h : auditOf s cid = none) (kind : DatumKind) (key : Nat) (val : Datum) :
    logDatum s cid kind key val = s := by
  unfold logDatum
  rw [h]
theorem noteCreads_cur (s t : State) (i : Instr) : (noteCreads s t [i]).cur = t.cur := by
  simp only [noteCreads, List.foldl]
  split
  · split
    · exact logDatum_cur _ _ _ _ _
    · rfl
  · rfl
theorem noteCreads_none {s t : State} (h : auditOf t s.cur.cid = none) (i : Instr) : noteCreads s t [i] = t := by
  simp only [noteCreads, List.foldl]
  split
  · split
    · exact logDatum_none h _ _ _
    · rfl
  · rfl

theorem retired_split (i : Instr) (s u : State) :
    retired i s u = (afterBundle (closing1 i s (noteCreads (opened s) u [i])) u.cur.iss.after).tick := by
  have h : (noteCreads (opened s) u [i]).cur = u.cur := noteCreads_cur _ _ _
  unfold closing1 retired retire closing
  simp only [h]
  rfl

theorem closes_closing1 {i : Instr} {s v : State} (h : Ready i s) (hv : Settled s v) (hn : isRett i = false) :
    Closes i s v (closing1 i s v) := by
  have e1 : noCounts (closing1 i s v).cur = noCounts (retireBundle [i] [] (Ctx.stallCycles (bankCost v.cur.iss.lines) v.cur)) :=
    (closing_cur _ _ _ _ _).trans (noCounts_closeCounts _ _ _ _)
  rw [stallCycles_ontime _ hv.ontime,
    retireBundle_once i v.cur (by rw [hv.ctl]; exact h.once) (by rw [hv.ctl]; exact h.noSwitch) hn] at e1
  have hcl := closed_of e1
  have hg : issueGap v.cur.iss false = 1 := by simp [issueGap, hv.target]
  refine ⟨?_, ?_, ?_, ⟨hcl.cid, hcl.status, hcl.regs, hcl.cb, hcl.acc, hcl.tok, hcl.tokBind, hcl.tokWs, hcl.moor, hcl.view,
      hcl.maps, hcl.bind, hcl.pends, hcl.phase, hcl.preempt, hcl.task⟩, ⟨?_, hcl.win, ?_⟩, closing_outside v _ _ _ _⟩
  · rw [hcl.fl, hg]
  · rw [hcl.pc, hv.target, hv.pc]; rfl
  · rw [hcl.pt, hg, hv.pt]
  · rw [hcl.ldq, show v.cur.iss.dropped (popsLdq i) = 0 by simp [Iss.dropped, hv.drop], List.drop_zero]
  · rw [hcl.crs]; exact crsAfter_plain hv.atRetire hv.repi ⟨rfl, rfl, rfl⟩

/-- A closed bundle's state a tick later. -/
theorem closes_tick {i : Instr} {s u t : State} (h : Closes i s u t) : Closes i s u t.tick :=
  ⟨h.fl, h.pc, h.pt, ⟨h.ctx.cid, h.ctx.status, h.ctx.regs, h.ctx.cb, h.ctx.acc, h.ctx.tok, h.ctx.tokBind, h.ctx.tokWs, h.ctx.moor,
    h.ctx.view, h.ctx.maps, h.ctx.bind, h.ctx.pends, h.ctx.phase, h.ctx.preempt, h.ctx.task⟩,
    ⟨h.queues.ldq, h.queues.win, h.queues.crs⟩, h.outside.trans (tick_outside t)⟩

/-- A bundle whose operation answers with `v` completes with effect `v`, a CREAD's value noted where its group is audited, and then
what it asks for happens. -/
theorem doesThen_noted {i : Instr} {run : State → Op State} {s v : State} (h : Ready i s) (hx : exec i s = issueOne i run s)
    (hr : run (staged i s) = .ok v) (hv : Settled s v) (hn : isRett i = false) :
    DoesThen i s (noteCreads (opened s) v [i]) (fun t => afterBundle t v.cur.iss.after) := by
  refine ⟨closing1 i s (noteCreads (opened s) v [i]), (hx.trans (issueOne_ok h hr)).trans (by rw [retired_split]),
    closes_closing1 h ?_ hn⟩
  have k := noteCreads_cur (opened s) v i
  obtain ⟨a1, a2, a3, a4, a5, a6, a7, a8⟩ := hv
  rw [← k] at a1 a2 a3 a4 a5 a6 a7 a8
  exact ⟨a1, a2, a3, a4, a5, a6, a7, a8⟩
/-- The same for an operation other than CREAD. -/
theorem doesThen_of {i : Instr} {run : State → Op State} {s v : State} (h : Ready i s) (hx : exec i s = issueOne i run s)
    (hr : run (staged i s) = .ok v) (hv : Settled s v) (hn : isRett i = false) (hi : ∀ g f, i ≠ .cread g f := by nofun) :
    DoesThen i s v (fun t => afterBundle t v.cur.iss.after) := by
  have k := doesThen_noted h hx hr hv hn
  rwa [noteCreads_single _ _ i hi] at k

theorem does_of {i : Instr} {run : State → Op State} {s v : State} (h : Ready i s) (hx : exec i s = issueOne i run s)
    (hr : run (staged i s) = .ok v) (hv : Settled s v) (ha : v.cur.iss.after = .none) (hn : isRett i = false)
    (hi : ∀ g f, i ≠ .cread g f := by nofun) : Does i s v := by
  obtain ⟨t, e, k⟩ := doesThen_of h hx hr hv hn hi
  rw [ha] at e
  exact ⟨t.tick, e, closes_tick k⟩

/-- What an operation's state must keep to answer with a result on it. -/
theorem settled_emit {i : Instr} {s v : State} {cls : Nat} {res : List Write} {latch : Latch} {fl : Flags} {below : Option Nat}
    (h : Ready i s) (hv : Settled s v) (hl : v.cur.lat = s.cur.lat) : Settled s (emit v cls res latch fl below) := by
  refine ⟨hv.drop, hv.atRetire, hv.target, hv.ctl, hv.pc, hv.pt, hv.repi, ?_⟩
  intro e he
  have hm : e ∈ v.cur.fl ∨ e.due = v.cur.pt + resultLat v.cur cls v.cur.iss.xcls := by
    rcases List.mem_append.1 he with k | k
    · exact .inl k
    · exact .inr (by rw [List.mem_singleton.1 k])
  rcases hm with k | k
  · exact hv.ontime e k
  · have hd : declLat v.cur cls = declLat s.cur cls := by unfold declLat; rw [hl]
    have := declLat_pos h cls
    have k2 : v.cur.pt < e.due := by rw [k]; unfold resultLat; omega
    have : ¬ (e.due ≤ v.cur.pt) := by omega
    show (decide (e.due ≤ v.cur.pt) && decide (v.cur.pt < e.ready)) = false
    simp [this]

/-- A bundle whose operation answers with a result on `v` completes with effect `v` and that result. -/
theorem doesAndGives_of {i : Instr} {run : State → Op State} {s v : State} {cls : Nat} {res : List Write} {latch : Latch} {fl : Flags}
    {below : Option Nat} (h : Ready i s) (hx : exec i s = issueOne i run s) (hr : run (staged i s) = .ok (emit v cls res latch fl below))
    (hv : Settled s v) (ha : v.cur.iss.after = .none) (hn : isRett i = false) (hs : (slotOf i).isSome = true)
    (hl : v.cur.lat = s.cur.lat) (hx2 : v.cur.iss.xcls = popClasses s.cur i) (hslot : v.cur.iss.slot = (slotOf i).getD 0)
    (hm : sigMode v.cur = sigMode s.cur := by rfl)
    (hi : ∀ g f, i ≠ .cread g f := by nofun) : DoesAndGives i s v cls res latch fl below := by
  obtain ⟨t, e1, k⟩ := does_of h hx hr (settled_emit h hv hl) ha hn hi
  obtain ⟨n, hn⟩ := Option.isSome_iff_exists.1 hs
  have hd : ∀ c, declLat v.cur c = declLat s.cur c := by intro c; unfold declLat; rw [hl]
  have hlt : ∀ c, lateLat v.cur c = lateLat s.cur c := by intro c; unfold lateLat; rw [hd]
  refine ⟨t, _, e1, k, ⟨rfl, rfl, rfl, ?_, ?_, ?_, hv.pc, rfl, hm⟩⟩
  · show some v.cur.iss.slot = slotOf i
    rw [hslot, hn]; rfl
  · show v.cur.pt + resultLat v.cur cls v.cur.iss.xcls = _
    simp only [hv.pt, hx2, resultLat, funext hd]
  · show v.cur.pt + resultLat v.cur cls v.cur.iss.xcls + resultLate v.cur cls v.cur.iss.xcls = _
    simp only [hv.pt, hx2, resultLat, resultLate, hlt, funext hd, funext hlt]

/-- Nothing keeps the trap of a ready bundle's operation waiting. -/
theorem trapWaits_none {i : Instr} {run : State → Op State} {s : State} (h : Ready i s) :
    trapWaits (opened s) [⟨i, run⟩] = none := by
  have ht : ∀ e ∈ (opened s).cur.fl, e.overdue (opened s).cur = false := fun e he => h.ontime e he
  have hw : ∀ p, waitsFor (opened s).cur p = false := fun p => waitsFor_false ht p
  have hs : ∀ b x, selLate (opened s) b x = false := by
    intro b x
    have hl : ∀ slot j, (latchView (opened s).cur slot j).isNone = false := by
      intro slot j
      have hf : (opened s).cur.fl.filter (fun e => e.overdue (opened s).cur && e.slot = slot && e.latch != .invalid) = [] := by
        rw [List.filter_eq_nil_iff]
        intro e he
        simp [ht e he]
      unfold latchView
      split
      · rfl
      · simp only [hf, sortFlights, List.foldl_nil]
        rw [List.getD_eq_getElem?_getD, List.getElem?_map]
        cases (List.range 3)[j]? <;> rfl
    unfold selLate
    simp only [hw, hl]
    repeat' split
    all_goals rfl
  have ho : operandLate (opened s) i = false := by
    unfold operandLate
    simp only [hw, hs]
    split <;> simp
  have hn : namesLate (opened s) i = false := by
    unfold namesLate
    rw [List.any_eq_false]
    intro x hx
    simp [ht x hx]
  unfold trapWaits
  simp [ho, hn, h.supplied]

/-- One operation alone in its bundle that traps: the bundle takes the trap, its operation after what is in flight. -/
theorem issueOne_trap {i : Instr} {run : State → Op State} {s : State} {k : Cause} (h : Ready i s)
    (hr : run (staged i s) = .error (.trap k)) (hk : k.cls ≠ 0x23)
    (hi : ∀ g f, i ≠ .cread g f := by nofun) :
    issueOne i run s = .next (takeTrap (opened s) { k with slot := (slotOf i).getD 0 }
      (flightEntries s.cur (s.cur.pt + 1) ++ [({ captureOp (opened s) i false with due := bundleDue s.cur i } : Replay).withAns (keptAnswer s.cur)])
      ⟨s.cur.pc + 64, 0, 0⟩).tick := by
  have hr' : runOp (opened s).cur ⟨i, run⟩ (opened s) = .error (.trap k) := hr
  have ho : ctlRep (opened s).cur.ctl = false := h.once
  rw [issueOne_settle h, hr']
  unfold settle
  simp only [firstOf, isHold, isStopped, isSend, Bool.false_eq_true, if_false, Bool.not_false, if_true]
  unfold trapOrHold
  rw [trapWaits_none h]
  unfold trapBundle
  have hu : (opened s).updCur (skipTokens []) = opened s := rfl
  rw [if_neg (by exact hk), List.map_cons, List.map_nil, noteCreads_single _ _ i hi, hu]
  unfold resumeAfter
  simp only [ho, Bool.false_eq_true, if_false]
  rfl

end Sys2Proof.Machine
end

