-- ==== Sys2Proof/Laws/Encoding.lean ====
section
/-!
SUPPORT. The fields of every operand format survive their encoding, and so do the parts of a slot's word.
-/
namespace Sys2Proof

theorem append_skip {w v s l : Nat} (x : BitVec w) (y : BitVec v) (h : v ≤ s) :
    (x ++ y).extractLsb' s l = x.extractLsb' (s - v) l := by
  rw [BitVec.extractLsb'_append_eq_ite, dif_neg (by omega)]
theorem append_bottom {w v : Nat} (x : BitVec w) (y : BitVec v) : (x ++ y).extractLsb' 0 v = y := by
  rw [BitVec.extractLsb'_append_eq_of_add_le (by omega)]; simp
theorem extract_whole {w : Nat} (x : BitVec w) : x.extractLsb' 0 w = x := by simp
theorem append_skipBit {w v s : Nat} (x : BitVec w) (y : BitVec v) (h : v ≤ s) : (x ++ y).getLsbD s = x.getLsbD (s - v) := by
  rw [BitVec.getLsbD_append, if_neg (by omega)]
theorem append_bit {w : Nat} (x : BitVec w) (b : Bool) : (x ++ BitVec.ofBool b).getLsbD 0 = b := by
  rw [BitVec.getLsbD_append, if_pos (by omega)]; cases b <;> rfl
theorem append_lowBit {w v s : Nat} (x : BitVec w) (y : BitVec v) (h : s < v) : (x ++ y).getLsbD s = y.getLsbD s := by
  rw [BitVec.getLsbD_append, if_pos h]

theorem fieldsV_bitsV (f : VF) : fieldsV (bitsV f) = f := by
  cases f
  refine VF.mk.injEq .. |>.mpr ⟨?_, ?_, ?_, ?_, ?_, ?_, ?_⟩
  · exact (append_skip _ _ (by decide)).trans ((append_skip _ _ (by decide)).trans ((append_skip _ _ (by decide)).trans ((append_skip _ _ (by decide)).trans ((append_skip _ _ (by decide)).trans ((append_skip _ _ (by decide)).trans (extract_whole _))))))
  · exact (append_skipBit _ _ (by decide)).trans ((append_skipBit _ _ (by decide)).trans ((append_skipBit _ _ (by decide)).trans ((append_skipBit _ _ (by decide)).trans ((append_skipBit _ _ (by decide)).trans (append_bit _ _)))))
  · exact (append_skip _ _ (by decide)).trans ((append_skip _ _ (by decide)).trans ((append_skip _ _ (by decide)).trans ((append_skip _ _ (by decide)).trans (append_bottom _ _))))
  · exact (append_skip _ _ (by decide)).trans ((append_skip _ _ (by decide)).trans ((append_skip _ _ (by decide)).trans (append_bottom _ _)))
  · exact (append_skip _ _ (by decide)).trans ((append_skip _ _ (by decide)).trans (append_bottom _ _))
  · exact (append_skip _ _ (by decide)).trans (append_bottom _ _)
  · exact append_bottom _ _
theorem fieldsSR_bitsSR (f : SRF) : fieldsSR (bitsSR f) = f := by
  cases f
  refine SRF.mk.injEq .. |>.mpr ⟨?_, ?_, ?_, ?_, ?_, ?_, ?_, ?_⟩
  · exact (append_skip _ _ (by decide)).trans ((append_skip _ _ (by decide)).trans ((append_skip _ _ (by decide)).trans ((append_skip _ _ (by decide)).trans ((append_skip _ _ (by decide)).trans ((append_skip _ _ (by decide)).trans ((append_skip _ _ (by decide)).trans (extract_whole _)))))))
  · exact (append_skip _ _ (by decide)).trans ((append_skip _ _ (by decide)).trans ((append_skip _ _ (by decide)).trans ((append_skip _ _ (by decide)).trans ((append_skip _ _ (by decide)).trans ((append_skip _ _ (by decide)).trans (append_bottom _ _))))))
  · exact (append_skip _ _ (by decide)).trans ((append_skip _ _ (by decide)).trans ((append_skip _ _ (by decide)).trans ((append_skip _ _ (by decide)).trans ((append_skip _ _ (by decide)).trans (append_bottom _ _)))))
  · exact (append_skip _ _ (by decide)).trans ((append_skip _ _ (by decide)).trans ((append_skip _ _ (by decide)).trans ((append_skip _ _ (by decide)).trans (append_bottom _ _))))
  · exact (append_skip _ _ (by decide)).trans ((append_skip _ _ (by decide)).trans ((append_skip _ _ (by decide)).trans (append_bottom _ _)))
  · exact (append_skip _ _ (by decide)).trans ((append_skip _ _ (by decide)).trans (append_bottom _ _))
  · exact (append_skip _ _ (by decide)).trans (append_bottom _ _)
  · exact append_bottom _ _
theorem fieldsSI_bitsSI (f : SIF) : fieldsSI (bitsSI f) = f := by
  cases f
  refine SIF.mk.injEq .. |>.mpr ⟨?_, ?_, ?_⟩
  · exact (append_skip _ _ (by decide)).trans ((append_skip _ _ (by decide)).trans (extract_whole _))
  · exact (append_skip _ _ (by decide)).trans (append_bottom _ _)
  · exact append_bottom _ _
theorem fieldsSB_bitsSB (f : SBF) : fieldsSB (bitsSB f) = f := by
  cases f
  refine SBF.mk.injEq .. |>.mpr ⟨?_, ?_, ?_, ?_, ?_⟩
  · exact (append_skip _ _ (by decide)).trans ((append_skip _ _ (by decide)).trans ((append_skip _ _ (by decide)).trans ((append_skip _ _ (by decide)).trans (extract_whole _))))
  · exact (append_skip _ _ (by decide)).trans ((append_skip _ _ (by decide)).trans ((append_skip _ _ (by decide)).trans (append_bottom _ _)))
  · exact (append_skip _ _ (by decide)).trans ((append_skip _ _ (by decide)).trans (append_bottom _ _))
  · exact (append_skip _ _ (by decide)).trans (append_bottom _ _)
  · exact append_bottom _ _
theorem fieldsMX_bitsMX (f : MXF) : fieldsMX (bitsMX f) = f := by
  cases f
  refine MXF.mk.injEq .. |>.mpr ⟨?_, ?_, ?_, ?_, ?_⟩
  · exact (append_skip _ _ (by decide)).trans ((append_skip _ _ (by decide)).trans ((append_skip _ _ (by decide)).trans ((append_skip _ _ (by decide)).trans (extract_whole _))))
  · exact (append_skip _ _ (by decide)).trans ((append_skip _ _ (by decide)).trans ((append_skip _ _ (by decide)).trans (append_bottom _ _)))
  · exact (append_skip _ _ (by decide)).trans ((append_skip _ _ (by decide)).trans (append_bottom _ _))
  · exact (append_skip _ _ (by decide)).trans (append_bottom _ _)
  · exact append_bottom _ _
theorem fieldsEN_bitsEN (f : ENF) : fieldsEN (bitsEN f) = f := by
  cases f
  refine ENF.mk.injEq .. |>.mpr ⟨?_, ?_, ?_, ?_, ?_, ?_⟩
  · exact (append_skip _ _ (by decide)).trans ((append_skip _ _ (by decide)).trans ((append_skip _ _ (by decide)).trans ((append_skip _ _ (by decide)).trans ((append_skip _ _ (by decide)).trans (extract_whole _)))))
  · exact (append_skip _ _ (by decide)).trans ((append_skip _ _ (by decide)).trans ((append_skip _ _ (by decide)).trans ((append_skip _ _ (by decide)).trans (append_bottom _ _))))
  · exact (append_skip _ _ (by decide)).trans ((append_skip _ _ (by decide)).trans ((append_skip _ _ (by decide)).trans (append_bottom _ _)))
  · exact (append_skip _ _ (by decide)).trans ((append_skip _ _ (by decide)).trans (append_bottom _ _))
  · exact (append_skip _ _ (by decide)).trans (append_bottom _ _)
  · exact append_bottom _ _
theorem fieldsSY_bitsSY (f : SYF) : fieldsSY (bitsSY f) = f := by
  cases f
  refine SYF.mk.injEq .. |>.mpr ⟨?_, ?_, ?_, ?_⟩
  · exact (append_skip _ _ (by decide)).trans ((append_skip _ _ (by decide)).trans ((append_skip _ _ (by decide)).trans (extract_whole _)))
  · exact (append_skip _ _ (by decide)).trans ((append_skip _ _ (by decide)).trans (append_bottom _ _))
  · exact (append_skip _ _ (by decide)).trans (append_bottom _ _)
  · exact append_bottom _ _
theorem fieldsXC_bitsXC (f : XCF) : fieldsXC (bitsXC f) = f := rfl

/-- The low bits of the operands of the formats whose last field is ext. -/
theorem bitsEN_ext (f : ENF) {n : Nat} (h : n < 21) : (bitsEN f).getLsbD n = f.ext.getLsbD n := append_lowBit _ _ h
theorem bitsSY_ext (f : SYF) {n : Nat} (h : n < 35) : (bitsSY f).getLsbD n = f.ext.getLsbD n := append_lowBit _ _ h

theorem slotOperands_slotWord (op : BitVec 8) (g : Guard) (o : Operands) : slotOperands (slotWord op g o) = o := append_bottom _ _
theorem slotOp_slotWord (op : BitVec 8) (g : Guard) (o : Operands) : slotOp (slotWord op g o) = op :=
  (append_skip _ _ (by decide)).trans ((append_skip _ _ (by decide)).trans ((append_skip _ _ (by decide)).trans (extract_whole _)))
theorem slotGuard_slotWord (op : BitVec 8) (g : Guard) (o : Operands) : slotGuard (slotWord op g o) = g := by
  cases g
  refine Guard.mk.injEq .. |>.mpr ⟨?_, ?_⟩
  · exact (append_skip _ _ (by decide)).trans ((append_skip _ _ (by decide)).trans (append_bottom _ _))
  · exact (append_skipBit _ _ (by decide)).trans (append_bit _ _)

/-- Decoding a slot's word decodes its operands under its opcode. -/
theorem decodeSlot_slotWord (k : Nat) (op : BitVec 8) (g : Guard) (o : Operands) :
    decodeSlot k (slotWord op g o) = (match k with
      | 0 => decodeS op.toNat g o
      | 1 => decodeV false op.toNat g o
      | 2 => decodeV true op.toNat g o
      | 3 => decodeM op.toNat g o
      | 4 => decodeL op.toNat g o
      | 5 => decodeW op.toNat g o
      | 6 => decodeC op.toNat g o
      | 7 => decodeY op.toNat g o
      | _ => none) := by
  have ho := slotOp_slotWord op g o
  have hg := slotGuard_slotWord op g o
  have hr := slotOperands_slotWord op g o
  generalize slotWord op g o = w at ho hg hr ⊢
  subst ho hg hr
  rfl

end Sys2Proof
end

