-- ==== Sys2Proof/Laws/Memory.lean ====
section
/-!
SUPPORT. The laws of memory: every write keeps the canonical form, a read after a write to the same place gives what was
written, and a write leaves every other address alone.
-/
namespace Sys2Proof.Machine

/-! ### The canonical form, in parts -/

theorem wfFrom_cons (lo a : Nat) (b : Byte) (r : List Host.Cell) :
    wfFrom lo ((a, b) :: r) = true ↔ lo ≤ a ∧ b ≠ memDefault ∧ wfFrom (a + 1) r = true := by
  simp [wfFrom, and_assoc]

theorem wfFrom_mono {lo hi : Nat} (h : lo ≤ hi) {m : List Host.Cell} (k : wfFrom hi m = true) : wfFrom lo m = true := by
  cases m with
  | nil => rfl
  | cons c r =>
    obtain ⟨a, b⟩ := c
    rw [wfFrom_cons] at k ⊢
    exact ⟨by omega, k.2⟩

theorem wfFrom_le {lo : Nat} {m : List Host.Cell} (k : wfFrom lo m = true) : ∀ c ∈ m, lo ≤ c.1 := by
  induction m generalizing lo with
  | nil => simp
  | cons c r ih =>
    obtain ⟨a, b⟩ := c
    rw [wfFrom_cons] at k
    intro c hc
    rcases List.mem_cons.1 hc with rfl | hc
    · exact k.1
    · have := ih k.2.2 c hc
      omega

/-- Two canonical runs, the first below `mid` and the second from `mid` on, join to one. -/
theorem wfFrom_append {lo mid : Nat} {m n : List Host.Cell} (hm : wfFrom lo m = true) (hlt : ∀ c ∈ m, c.1 < mid)
    (hn : wfFrom mid n = true) (hlo : lo ≤ mid) : wfFrom lo (m ++ n) = true := by
  induction m generalizing lo with
  | nil => exact wfFrom_mono hlo hn
  | cons c r ih =>
    obtain ⟨a, b⟩ := c
    rw [wfFrom_cons] at hm
    rw [List.cons_append, wfFrom_cons]
    have ha : a < mid := hlt (a, b) (by simp)
    exact ⟨hm.1, hm.2.1, ih hm.2.2 (fun c hc => hlt c (by simp [hc])) (by omega)⟩

theorem wfFrom_filter {lo : Nat} {m : List Host.Cell} (p : Host.Cell → Bool) (h : wfFrom lo m = true) :
    wfFrom lo (m.filter p) = true := by
  induction m generalizing lo with
  | nil => rfl
  | cons c r ih =>
    obtain ⟨a, b⟩ := c
    rw [wfFrom_cons] at h
    rw [List.filter_cons]
    split
    · exact (wfFrom_cons ..).2 ⟨h.1, h.2.1, ih h.2.2⟩
    · exact wfFrom_mono (by omega) (ih h.2.2)

/-- Dropping a prefix of addresses moves the lower bound up. -/
theorem wfFrom_filter_ge {lo hi : Nat} {m : List Host.Cell} (h : wfFrom lo m = true) :
    wfFrom hi (m.filter fun c => decide (hi ≤ c.1)) = true := by
  induction m generalizing lo with
  | nil => rfl
  | cons c r ih =>
    obtain ⟨a, b⟩ := c
    rw [wfFrom_cons] at h
    rw [List.filter_cons]
    split
    · rename_i hd
      simp only [decide_eq_true_eq] at hd
      exact (wfFrom_cons ..).2 ⟨hd, h.2.1, wfFrom_filter _ h.2.2⟩
    · exact ih h.2.2

theorem runCells_wf (a : Nat) (bs : List Byte) : wfFrom a (runCells a bs) = true := by
  induction bs generalizing a with
  | nil => rfl
  | cons b r ih =>
    rw [runCells]
    split
    · exact wfFrom_mono (by omega) (ih (a + 1))
    · rename_i h
      exact (wfFrom_cons ..).2 ⟨Nat.le_refl a, h, ih (a + 1)⟩

theorem runCells_lt (a : Nat) (bs : List Byte) : ∀ c ∈ runCells a bs, c.1 < a + bs.length := by
  induction bs generalizing a with
  | nil => simp [runCells]
  | cons b r ih =>
    intro c hc
    rw [runCells] at hc
    have h1 := ih (a + 1) c
    rw [List.length_cons]
    split at hc
    · have := h1 hc; omega
    · rcases List.mem_cons.1 hc with rfl | hc
      · simp
      · have := h1 hc; omega

/-- A write keeps the canonical form. -/
theorem memWrite_wf {m : List Host.Cell} (h : Memory.wf m = true) (a : Nat) (bs : List Byte) :
    Memory.wf (memWrite m a bs) = true := by
  unfold Memory.wf memWrite at *
  rw [List.append_assoc]
  refine wfFrom_append (mid := a) (wfFrom_filter _ h) (by simp) ?_ (Nat.zero_le a)
  exact wfFrom_append (runCells_wf a bs) (runCells_lt a bs) (wfFrom_filter_ge h) (by omega)

/-- A masked write keeps the canonical form. -/
theorem memWriteMask_wf {m : List Host.Cell} (h : Memory.wf m = true) (a : Nat) (bs : List Byte) (k : List Bool) :
    Memory.wf (memWriteMask m a bs k) = true := memWrite_wf h a _

/-- Forgetting cells keeps the canonical form. -/
theorem filter_wf {m : List Host.Cell} (h : Memory.wf m = true) (p : Host.Cell → Bool) : Memory.wf (m.filter p) = true :=
  wfFrom_filter p h

/-- Writing many runs one after the other keeps the canonical form. -/
theorem foldl_memWrite_wf {α : Type} (l : List α) (at_ : α → Nat) (bs : α → List Byte) {m : List Host.Cell}
    (h : Memory.wf m = true) : Memory.wf (l.foldl (fun x y => memWrite x (at_ y) (bs y)) m) = true := by
  induction l generalizing m with
  | nil => exact h
  | cons y r ih => exact ih (memWrite_wf h _ _)

/-! ### Reading back -/

theorem memByte_append (m n : List Host.Cell) (a : Nat) :
    memByte (m ++ n) a = if m.any (fun c => c.1 = a) then memByte m a else memByte n a := by
  induction m with
  | nil => simp
  | cons c r ih =>
    obtain ⟨x, b⟩ := c
    simp only [List.cons_append, memByte, List.any_cons]
    by_cases h : x = a
    · simp [h]
    · simp [h, ih]

theorem memByte_filter (m : List Host.Cell) (p : Host.Cell → Bool) (a : Nat) (h : ∀ b, p (a, b) = true) :
    memByte (m.filter p) a = memByte m a := by
  induction m with
  | nil => rfl
  | cons c r ih =>
    obtain ⟨x, b⟩ := c
    rw [List.filter_cons]
    by_cases hx : x = a
    · subst hx; simp [h, memByte]
    · split <;> simp [memByte, hx, ih]

theorem memByte_none (m : List Host.Cell) (a : Nat) (h : m.any (fun c => c.1 = a) = false) : memByte m a = memDefault := by
  induction m with
  | nil => rfl
  | cons c r ih =>
    obtain ⟨x, b⟩ := c
    simp only [List.any_cons, Bool.or_eq_false_iff, decide_eq_false_iff_not] at h
    simp [memByte, h.1, ih h.2]

theorem any_filter_self (m : List Host.Cell) (p : Host.Cell → Bool) (a : Nat) (h : ∀ b, p (a, b) = true) :
    (m.filter p).any (fun c => c.1 = a) = m.any (fun c => c.1 = a) := by
  induction m with
  | nil => rfl
  | cons c r ih =>
    obtain ⟨x, b⟩ := c
    rw [List.filter_cons]
    by_cases hx : x = a
    · subst hx; simp [h]
    · split <;> simp [hx, ih]

theorem any_filter_none (m : List Host.Cell) (p : Host.Cell → Bool) (a : Nat) (h : ∀ b, p (a, b) = false) :
    (m.filter p).any (fun c => c.1 = a) = false := by
  simp only [List.any_filter, List.any_eq_false]
  rintro ⟨x, b⟩ _
  by_cases hx : x = a
  · subst hx; simp [h]
  · simp [hx]

theorem runCells_none (a x : Nat) (bs : List Byte) (h : x < a ∨ a + bs.length ≤ x) :
    (runCells a bs).any (fun c => c.1 = x) = false := by
  induction bs generalizing a with
  | nil => rfl
  | cons b r ih =>
    rw [List.length_cons] at h
    rw [runCells]
    split
    · exact ih (a + 1) (by omega)
    · rw [List.any_cons, ih (a + 1) (by omega)]
      simp; omega

theorem runCells_byte (a i : Nat) (bs : List Byte) (h : i < bs.length) : memByte (runCells a bs) (a + i) = bs[i] := by
  induction bs generalizing a i with
  | nil => simp at h
  | cons b r ih =>
    rw [runCells]
    cases i with
    | zero =>
      split
      · rename_i hb
        rw [memByte_none _ _ (runCells_none _ _ _ (by omega))]
        simp [hb]
      · simp [memByte]
    | succ j =>
      have hj : j < r.length := by simpa using h
      have := ih (a + 1) j hj
      rw [show a + (j + 1) = a + 1 + j by omega]
      split
      · simpa using this
      · simp only [memByte]
        rw [if_neg (by omega)]
        simpa using this

/-- A write leaves every other address alone. -/
theorem memWrite_other (m : List Host.Cell) (a x : Nat) (bs : List Byte) (h : x < a ∨ a + bs.length ≤ x) :
    memByte (memWrite m a bs) x = memByte m x := by
  unfold memWrite
  rw [List.append_assoc, memByte_append, memByte_append, runCells_none _ _ _ h]
  simp only [Bool.false_eq_true, if_false]
  rcases h with h | h
  · rw [any_filter_self _ _ _ (by intro b; simpa using h)]
    split
    · exact memByte_filter _ _ _ (by intro b; simpa using h)
    · rename_i hn
      rw [memByte_none m x (eq_false_of_ne_true hn), memByte_none]
      exact any_filter_none _ _ _ (by intro b; simp; omega)
  · rw [any_filter_none _ _ _ (by intro b; simp; omega)]
    exact memByte_filter _ _ _ (by intro b; simpa using h)

/-- A read of a written address gives what was written. -/
theorem memWrite_same (m : List Host.Cell) (a i : Nat) (bs : List Byte) (h : i < bs.length) :
    memByte (memWrite m a bs) (a + i) = bs[i] := by
  unfold memWrite
  rw [List.append_assoc, memByte_append, any_filter_none _ _ _ (by intro b; simp)]
  simp only [Bool.false_eq_true, if_false]
  rw [memByte_append]
  split
  · exact runCells_byte a i bs h
  · rename_i hn
    rw [memByte_none _ _ (any_filter_none _ _ _ (by intro b; simp; omega))]
    rw [← runCells_byte a i bs h, memByte_none _ _ (eq_false_of_ne_true hn)]

/-- Reading the run just written gives it back. -/
theorem memRead_memWrite (m : List Host.Cell) (a : Nat) (bs : List Byte) : memRead (memWrite m a bs) a bs.length = bs := by
  apply List.ext_getElem
  · simp [memRead]
  · intro i h1 h2
    simp [memRead, memWrite_same m a i bs h2]

/-! ### The two memories of the machine -/

/-- A write to physical memory keeps its canonical form. -/
theorem physWrite_wf (s : State) (pa : Nat) (bs : List Byte) (k : List Bool) (key : Option Nat) (p : Bool)
    (h : Memory.wf s.mem = true) : Memory.wf (physWrite s pa bs k key p).mem = true := by
  unfold physWrite
  simp only []
  split
  · exact h
  · exact memWriteMask_wf (foldl_memWrite_wf _ (fun x => 32 * x) _ h) _ _ _

@[simp] theorem physWrite_spad (s : State) (pa : Nat) (bs : List Byte) (k : List Bool) (key : Option Nat) (p : Bool) :
    (physWrite s pa bs k key p).spad = s.spad := by
  unfold physWrite
  simp only []
  split <;> rfl

/-- A piece that reaches a poisoned sector changes no byte. -/
@[simp] theorem coverPiece_mem (s : State) (w pa : Nat) (k : List Bool) (p : Bool) : (coverPiece s w pa k p).mem = s.mem := by
  unfold coverPiece
  dsimp only
  repeat' split
  all_goals rfl

@[simp] theorem coverPiece_spad (s : State) (w pa : Nat) (k : List Bool) (p : Bool) : (coverPiece s w pa k p).spad = s.spad := by
  unfold coverPiece
  dsimp only
  repeat' split
  all_goals rfl

theorem pieceWriteOf_wf (s : State) (w id agent vf pa : Nat) (bs : List Byte) (k : List Bool) (key : Option Nat) (p : Bool)
    (h : Memory.wf s.mem = true) : Memory.wf (pieceWriteOf s w id agent vf pa bs k key p).mem = true := by
  simpa [pieceWriteOf] using physWrite_wf s pa bs k key p h

theorem pieceWrite_wf (s : State) (id agent vf pa : Nat) (bs : List Byte) (k : List Bool) (key : Option Nat) (p : Bool)
    (h : Memory.wf s.mem = true) : Memory.wf (pieceWrite s id agent vf pa bs k key p).mem = true :=
  pieceWriteOf_wf s id id agent vf pa bs k key p h

@[simp] theorem pieceWrite_spad (s : State) (id agent vf pa : Nat) (bs : List Byte) (k : List Bool) (key : Option Nat)
    (p : Bool) : (pieceWrite s id agent vf pa bs k key p).spad = s.spad := by
  simp [pieceWrite, pieceWriteOf]

end Sys2Proof.Machine
end

