-- ==== Sys2Proof/Laws/PerInstr.lean ====
section
/-!
SUPPORT. Statements made for all instructions, one lemma per constructor.
-/
namespace Sys2Proof.Laws.SlotRoundTrip

open Sys2Proof Sys2Proof.Machine


/-- The word of a well-formed operation names it in its slot: its opcode is not the empty slot's, and decoding gives the
operation back. -/
def Statement (i : Instr) : Prop :=
  ∀ k, slotOf i = some k → wfInstr i = true → slotOp (encodeSlot i) ≠ 0 ∧ decodeSlot k (encodeSlot i) = some i

/-- A statement about an instruction that has a slot. -/
theorem of_slot {i : Instr} {op : BitVec 8} {g : Guard} {o : Operands} {n : Nat} (hs : slotOf i = some n)
    (he : encodeSlot i = slotWord op g o) (ho : op ≠ 0) (hd : wfInstr i = true → decodeSlot n (slotWord op g o) = some i) :
    Statement i := by
  intro k hk hw
  rw [hs] at hk
  cases hk
  rw [he]
  exact ⟨by rw [slotOp_slotWord]; exact ho, hd hw⟩
/-- An instruction without a slot: nothing to say. -/
theorem of_none {i : Instr} (h : slotOf i = none) : Statement i := fun k hk => absurd (h.symm.trans hk) (by simp)

theorem add (g : Guard) (f : SRF) : Statement (.add g f) :=
  of_slot (op := 0x01) rfl rfl (by decide) fun _ =>
    (decodeSlot_slotWord ..).trans (congrArg (fun f => some (Instr.add g f)) (fieldsSR_bitsSR f))
theorem sub (g : Guard) (f : SRF) : Statement (.sub g f) :=
  of_slot (op := 0x02) rfl rfl (by decide) fun _ =>
    (decodeSlot_slotWord ..).trans (congrArg (fun f => some (Instr.sub g f)) (fieldsSR_bitsSR f))
theorem mul (g : Guard) (f : SRF) : Statement (.mul g f) :=
  of_slot (op := 0x03) rfl rfl (by decide) fun _ =>
    (decodeSlot_slotWord ..).trans (congrArg (fun f => some (Instr.mul g f)) (fieldsSR_bitsSR f))
theorem mulh (g : Guard) (f : SRF) : Statement (.mulh g f) :=
  of_slot (op := 0x04) rfl rfl (by decide) fun _ =>
    (decodeSlot_slotWord ..).trans (congrArg (fun f => some (Instr.mulh g f)) (fieldsSR_bitsSR f))
theorem mulhn (g : Guard) (f : SRF) : Statement (.mulhn g f) :=
  of_slot (op := 0x05) rfl rfl (by decide) fun _ =>
    (decodeSlot_slotWord ..).trans (congrArg (fun f => some (Instr.mulhn g f)) (fieldsSR_bitsSR f))
theorem div (g : Guard) (f : SRF) : Statement (.div g f) :=
  of_slot (op := 0x06) rfl rfl (by decide) fun _ =>
    (decodeSlot_slotWord ..).trans (congrArg (fun f => some (Instr.div g f)) (fieldsSR_bitsSR f))
theorem divn (g : Guard) (f : SRF) : Statement (.divn g f) :=
  of_slot (op := 0x07) rfl rfl (by decide) fun _ =>
    (decodeSlot_slotWord ..).trans (congrArg (fun f => some (Instr.divn g f)) (fieldsSR_bitsSR f))
theorem rem (g : Guard) (f : SRF) : Statement (.rem g f) :=
  of_slot (op := 0x08) rfl rfl (by decide) fun _ =>
    (decodeSlot_slotWord ..).trans (congrArg (fun f => some (Instr.rem g f)) (fieldsSR_bitsSR f))
theorem remn (g : Guard) (f : SRF) : Statement (.remn g f) :=
  of_slot (op := 0x09) rfl rfl (by decide) fun _ =>
    (decodeSlot_slotWord ..).trans (congrArg (fun f => some (Instr.remn g f)) (fieldsSR_bitsSR f))
theorem and (g : Guard) (f : SRF) : Statement (.and g f) :=
  of_slot (op := 0x0A) rfl rfl (by decide) fun _ =>
    (decodeSlot_slotWord ..).trans (congrArg (fun f => some (Instr.and g f)) (fieldsSR_bitsSR f))
theorem or (g : Guard) (f : SRF) : Statement (.or g f) :=
  of_slot (op := 0x0B) rfl rfl (by decide) fun _ =>
    (decodeSlot_slotWord ..).trans (congrArg (fun f => some (Instr.or g f)) (fieldsSR_bitsSR f))
theorem xor (g : Guard) (f : SRF) : Statement (.xor g f) :=
  of_slot (op := 0x0C) rfl rfl (by decide) fun _ =>
    (decodeSlot_slotWord ..).trans (congrArg (fun f => some (Instr.xor g f)) (fieldsSR_bitsSR f))
theorem andn (g : Guard) (f : SRF) : Statement (.andn g f) :=
  of_slot (op := 0x0D) rfl rfl (by decide) fun _ =>
    (decodeSlot_slotWord ..).trans (congrArg (fun f => some (Instr.andn g f)) (fieldsSR_bitsSR f))
theorem shl (g : Guard) (f : SRF) : Statement (.shl g f) :=
  of_slot (op := 0x0E) rfl rfl (by decide) fun _ =>
    (decodeSlot_slotWord ..).trans (congrArg (fun f => some (Instr.shl g f)) (fieldsSR_bitsSR f))
theorem shr (g : Guard) (f : SRF) : Statement (.shr g f) :=
  of_slot (op := 0x0F) rfl rfl (by decide) fun _ =>
    (decodeSlot_slotWord ..).trans (congrArg (fun f => some (Instr.shr g f)) (fieldsSR_bitsSR f))
theorem sar (g : Guard) (f : SRF) : Statement (.sar g f) :=
  of_slot (op := 0x10) rfl rfl (by decide) fun _ =>
    (decodeSlot_slotWord ..).trans (congrArg (fun f => some (Instr.sar g f)) (fieldsSR_bitsSR f))
theorem rot (g : Guard) (f : SRF) : Statement (.rot g f) :=
  of_slot (op := 0x11) rfl rfl (by decide) fun _ =>
    (decodeSlot_slotWord ..).trans (congrArg (fun f => some (Instr.rot g f)) (fieldsSR_bitsSR f))
theorem clz (g : Guard) (f : SRF) : Statement (.clz g f) :=
  of_slot (op := 0x12) rfl rfl (by decide) fun _ =>
    (decodeSlot_slotWord ..).trans (congrArg (fun f => some (Instr.clz g f)) (fieldsSR_bitsSR f))
theorem ctz (g : Guard) (f : SRF) : Statement (.ctz g f) :=
  of_slot (op := 0x13) rfl rfl (by decide) fun _ =>
    (decodeSlot_slotWord ..).trans (congrArg (fun f => some (Instr.ctz g f)) (fieldsSR_bitsSR f))
theorem popc (g : Guard) (f : SRF) : Statement (.popc g f) :=
  of_slot (op := 0x14) rfl rfl (by decide) fun _ =>
    (decodeSlot_slotWord ..).trans (congrArg (fun f => some (Instr.popc g f)) (fieldsSR_bitsSR f))
theorem min (g : Guard) (f : SRF) : Statement (.min g f) :=
  of_slot (op := 0x15) rfl rfl (by decide) fun _ =>
    (decodeSlot_slotWord ..).trans (congrArg (fun f => some (Instr.min g f)) (fieldsSR_bitsSR f))
theorem max (g : Guard) (f : SRF) : Statement (.max g f) :=
  of_slot (op := 0x16) rfl rfl (by decide) fun _ =>
    (decodeSlot_slotWord ..).trans (congrArg (fun f => some (Instr.max g f)) (fieldsSR_bitsSR f))
theorem minn (g : Guard) (f : SRF) : Statement (.minn g f) :=
  of_slot (op := 0x17) rfl rfl (by decide) fun _ =>
    (decodeSlot_slotWord ..).trans (congrArg (fun f => some (Instr.minn g f)) (fieldsSR_bitsSR f))
theorem maxn (g : Guard) (f : SRF) : Statement (.maxn g f) :=
  of_slot (op := 0x18) rfl rfl (by decide) fun _ =>
    (decodeSlot_slotWord ..).trans (congrArg (fun f => some (Instr.maxn g f)) (fieldsSR_bitsSR f))
theorem sel (g : Guard) (f : SRF) : Statement (.sel g f) :=
  of_slot (op := 0x19) rfl rfl (by decide) fun _ =>
    (decodeSlot_slotWord ..).trans (congrArg (fun f => some (Instr.sel g f)) (fieldsSR_bitsSR f))
theorem lea (g : Guard) (f : SRF) : Statement (.lea g f) :=
  of_slot (op := 0x1A) rfl rfl (by decide) fun _ =>
    (decodeSlot_slotWord ..).trans (congrArg (fun f => some (Instr.lea g f)) (fieldsSR_bitsSR f))
theorem cmp (g : Guard) (f : SRF) : Statement (.cmp g f) :=
  of_slot (op := 0x1B) rfl rfl (by decide) fun _ =>
    (decodeSlot_slotWord ..).trans (congrArg (fun f => some (Instr.cmp g f)) (fieldsSR_bitsSR f))
theorem addi (g : Guard) (f : SIF) : Statement (.addi g f) :=
  of_slot (op := 0x20) rfl rfl (by decide) fun _ =>
    (decodeSlot_slotWord ..).trans (congrArg (fun f => some (Instr.addi g f)) (fieldsSI_bitsSI f))
theorem andi (g : Guard) (f : SIF) : Statement (.andi g f) :=
  of_slot (op := 0x21) rfl rfl (by decide) fun _ =>
    (decodeSlot_slotWord ..).trans (congrArg (fun f => some (Instr.andi g f)) (fieldsSI_bitsSI f))
theorem ori (g : Guard) (f : SIF) : Statement (.ori g f) :=
  of_slot (op := 0x22) rfl rfl (by decide) fun _ =>
    (decodeSlot_slotWord ..).trans (congrArg (fun f => some (Instr.ori g f)) (fieldsSI_bitsSI f))
theorem xori (g : Guard) (f : SIF) : Statement (.xori g f) :=
  of_slot (op := 0x23) rfl rfl (by decide) fun _ =>
    (decodeSlot_slotWord ..).trans (congrArg (fun f => some (Instr.xori g f)) (fieldsSI_bitsSI f))
theorem movi (g : Guard) (f : SIF) : Statement (.movi g f) :=
  of_slot (op := 0x24) rfl rfl (by decide) fun _ =>
    (decodeSlot_slotWord ..).trans (congrArg (fun f => some (Instr.movi g f)) (fieldsSI_bitsSI f))
theorem movhi (g : Guard) (f : SIF) : Statement (.movhi g f) :=
  of_slot (op := 0x25) rfl rfl (by decide) fun _ =>
    (decodeSlot_slotWord ..).trans (congrArg (fun f => some (Instr.movhi g f)) (fieldsSI_bitsSI f))
theorem pand (g : Guard) (f : SRF) : Statement (.pand g f) :=
  of_slot (op := 0x30) rfl rfl (by decide) fun _ =>
    (decodeSlot_slotWord ..).trans (congrArg (fun f => some (Instr.pand g f)) (fieldsSR_bitsSR f))
theorem por (g : Guard) (f : SRF) : Statement (.por g f) :=
  of_slot (op := 0x31) rfl rfl (by decide) fun _ =>
    (decodeSlot_slotWord ..).trans (congrArg (fun f => some (Instr.por g f)) (fieldsSR_bitsSR f))
theorem pxor (g : Guard) (f : SRF) : Statement (.pxor g f) :=
  of_slot (op := 0x32) rfl rfl (by decide) fun _ =>
    (decodeSlot_slotWord ..).trans (congrArg (fun f => some (Instr.pxor g f)) (fieldsSR_bitsSR f))
theorem pnot (g : Guard) (f : SRF) : Statement (.pnot g f) :=
  of_slot (op := 0x33) rfl rfl (by decide) fun _ =>
    (decodeSlot_slotWord ..).trans (congrArg (fun f => some (Instr.pnot g f)) (fieldsSR_bitsSR f))
theorem sfadd (g : Guard) (f : SRF) : Statement (.sfadd g f) :=
  of_slot (op := 0x40) rfl rfl (by decide) fun _ =>
    (decodeSlot_slotWord ..).trans (congrArg (fun f => some (Instr.sfadd g f)) (fieldsSR_bitsSR f))
theorem sfsub (g : Guard) (f : SRF) : Statement (.sfsub g f) :=
  of_slot (op := 0x41) rfl rfl (by decide) fun _ =>
    (decodeSlot_slotWord ..).trans (congrArg (fun f => some (Instr.sfsub g f)) (fieldsSR_bitsSR f))
theorem sfmul (g : Guard) (f : SRF) : Statement (.sfmul g f) :=
  of_slot (op := 0x42) rfl rfl (by decide) fun _ =>
    (decodeSlot_slotWord ..).trans (congrArg (fun f => some (Instr.sfmul g f)) (fieldsSR_bitsSR f))
theorem sffma (g : Guard) (f : SRF) : Statement (.sffma g f) :=
  of_slot (op := 0x43) rfl rfl (by decide) fun _ =>
    (decodeSlot_slotWord ..).trans (congrArg (fun f => some (Instr.sffma g f)) (fieldsSR_bitsSR f))
theorem sfdiv (g : Guard) (f : SRF) : Statement (.sfdiv g f) :=
  of_slot (op := 0x44) rfl rfl (by decide) fun _ =>
    (decodeSlot_slotWord ..).trans (congrArg (fun f => some (Instr.sfdiv g f)) (fieldsSR_bitsSR f))
theorem sfsqrt (g : Guard) (f : SRF) : Statement (.sfsqrt g f) :=
  of_slot (op := 0x45) rfl rfl (by decide) fun _ =>
    (decodeSlot_slotWord ..).trans (congrArg (fun f => some (Instr.sfsqrt g f)) (fieldsSR_bitsSR f))
theorem sfcmp (g : Guard) (f : SRF) : Statement (.sfcmp g f) :=
  of_slot (op := 0x46) rfl rfl (by decide) fun _ =>
    (decodeSlot_slotWord ..).trans (congrArg (fun f => some (Instr.sfcmp g f)) (fieldsSR_bitsSR f))
theorem sfcvtI32 (g : Guard) (f : SRF) : Statement (.sfcvtI32 g f) :=
  of_slot (op := 0x47) rfl rfl (by decide) fun _ =>
    (decodeSlot_slotWord ..).trans (congrArg (fun f => some (Instr.sfcvtI32 g f)) (fieldsSR_bitsSR f))
theorem sfcvtF32 (g : Guard) (f : SRF) : Statement (.sfcvtF32 g f) :=
  of_slot (op := 0x48) rfl rfl (by decide) fun _ =>
    (decodeSlot_slotWord ..).trans (congrArg (fun f => some (Instr.sfcvtF32 g f)) (fieldsSR_bitsSR f))
theorem sigget (g : Guard) (f : SRF) : Statement (.sigget g f) :=
  of_slot (op := 0x49) rfl rfl (by decide) fun _ =>
    (decodeSlot_slotWord ..).trans (congrArg (fun f => some (Instr.sigget g f)) (fieldsSR_bitsSR f))
theorem sigset (g : Guard) (f : SRF) : Statement (.sigset g f) :=
  of_slot (op := 0x4A) rfl rfl (by decide) fun _ =>
    (decodeSlot_slotWord ..).trans (congrArg (fun f => some (Instr.sigset g f)) (fieldsSR_bitsSR f))
theorem br (g : Guard) (f : SBF) : Statement (.br g f) :=
  of_slot (op := 0x60) rfl rfl (by decide) fun _ =>
    (decodeSlot_slotWord ..).trans (congrArg (fun f => some (Instr.br g f)) (fieldsSB_bitsSB f))
theorem brp (g : Guard) (f : SBF) : Statement (.brp g f) :=
  of_slot (op := 0x61) rfl rfl (by decide) fun _ =>
    (decodeSlot_slotWord ..).trans (congrArg (fun f => some (Instr.brp g f)) (fieldsSB_bitsSB f))
theorem brsig (g : Guard) (f : SBF) : Statement (.brsig g f) :=
  of_slot (op := 0x62) rfl rfl (by decide) fun _ =>
    (decodeSlot_slotWord ..).trans (congrArg (fun f => some (Instr.brsig g f)) (fieldsSB_bitsSB f))
theorem loop (g : Guard) (f : SBF) : Statement (.loop g f) :=
  of_slot (op := 0x63) rfl rfl (by decide) fun _ =>
    (decodeSlot_slotWord ..).trans (congrArg (fun f => some (Instr.loop g f)) (fieldsSB_bitsSB f))
theorem call (g : Guard) (f : SBF) : Statement (.call g f) :=
  of_slot (op := 0x64) rfl rfl (by decide) fun _ =>
    (decodeSlot_slotWord ..).trans (congrArg (fun f => some (Instr.call g f)) (fieldsSB_bitsSB f))
theorem bri (g : Guard) (f : SRF) : Statement (.bri g f) :=
  of_slot (op := 0x65) rfl rfl (by decide) fun _ =>
    (decodeSlot_slotWord ..).trans (congrArg (fun f => some (Instr.bri g f)) (fieldsSR_bitsSR f))
theorem ret (g : Guard) (f : SRF) : Statement (.ret g f) :=
  of_slot (op := 0x66) rfl rfl (by decide) fun _ =>
    (decodeSlot_slotWord ..).trans (congrArg (fun f => some (Instr.ret g f)) (fieldsSR_bitsSR f))
theorem cread (g : Guard) (f : SRF) : Statement (.cread g f) :=
  of_slot (op := 0x68) rfl rfl (by decide) fun _ =>
    (decodeSlot_slotWord ..).trans (congrArg (fun f => some (Instr.cread g f)) (fieldsSR_bitsSR f))
theorem cwrite (g : Guard) (f : SRF) : Statement (.cwrite g f) :=
  of_slot (op := 0x69) rfl rfl (by decide) fun _ =>
    (decodeSlot_slotWord ..).trans (congrArg (fun f => some (Instr.cwrite g f)) (fieldsSR_bitsSR f))
theorem vadd (g : Guard) (inB : Bool) (f : VF) : Statement (.vadd g inB f) := by
  cases inB <;> exact of_slot (op := 0x01) rfl rfl (by decide) fun _ =>
    (decodeSlot_slotWord ..).trans (congrArg (fun f => some (Instr.vadd g _ f)) (fieldsV_bitsV f))
theorem vsub (g : Guard) (inB : Bool) (f : VF) : Statement (.vsub g inB f) := by
  cases inB <;> exact of_slot (op := 0x02) rfl rfl (by decide) fun _ =>
    (decodeSlot_slotWord ..).trans (congrArg (fun f => some (Instr.vsub g _ f)) (fieldsV_bitsV f))
theorem vmul (g : Guard) (inB : Bool) (f : VF) : Statement (.vmul g inB f) := by
  cases inB <;> exact of_slot (op := 0x03) rfl rfl (by decide) fun _ =>
    (decodeSlot_slotWord ..).trans (congrArg (fun f => some (Instr.vmul g _ f)) (fieldsV_bitsV f))
theorem vmulh (g : Guard) (inB : Bool) (f : VF) : Statement (.vmulh g inB f) := by
  cases inB <;> exact of_slot (op := 0x04) rfl rfl (by decide) fun _ =>
    (decodeSlot_slotWord ..).trans (congrArg (fun f => some (Instr.vmulh g _ f)) (fieldsV_bitsV f))
theorem vmad (g : Guard) (inB : Bool) (f : VF) : Statement (.vmad g inB f) := by
  cases inB <;> exact of_slot (op := 0x05) rfl rfl (by decide) fun _ =>
    (decodeSlot_slotWord ..).trans (congrArg (fun f => some (Instr.vmad g _ f)) (fieldsV_bitsV f))
theorem vand (g : Guard) (inB : Bool) (f : VF) : Statement (.vand g inB f) := by
  cases inB <;> exact of_slot (op := 0x06) rfl rfl (by decide) fun _ =>
    (decodeSlot_slotWord ..).trans (congrArg (fun f => some (Instr.vand g _ f)) (fieldsV_bitsV f))
theorem vor (g : Guard) (inB : Bool) (f : VF) : Statement (.vor g inB f) := by
  cases inB <;> exact of_slot (op := 0x07) rfl rfl (by decide) fun _ =>
    (decodeSlot_slotWord ..).trans (congrArg (fun f => some (Instr.vor g _ f)) (fieldsV_bitsV f))
theorem vxor (g : Guard) (inB : Bool) (f : VF) : Statement (.vxor g inB f) := by
  cases inB <;> exact of_slot (op := 0x08) rfl rfl (by decide) fun _ =>
    (decodeSlot_slotWord ..).trans (congrArg (fun f => some (Instr.vxor g _ f)) (fieldsV_bitsV f))
theorem vnot (g : Guard) (inB : Bool) (f : VF) : Statement (.vnot g inB f) := by
  cases inB <;> exact of_slot (op := 0x09) rfl rfl (by decide) fun _ =>
    (decodeSlot_slotWord ..).trans (congrArg (fun f => some (Instr.vnot g _ f)) (fieldsV_bitsV f))
theorem vshl (g : Guard) (inB : Bool) (f : VF) : Statement (.vshl g inB f) := by
  cases inB <;> exact of_slot (op := 0x0A) rfl rfl (by decide) fun _ =>
    (decodeSlot_slotWord ..).trans (congrArg (fun f => some (Instr.vshl g _ f)) (fieldsV_bitsV f))
theorem vshr (g : Guard) (inB : Bool) (f : VF) : Statement (.vshr g inB f) := by
  cases inB <;> exact of_slot (op := 0x0B) rfl rfl (by decide) fun _ =>
    (decodeSlot_slotWord ..).trans (congrArg (fun f => some (Instr.vshr g _ f)) (fieldsV_bitsV f))
theorem vsar (g : Guard) (inB : Bool) (f : VF) : Statement (.vsar g inB f) := by
  cases inB <;> exact of_slot (op := 0x0C) rfl rfl (by decide) fun _ =>
    (decodeSlot_slotWord ..).trans (congrArg (fun f => some (Instr.vsar g _ f)) (fieldsV_bitsV f))
theorem vmin (g : Guard) (inB : Bool) (f : VF) : Statement (.vmin g inB f) := by
  cases inB <;> exact of_slot (op := 0x0D) rfl rfl (by decide) fun _ =>
    (decodeSlot_slotWord ..).trans (congrArg (fun f => some (Instr.vmin g _ f)) (fieldsV_bitsV f))
theorem vmax (g : Guard) (inB : Bool) (f : VF) : Statement (.vmax g inB f) := by
  cases inB <;> exact of_slot (op := 0x0E) rfl rfl (by decide) fun _ =>
    (decodeSlot_slotWord ..).trans (congrArg (fun f => some (Instr.vmax g _ f)) (fieldsV_bitsV f))
theorem vabsdiff (g : Guard) (inB : Bool) (f : VF) : Statement (.vabsdiff g inB f) := by
  cases inB <;> exact of_slot (op := 0x0F) rfl rfl (by decide) fun _ =>
    (decodeSlot_slotWord ..).trans (congrArg (fun f => some (Instr.vabsdiff g _ f)) (fieldsV_bitsV f))
theorem vcmp (g : Guard) (inB : Bool) (f : VF) : Statement (.vcmp g inB f) := by
  cases inB <;> exact of_slot (op := 0x10) rfl rfl (by decide) fun _ =>
    (decodeSlot_slotWord ..).trans (congrArg (fun f => some (Instr.vcmp g _ f)) (fieldsV_bitsV f))
theorem vsel (g : Guard) (inB : Bool) (f : VF) : Statement (.vsel g inB f) := by
  cases inB <;> exact of_slot (op := 0x11) rfl rfl (by decide) fun _ =>
    (decodeSlot_slotWord ..).trans (congrArg (fun f => some (Instr.vsel g _ f)) (fieldsV_bitsV f))
theorem vpopc (g : Guard) (inB : Bool) (f : VF) : Statement (.vpopc g inB f) := by
  cases inB <;> exact of_slot (op := 0x12) rfl rfl (by decide) fun _ =>
    (decodeSlot_slotWord ..).trans (congrArg (fun f => some (Instr.vpopc g _ f)) (fieldsV_bitsV f))
theorem vfadd (g : Guard) (inB : Bool) (f : VF) : Statement (.vfadd g inB f) := by
  cases inB <;> exact of_slot (op := 0x48) rfl rfl (by decide) fun _ =>
    (decodeSlot_slotWord ..).trans (congrArg (fun f => some (Instr.vfadd g _ f)) (fieldsV_bitsV f))
theorem vfsub (g : Guard) (inB : Bool) (f : VF) : Statement (.vfsub g inB f) := by
  cases inB <;> exact of_slot (op := 0x49) rfl rfl (by decide) fun _ =>
    (decodeSlot_slotWord ..).trans (congrArg (fun f => some (Instr.vfsub g _ f)) (fieldsV_bitsV f))
theorem vfmul (g : Guard) (inB : Bool) (f : VF) : Statement (.vfmul g inB f) := by
  cases inB <;> exact of_slot (op := 0x4A) rfl rfl (by decide) fun _ =>
    (decodeSlot_slotWord ..).trans (congrArg (fun f => some (Instr.vfmul g _ f)) (fieldsV_bitsV f))
theorem vffma (g : Guard) (inB : Bool) (f : VF) : Statement (.vffma g inB f) := by
  cases inB <;> exact of_slot (op := 0x4B) rfl rfl (by decide) fun _ =>
    (decodeSlot_slotWord ..).trans (congrArg (fun f => some (Instr.vffma g _ f)) (fieldsV_bitsV f))
theorem vfmin (g : Guard) (inB : Bool) (f : VF) : Statement (.vfmin g inB f) := by
  cases inB <;> exact of_slot (op := 0x4C) rfl rfl (by decide) fun _ =>
    (decodeSlot_slotWord ..).trans (congrArg (fun f => some (Instr.vfmin g _ f)) (fieldsV_bitsV f))
theorem vfmax (g : Guard) (inB : Bool) (f : VF) : Statement (.vfmax g inB f) := by
  cases inB <;> exact of_slot (op := 0x4D) rfl rfl (by decide) fun _ =>
    (decodeSlot_slotWord ..).trans (congrArg (fun f => some (Instr.vfmax g _ f)) (fieldsV_bitsV f))
theorem vfabs (g : Guard) (inB : Bool) (f : VF) : Statement (.vfabs g inB f) := by
  cases inB <;> exact of_slot (op := 0x4E) rfl rfl (by decide) fun _ =>
    (decodeSlot_slotWord ..).trans (congrArg (fun f => some (Instr.vfabs g _ f)) (fieldsV_bitsV f))
theorem vfneg (g : Guard) (inB : Bool) (f : VF) : Statement (.vfneg g inB f) := by
  cases inB <;> exact of_slot (op := 0x4F) rfl rfl (by decide) fun _ =>
    (decodeSlot_slotWord ..).trans (congrArg (fun f => some (Instr.vfneg g _ f)) (fieldsV_bitsV f))
theorem vfcmp (g : Guard) (inB : Bool) (f : VF) : Statement (.vfcmp g inB f) := by
  cases inB <;> exact of_slot (op := 0x50) rfl rfl (by decide) fun _ =>
    (decodeSlot_slotWord ..).trans (congrArg (fun f => some (Instr.vfcmp g _ f)) (fieldsV_bitsV f))
theorem vrcp (g : Guard) (inB : Bool) (f : VF) : Statement (.vrcp g inB f) := by
  cases inB <;> exact of_slot (op := 0x58) rfl rfl (by decide) fun _ =>
    (decodeSlot_slotWord ..).trans (congrArg (fun f => some (Instr.vrcp g _ f)) (fieldsV_bitsV f))
theorem vrsqrt (g : Guard) (inB : Bool) (f : VF) : Statement (.vrsqrt g inB f) := by
  cases inB <;> exact of_slot (op := 0x59) rfl rfl (by decide) fun _ =>
    (decodeSlot_slotWord ..).trans (congrArg (fun f => some (Instr.vrsqrt g _ f)) (fieldsV_bitsV f))
theorem vexp2 (g : Guard) (inB : Bool) (f : VF) : Statement (.vexp2 g inB f) := by
  cases inB <;> exact of_slot (op := 0x5A) rfl rfl (by decide) fun _ =>
    (decodeSlot_slotWord ..).trans (congrArg (fun f => some (Instr.vexp2 g _ f)) (fieldsV_bitsV f))
theorem vlog2 (g : Guard) (inB : Bool) (f : VF) : Statement (.vlog2 g inB f) := by
  cases inB <;> exact of_slot (op := 0x5B) rfl rfl (by decide) fun _ =>
    (decodeSlot_slotWord ..).trans (congrArg (fun f => some (Instr.vlog2 g _ f)) (fieldsV_bitsV f))
theorem vsigm (g : Guard) (inB : Bool) (f : VF) : Statement (.vsigm g inB f) := by
  cases inB <;> exact of_slot (op := 0x5C) rfl rfl (by decide) fun _ =>
    (decodeSlot_slotWord ..).trans (congrArg (fun f => some (Instr.vsigm g _ f)) (fieldsV_bitsV f))
theorem vcvt (g : Guard) (inB : Bool) (f : VF) : Statement (.vcvt g inB f) := by
  cases inB <;> exact of_slot (op := 0x60) rfl rfl (by decide) fun _ =>
    (decodeSlot_slotWord ..).trans (congrArg (fun f => some (Instr.vcvt g _ f)) (fieldsV_bitsV f))
theorem vcbdec (g : Guard) (inB : Bool) (f : VF) : Statement (.vcbdec g inB f) := by
  cases inB <;> exact of_slot (op := 0x61) rfl rfl (by decide) fun _ =>
    (decodeSlot_slotWord ..).trans (congrArg (fun f => some (Instr.vcbdec g _ f)) (fieldsV_bitsV f))
theorem vcbenc (g : Guard) (inB : Bool) (f : VF) : Statement (.vcbenc g inB f) := by
  cases inB <;> exact of_slot (op := 0x62) rfl rfl (by decide) fun _ =>
    (decodeSlot_slotWord ..).trans (congrArg (fun f => some (Instr.vcbenc g _ f)) (fieldsV_bitsV f))
theorem vplane (g : Guard) (inB : Bool) (f : VF) : Statement (.vplane g inB f) := by
  cases inB <;> exact of_slot (op := 0x68) rfl rfl (by decide) fun _ =>
    (decodeSlot_slotWord ..).trans (congrArg (fun f => some (Instr.vplane g _ f)) (fieldsV_bitsV f))
theorem vunplane (g : Guard) (inB : Bool) (f : VF) : Statement (.vunplane g inB f) := by
  cases inB <;> exact of_slot (op := 0x69) rfl rfl (by decide) fun _ =>
    (decodeSlot_slotWord ..).trans (congrArg (fun f => some (Instr.vunplane g _ f)) (fieldsV_bitsV f))
theorem vpadd (g : Guard) (inB : Bool) (f : VF) : Statement (.vpadd g inB f) := by
  cases inB <;> exact of_slot (op := 0x6A) rfl rfl (by decide) fun _ =>
    (decodeSlot_slotWord ..).trans (congrArg (fun f => some (Instr.vpadd g _ f)) (fieldsV_bitsV f))
theorem vpsub (g : Guard) (inB : Bool) (f : VF) : Statement (.vpsub g inB f) := by
  cases inB <;> exact of_slot (op := 0x6B) rfl rfl (by decide) fun _ =>
    (decodeSlot_slotWord ..).trans (congrArg (fun f => some (Instr.vpsub g _ f)) (fieldsV_bitsV f))
theorem vpand (g : Guard) (inB : Bool) (f : VF) : Statement (.vpand g inB f) := by
  cases inB <;> exact of_slot (op := 0x6C) rfl rfl (by decide) fun _ =>
    (decodeSlot_slotWord ..).trans (congrArg (fun f => some (Instr.vpand g _ f)) (fieldsV_bitsV f))
theorem vpcnt (g : Guard) (inB : Bool) (f : VF) : Statement (.vpcnt g inB f) := by
  cases inB <;> exact of_slot (op := 0x6D) rfl rfl (by decide) fun _ =>
    (decodeSlot_slotWord ..).trans (congrArg (fun f => some (Instr.vpcnt g _ f)) (fieldsV_bitsV f))
theorem vrsum (g : Guard) (inB : Bool) (f : VF) : Statement (.vrsum g inB f) := by
  cases inB <;> exact of_slot (op := 0x70) rfl rfl (by decide) fun _ =>
    (decodeSlot_slotWord ..).trans (congrArg (fun f => some (Instr.vrsum g _ f)) (fieldsV_bitsV f))
theorem vrmax (g : Guard) (inB : Bool) (f : VF) : Statement (.vrmax g inB f) := by
  cases inB <;> exact of_slot (op := 0x71) rfl rfl (by decide) fun _ =>
    (decodeSlot_slotWord ..).trans (congrArg (fun f => some (Instr.vrmax g _ f)) (fieldsV_bitsV f))
theorem vrmin (g : Guard) (inB : Bool) (f : VF) : Statement (.vrmin g inB f) := by
  cases inB <;> exact of_slot (op := 0x72) rfl rfl (by decide) fun _ =>
    (decodeSlot_slotWord ..).trans (congrArg (fun f => some (Instr.vrmin g _ f)) (fieldsV_bitsV f))
theorem vrsigmin (g : Guard) (inB : Bool) (f : VF) : Statement (.vrsigmin g inB f) := by
  cases inB <;> exact of_slot (op := 0x73) rfl rfl (by decide) fun _ =>
    (decodeSlot_slotWord ..).trans (congrArg (fun f => some (Instr.vrsigmin g _ f)) (fieldsV_bitsV f))
theorem vbcast (g : Guard) (inB : Bool) (f : VF) : Statement (.vbcast g inB f) := by
  cases inB <;> exact of_slot (op := 0x74) rfl rfl (by decide) fun _ =>
    (decodeSlot_slotWord ..).trans (congrArg (fun f => some (Instr.vbcast g _ f)) (fieldsV_bitsV f))
theorem vext (g : Guard) (inB : Bool) (f : VF) : Statement (.vext g inB f) := by
  cases inB <;> exact of_slot (op := 0x75) rfl rfl (by decide) fun _ =>
    (decodeSlot_slotWord ..).trans (congrArg (fun f => some (Instr.vext g _ f)) (fieldsV_bitsV f))
theorem vins (g : Guard) (inB : Bool) (f : VF) : Statement (.vins g inB f) := by
  cases inB <;> exact of_slot (op := 0x76) rfl rfl (by decide) fun _ =>
    (decodeSlot_slotWord ..).trans (congrArg (fun f => some (Instr.vins g _ f)) (fieldsV_bitsV f))
theorem vperm (g : Guard) (inB : Bool) (f : VF) : Statement (.vperm g inB f) := by
  cases inB <;> exact of_slot (op := 0x77) rfl rfl (by decide) fun _ =>
    (decodeSlot_slotWord ..).trans (congrArg (fun f => some (Instr.vperm g _ f)) (fieldsV_bitsV f))
theorem vshiftl (g : Guard) (inB : Bool) (f : VF) : Statement (.vshiftl g inB f) := by
  cases inB <;> exact of_slot (op := 0x78) rfl rfl (by decide) fun _ =>
    (decodeSlot_slotWord ..).trans (congrArg (fun f => some (Instr.vshiftl g _ f)) (fieldsV_bitsV f))
theorem viota (g : Guard) (inB : Bool) (f : VF) : Statement (.viota g inB f) := by
  cases inB <;> exact of_slot (op := 0x79) rfl rfl (by decide) fun _ =>
    (decodeSlot_slotWord ..).trans (congrArg (fun f => some (Instr.viota g _ f)) (fieldsV_bitsV f))
theorem vmov (g : Guard) (inB : Bool) (f : VF) : Statement (.vmov g inB f) := by
  cases inB <;> exact of_slot (op := 0x7A) rfl rfl (by decide) fun _ =>
    (decodeSlot_slotWord ..).trans (congrArg (fun f => some (Instr.vmov g _ f)) (fieldsV_bitsV f))
theorem vfill (g : Guard) (inB : Bool) (f : VF) : Statement (.vfill g inB f) := by
  cases inB <;> exact of_slot (op := 0x7B) rfl rfl (by decide) fun _ =>
    (decodeSlot_slotWord ..).trans (congrArg (fun f => some (Instr.vfill g _ f)) (fieldsV_bitsV f))
theorem vsig (g : Guard) (inB : Bool) (f : VF) : Statement (.vsig g inB f) := by
  cases inB <;> exact of_slot (op := 0x80) rfl rfl (by decide) fun _ =>
    (decodeSlot_slotWord ..).trans (congrArg (fun f => some (Instr.vsig g _ f)) (fieldsV_bitsV f))
theorem vsigset (g : Guard) (inB : Bool) (f : VF) : Statement (.vsigset g inB f) := by
  cases inB <;> exact of_slot (op := 0x81) rfl rfl (by decide) fun _ =>
    (decodeSlot_slotWord ..).trans (congrArg (fun f => some (Instr.vsigset g _ f)) (fieldsV_bitsV f))
theorem vfmt (g : Guard) (inB : Bool) (f : VF) : Statement (.vfmt g inB f) := by
  cases inB <;> exact of_slot (op := 0x82) rfl rfl (by decide) fun _ =>
    (decodeSlot_slotWord ..).trans (congrArg (fun f => some (Instr.vfmt g _ f)) (fieldsV_bitsV f))
theorem kand (g : Guard) (inB : Bool) (f : VF) : Statement (.kand g inB f) := by
  cases inB <;> exact of_slot (op := 0x90) rfl rfl (by decide) fun _ =>
    (decodeSlot_slotWord ..).trans (congrArg (fun f => some (Instr.kand g _ f)) (fieldsV_bitsV f))
theorem kor (g : Guard) (inB : Bool) (f : VF) : Statement (.kor g inB f) := by
  cases inB <;> exact of_slot (op := 0x91) rfl rfl (by decide) fun _ =>
    (decodeSlot_slotWord ..).trans (congrArg (fun f => some (Instr.kor g _ f)) (fieldsV_bitsV f))
theorem knot (g : Guard) (inB : Bool) (f : VF) : Statement (.knot g inB f) := by
  cases inB <;> exact of_slot (op := 0x92) rfl rfl (by decide) fun _ =>
    (decodeSlot_slotWord ..).trans (congrArg (fun f => some (Instr.knot g _ f)) (fieldsV_bitsV f))
theorem kpopc (g : Guard) (inB : Bool) (f : VF) : Statement (.kpopc g inB f) := by
  cases inB <;> exact of_slot (op := 0x93) rfl rfl (by decide) fun _ =>
    (decodeSlot_slotWord ..).trans (congrArg (fun f => some (Instr.kpopc g _ f)) (fieldsV_bitsV f))
theorem lease (g : Guard) (f : XCF) : Statement (.lease g f) :=
  of_slot (op := 0x01) rfl rfl (by decide) fun _ =>
    (decodeSlot_slotWord ..).trans (congrArg (fun f => some (Instr.lease g f)) (fieldsXC_bitsXC f))
theorem leaseTry (g : Guard) (f : XCF) : Statement (.leaseTry g f) :=
  of_slot (op := 0x02) rfl rfl (by decide) fun _ =>
    (decodeSlot_slotWord ..).trans (congrArg (fun f => some (Instr.leaseTry g f)) (fieldsXC_bitsXC f))
theorem unlease (g : Guard) (f : XCF) : Statement (.unlease g f) :=
  of_slot (op := 0x03) rfl rfl (by decide) fun _ =>
    (decodeSlot_slotWord ..).trans (congrArg (fun f => some (Instr.unlease g f)) (fieldsXC_bitsXC f))
theorem chainBegin (g : Guard) (f : XCF) : Statement (.chainBegin g f) :=
  of_slot (op := 0x08) rfl rfl (by decide) fun _ =>
    (decodeSlot_slotWord ..).trans (congrArg (fun f => some (Instr.chainBegin g f)) (fieldsXC_bitsXC f))
theorem chainEnd (g : Guard) (f : XCF) : Statement (.chainEnd g f) :=
  of_slot (op := 0x09) rfl rfl (by decide) fun _ =>
    (decodeSlot_slotWord ..).trans (congrArg (fun f => some (Instr.chainEnd g f)) (fieldsXC_bitsXC f))
theorem mmaBf16 (g : Guard) (f : ENF) : Statement (.mmaBf16 g f) :=
  of_slot (op := 0x10) rfl rfl (by decide) fun _ =>
    (decodeSlot_slotWord ..).trans (congrArg (fun f => some (Instr.mmaBf16 g f)) (fieldsEN_bitsEN f))
theorem mmaCb4 (g : Guard) (f : ENF) : Statement (.mmaCb4 g f) :=
  of_slot (op := 0x11) rfl rfl (by decide) fun _ =>
    (decodeSlot_slotWord ..).trans (congrArg (fun f => some (Instr.mmaCb4 g f)) (fieldsEN_bitsEN f))
theorem mmaPlane (g : Guard) (f : ENF) : Statement (.mmaPlane g f) :=
  of_slot (op := 0x12) rfl rfl (by decide) fun _ =>
    (decodeSlot_slotWord ..).trans (congrArg (fun f => some (Instr.mmaPlane g f)) (fieldsEN_bitsEN f))
theorem mgath (g : Guard) (f : ENF) : Statement (.mgath g f) :=
  of_slot (op := 0x18) rfl rfl (by decide) fun _ =>
    (decodeSlot_slotWord ..).trans (congrArg (fun f => some (Instr.mgath g f)) (fieldsEN_bitsEN f))
theorem mldb (g : Guard) (f : ENF) : Statement (.mldb g f) :=
  of_slot (op := 0x19) rfl rfl (by decide) fun _ =>
    (decodeSlot_slotWord ..).trans (congrArg (fun f => some (Instr.mldb g f)) (fieldsEN_bitsEN f))
theorem cbload (g : Guard) (f : ENF) : Statement (.cbload g f) :=
  of_slot (op := 0x1A) rfl rfl (by decide) fun _ =>
    (decodeSlot_slotWord ..).trans (congrArg (fun f => some (Instr.cbload g f)) (fieldsEN_bitsEN f))
theorem accZero (g : Guard) (f : ENF) : Statement (.accZero g f) :=
  of_slot (op := 0x20) rfl rfl (by decide) fun _ =>
    (decodeSlot_slotWord ..).trans (congrArg (fun f => some (Instr.accZero g f)) (fieldsEN_bitsEN f))
theorem accRd (g : Guard) (f : ENF) : Statement (.accRd g f) :=
  of_slot (op := 0x21) rfl rfl (by decide) fun _ =>
    (decodeSlot_slotWord ..).trans (congrArg (fun f => some (Instr.accRd g f)) (fieldsEN_bitsEN f))
theorem accWr (g : Guard) (f : ENF) : Statement (.accWr g f) :=
  of_slot (op := 0x22) rfl rfl (by decide) fun _ =>
    (decodeSlot_slotWord ..).trans (congrArg (fun f => some (Instr.accWr g f)) (fieldsEN_bitsEN f))
theorem ldsRow (g : Guard) (f : MXF) : Statement (.ldsRow g f) :=
  of_slot (op := 0x01) rfl rfl (by decide) fun _ =>
    (decodeSlot_slotWord ..).trans (congrArg (fun f => some (Instr.ldsRow g f)) (fieldsMX_bitsMX f))
theorem ldsW32 (g : Guard) (f : MXF) : Statement (.ldsW32 g f) :=
  of_slot (op := 0x02) rfl rfl (by decide) fun _ =>
    (decodeSlot_slotWord ..).trans (congrArg (fun f => some (Instr.ldsW32 g f)) (fieldsMX_bitsMX f))
theorem ldsW64 (g : Guard) (f : MXF) : Statement (.ldsW64 g f) :=
  of_slot (op := 0x03) rfl rfl (by decide) fun _ =>
    (decodeSlot_slotWord ..).trans (congrArg (fun f => some (Instr.ldsW64 g f)) (fieldsMX_bitsMX f))
theorem ldgRow (g : Guard) (f : MXF) : Statement (.ldgRow g f) :=
  of_slot (op := 0x08) rfl rfl (by decide) fun _ =>
    (decodeSlot_slotWord ..).trans (congrArg (fun f => some (Instr.ldgRow g f)) (fieldsMX_bitsMX f))
theorem ldgW32 (g : Guard) (f : MXF) : Statement (.ldgW32 g f) :=
  of_slot (op := 0x09) rfl rfl (by decide) fun _ =>
    (decodeSlot_slotWord ..).trans (congrArg (fun f => some (Instr.ldgW32 g f)) (fieldsMX_bitsMX f))
theorem ldgW64 (g : Guard) (f : MXF) : Statement (.ldgW64 g f) :=
  of_slot (op := 0x0A) rfl rfl (by decide) fun _ =>
    (decodeSlot_slotWord ..).trans (congrArg (fun f => some (Instr.ldgW64 g f)) (fieldsMX_bitsMX f))
theorem ldgTag (g : Guard) (f : MXF) : Statement (.ldgTag g f) :=
  of_slot (op := 0x0B) rfl rfl (by decide) fun _ =>
    (decodeSlot_slotWord ..).trans (congrArg (fun f => some (Instr.ldgTag g f)) (fieldsMX_bitsMX f))
theorem pfg (g : Guard) (f : MXF) : Statement (.pfg g f) :=
  of_slot (op := 0x10) rfl rfl (by decide) fun _ =>
    (decodeSlot_slotWord ..).trans (congrArg (fun f => some (Instr.pfg g f)) (fieldsMX_bitsMX f))
theorem ldqDrop (g : Guard) (f : MXF) : Statement (.ldqDrop g f) :=
  of_slot (op := 0x11) rfl rfl (by decide) fun _ =>
    (decodeSlot_slotWord ..).trans (congrArg (fun f => some (Instr.ldqDrop g f)) (fieldsMX_bitsMX f))
theorem stsRow (g : Guard) (f : MXF) : Statement (.stsRow g f) :=
  of_slot (op := 0x01) rfl rfl (by decide) fun _ =>
    (decodeSlot_slotWord ..).trans (congrArg (fun f => some (Instr.stsRow g f)) (fieldsMX_bitsMX f))
theorem stsW32 (g : Guard) (f : MXF) : Statement (.stsW32 g f) :=
  of_slot (op := 0x02) rfl rfl (by decide) fun _ =>
    (decodeSlot_slotWord ..).trans (congrArg (fun f => some (Instr.stsW32 g f)) (fieldsMX_bitsMX f))
theorem stsW64 (g : Guard) (f : MXF) : Statement (.stsW64 g f) :=
  of_slot (op := 0x03) rfl rfl (by decide) fun _ =>
    (decodeSlot_slotWord ..).trans (congrArg (fun f => some (Instr.stsW64 g f)) (fieldsMX_bitsMX f))
theorem stgRow (g : Guard) (f : MXF) : Statement (.stgRow g f) :=
  of_slot (op := 0x08) rfl rfl (by decide) fun _ =>
    (decodeSlot_slotWord ..).trans (congrArg (fun f => some (Instr.stgRow g f)) (fieldsMX_bitsMX f))
theorem stgW32 (g : Guard) (f : MXF) : Statement (.stgW32 g f) :=
  of_slot (op := 0x09) rfl rfl (by decide) fun _ =>
    (decodeSlot_slotWord ..).trans (congrArg (fun f => some (Instr.stgW32 g f)) (fieldsMX_bitsMX f))
theorem stgW64 (g : Guard) (f : MXF) : Statement (.stgW64 g f) :=
  of_slot (op := 0x0A) rfl rfl (by decide) fun _ =>
    (decodeSlot_slotWord ..).trans (congrArg (fun f => some (Instr.stgW64 g f)) (fieldsMX_bitsMX f))
theorem stgTag (g : Guard) (f : MXF) : Statement (.stgTag g f) :=
  of_slot (op := 0x0B) rfl rfl (by decide) fun _ =>
    (decodeSlot_slotWord ..).trans (congrArg (fun f => some (Instr.stgTag g f)) (fieldsMX_bitsMX f))
theorem atomAdd (g : Guard) (f : MXF) : Statement (.atomAdd g f) :=
  of_slot (op := 0x20) rfl rfl (by decide) fun _ =>
    (decodeSlot_slotWord ..).trans (congrArg (fun f => some (Instr.atomAdd g f)) (fieldsMX_bitsMX f))
theorem atomMin (g : Guard) (f : MXF) : Statement (.atomMin g f) :=
  of_slot (op := 0x21) rfl rfl (by decide) fun _ =>
    (decodeSlot_slotWord ..).trans (congrArg (fun f => some (Instr.atomMin g f)) (fieldsMX_bitsMX f))
theorem atomMax (g : Guard) (f : MXF) : Statement (.atomMax g f) :=
  of_slot (op := 0x22) rfl rfl (by decide) fun _ =>
    (decodeSlot_slotWord ..).trans (congrArg (fun f => some (Instr.atomMax g f)) (fieldsMX_bitsMX f))
theorem atomAnd (g : Guard) (f : MXF) : Statement (.atomAnd g f) :=
  of_slot (op := 0x23) rfl rfl (by decide) fun _ =>
    (decodeSlot_slotWord ..).trans (congrArg (fun f => some (Instr.atomAnd g f)) (fieldsMX_bitsMX f))
theorem atomOr (g : Guard) (f : MXF) : Statement (.atomOr g f) :=
  of_slot (op := 0x24) rfl rfl (by decide) fun _ =>
    (decodeSlot_slotWord ..).trans (congrArg (fun f => some (Instr.atomOr g f)) (fieldsMX_bitsMX f))
theorem atomXor (g : Guard) (f : MXF) : Statement (.atomXor g f) :=
  of_slot (op := 0x25) rfl rfl (by decide) fun _ =>
    (decodeSlot_slotWord ..).trans (congrArg (fun f => some (Instr.atomXor g f)) (fieldsMX_bitsMX f))
theorem atomXchg (g : Guard) (f : MXF) : Statement (.atomXchg g f) :=
  of_slot (op := 0x26) rfl rfl (by decide) fun _ =>
    (decodeSlot_slotWord ..).trans (congrArg (fun f => some (Instr.atomXchg g f)) (fieldsMX_bitsMX f))
theorem atomCas (g : Guard) (f : MXF) : Statement (.atomCas g f) :=
  of_slot (op := 0x27) rfl rfl (by decide) fun _ =>
    (decodeSlot_slotWord ..).trans (congrArg (fun f => some (Instr.atomCas g f)) (fieldsMX_bitsMX f))
theorem atomFadd (g : Guard) (f : MXF) : Statement (.atomFadd g f) :=
  of_slot (op := 0x28) rfl rfl (by decide) fun _ =>
    (decodeSlot_slotWord ..).trans (congrArg (fun f => some (Instr.atomFadd g f)) (fieldsMX_bitsMX f))
theorem satom (g : Guard) (f : MXF) : Statement (.satom g f) :=
  of_slot (op := 0x30) rfl rfl (by decide) fun _ =>
    (decodeSlot_slotWord ..).trans (congrArg (fun f => some (Instr.satom g f)) (fieldsMX_bitsMX f))
theorem cpyTen (g : Guard) (f : ENF) : Statement (.cpyTen g f) :=
  of_slot (op := 0x01) rfl rfl (by decide) fun _ =>
    (decodeSlot_slotWord ..).trans (congrArg (fun f => some (Instr.cpyTen g f)) (fieldsEN_bitsEN f))
theorem cpyRow (g : Guard) (f : ENF) : Statement (.cpyRow g f) :=
  of_slot (op := 0x02) rfl rfl (by decide) fun _ =>
    (decodeSlot_slotWord ..).trans (congrArg (fun f => some (Instr.cpyRow g f)) (fieldsEN_bitsEN f))
theorem cpyGath (g : Guard) (f : ENF) : Statement (.cpyGath g f) :=
  of_slot (op := 0x03) rfl rfl (by decide) fun _ =>
    (decodeSlot_slotWord ..).trans (congrArg (fun f => some (Instr.cpyGath g f)) (fieldsEN_bitsEN f))
theorem cpyScat (g : Guard) (f : ENF) : Statement (.cpyScat g f) :=
  of_slot (op := 0x04) rfl rfl (by decide) fun _ =>
    (decodeSlot_slotWord ..).trans (congrArg (fun f => some (Instr.cpyScat g f)) (fieldsEN_bitsEN f))
theorem cpySpad (g : Guard) (f : ENF) : Statement (.cpySpad g f) :=
  of_slot (op := 0x05) rfl rfl (by decide) fun _ =>
    (decodeSlot_slotWord ..).trans (congrArg (fun f => some (Instr.cpySpad g f)) (fieldsEN_bitsEN f))
theorem cpyBind (g : Guard) (f : ENF) : Statement (.cpyBind g f) := by
  refine of_slot (op := 0x06) (g := g) (o := bitsEN f) rfl rfl (by decide) fun hw => (decodeSlot_slotWord ..).trans ?_
  have hb : (bitsEN f).getLsbD 12 = false := (bitsEN_ext f (by decide)).trans (by simp [wfInstr, wfInstr] at hw; simp [hw])
  exact congrArg some ((if_neg (by rw [hb]; decide)).trans (congrArg (Instr.cpyBind g) (fieldsEN_bitsEN f)))
theorem cpyBindOff (g : Guard) (f : ENF) : Statement (.cpyBindOff g f) := by
  refine of_slot (op := 0x06) (g := g) (o := bitsEN f) rfl rfl (by decide) fun hw => (decodeSlot_slotWord ..).trans ?_
  have hb : (bitsEN f).getLsbD 12 = true := (bitsEN_ext f (by decide)).trans (by simp [wfInstr, legBindOff] at hw; simp [hw])
  exact congrArg some ((if_pos hb).trans (congrArg (Instr.cpyBindOff g) (fieldsEN_bitsEN f)))
theorem cpyRed (g : Guard) (f : ENF) : Statement (.cpyRed g f) :=
  of_slot (op := 0x07) rfl rfl (by decide) fun _ =>
    (decodeSlot_slotWord ..).trans (congrArg (fun f => some (Instr.cpyRed g f)) (fieldsEN_bitsEN f))
theorem cpyFill (g : Guard) (f : ENF) : Statement (.cpyFill g f) :=
  of_slot (op := 0x08) rfl rfl (by decide) fun _ =>
    (decodeSlot_slotWord ..).trans (congrArg (fun f => some (Instr.cpyFill g f)) (fieldsEN_bitsEN f))
theorem cpyPoll (g : Guard) (f : XCF) : Statement (.cpyPoll g f) := by
  refine of_slot (op := 0x10) (g := g) (o := bitsXC f) rfl rfl (by decide) fun hw => (decodeSlot_slotWord ..).trans ?_
  have hb : (bitsXC f).getLsbD 38 = false := (by simp [wfInstr, wfInstr] at hw; simp [bitsXC, hw])
  exact congrArg some ((if_neg (by rw [hb]; decide)).trans (congrArg (Instr.cpyPoll g) (fieldsXC_bitsXC f)))
theorem cpyPollWin (g : Guard) (f : XCF) : Statement (.cpyPollWin g f) := by
  refine of_slot (op := 0x10) (g := g) (o := bitsXC f) rfl rfl (by decide) fun hw => (decodeSlot_slotWord ..).trans ?_
  have hb : (bitsXC f).getLsbD 38 = true := (by simp [wfInstr, legPollWin] at hw; simp [bitsXC, hw])
  exact congrArg some ((if_pos hb).trans (congrArg (Instr.cpyPollWin g) (fieldsXC_bitsXC f)))
theorem cpyCancel (g : Guard) (f : XCF) : Statement (.cpyCancel g f) := by
  refine of_slot (op := 0x11) (g := g) (o := bitsXC f) rfl rfl (by decide) fun hw => (decodeSlot_slotWord ..).trans ?_
  have hb : (bitsXC f).getLsbD 41 = false := (by simp [wfInstr, wfInstr] at hw; simp [bitsXC, hw])
  exact congrArg some ((if_neg (by rw [hb]; decide)).trans (congrArg (Instr.cpyCancel g) (fieldsXC_bitsXC f)))
theorem cpyCancelAll (g : Guard) (f : XCF) : Statement (.cpyCancelAll g f) := by
  refine of_slot (op := 0x11) (g := g) (o := bitsXC f) rfl rfl (by decide) fun hw => (decodeSlot_slotWord ..).trans ?_
  have hb : (bitsXC f).getLsbD 41 = true := (by have hw := of_decide_eq_true hw; simp [bitsXC, BitVec.getLsbD, hw]; decide)
  exact congrArg some ((if_pos hb).trans (congrArg (Instr.cpyCancelAll g) (fieldsXC_bitsXC f)))
theorem tmap (g : Guard) (f : XCF) : Statement (.tmap g f) :=
  of_slot (op := 0x18) rfl rfl (by decide) fun _ =>
    (decodeSlot_slotWord ..).trans (congrArg (fun f => some (Instr.tmap g f)) (fieldsXC_bitsXC f))
theorem berthSet (g : Guard) (f : XCF) : Statement (.berthSet g f) :=
  of_slot (op := 0x19) rfl rfl (by decide) fun _ =>
    (decodeSlot_slotWord ..).trans (congrArg (fun f => some (Instr.berthSet g f)) (fieldsXC_bitsXC f))
theorem semInit (g : Guard) (f : SYF) : Statement (.semInit g f) :=
  of_slot (op := 0x01) rfl rfl (by decide) fun _ =>
    (decodeSlot_slotWord ..).trans (congrArg (fun f => some (Instr.semInit g f)) (fieldsSY_bitsSY f))
theorem semPost (g : Guard) (f : SYF) : Statement (.semPost g f) :=
  of_slot (op := 0x02) rfl rfl (by decide) fun _ =>
    (decodeSlot_slotWord ..).trans (congrArg (fun f => some (Instr.semPost g f)) (fieldsSY_bitsSY f))
theorem semWait (g : Guard) (f : SYF) : Statement (.semWait g f) :=
  of_slot (op := 0x03) rfl rfl (by decide) fun _ =>
    (decodeSlot_slotWord ..).trans (congrArg (fun f => some (Instr.semWait g f)) (fieldsSY_bitsSY f))
theorem semTry (g : Guard) (f : SYF) : Statement (.semTry g f) :=
  of_slot (op := 0x04) rfl rfl (by decide) fun _ =>
    (decodeSlot_slotWord ..).trans (congrArg (fun f => some (Instr.semTry g f)) (fieldsSY_bitsSY f))
theorem barInit (g : Guard) (f : SYF) : Statement (.barInit g f) :=
  of_slot (op := 0x08) rfl rfl (by decide) fun _ =>
    (decodeSlot_slotWord ..).trans (congrArg (fun f => some (Instr.barInit g f)) (fieldsSY_bitsSY f))
theorem barArrive (g : Guard) (f : SYF) : Statement (.barArrive g f) :=
  of_slot (op := 0x09) rfl rfl (by decide) fun _ =>
    (decodeSlot_slotWord ..).trans (congrArg (fun f => some (Instr.barArrive g f)) (fieldsSY_bitsSY f))
theorem barExpect (g : Guard) (f : SYF) : Statement (.barExpect g f) :=
  of_slot (op := 0x0A) rfl rfl (by decide) fun _ =>
    (decodeSlot_slotWord ..).trans (congrArg (fun f => some (Instr.barExpect g f)) (fieldsSY_bitsSY f))
theorem barWait (g : Guard) (f : SYF) : Statement (.barWait g f) :=
  of_slot (op := 0x0B) rfl rfl (by decide) fun _ =>
    (decodeSlot_slotWord ..).trans (congrArg (fun f => some (Instr.barWait g f)) (fieldsSY_bitsSY f))
theorem barTest (g : Guard) (f : SYF) : Statement (.barTest g f) :=
  of_slot (op := 0x0C) rfl rfl (by decide) fun _ =>
    (decodeSlot_slotWord ..).trans (congrArg (fun f => some (Instr.barTest g f)) (fieldsSY_bitsSY f))
theorem gbar (g : Guard) (f : XCF) : Statement (.gbar g f) :=
  of_slot (op := 0x0D) rfl rfl (by decide) fun _ =>
    (decodeSlot_slotWord ..).trans (congrArg (fun f => some (Instr.gbar g f)) (fieldsXC_bitsXC f))
theorem moor (g : Guard) (f : SYF) : Statement (.moor g f) :=
  of_slot (op := 0x10) rfl rfl (by decide) fun _ =>
    (decodeSlot_slotWord ..).trans (congrArg (fun f => some (Instr.moor g f)) (fieldsSY_bitsSY f))
theorem unmoor (g : Guard) (f : SYF) : Statement (.unmoor g f) :=
  of_slot (op := 0x11) rfl rfl (by decide) fun _ =>
    (decodeSlot_slotWord ..).trans (congrArg (fun f => some (Instr.unmoor g f)) (fieldsSY_bitsSY f))
theorem acq (g : Guard) (f : SYF) : Statement (.acq g f) :=
  of_slot (op := 0x12) rfl rfl (by decide) fun _ =>
    (decodeSlot_slotWord ..).trans (congrArg (fun f => some (Instr.acq g f)) (fieldsSY_bitsSY f))
theorem rel (g : Guard) (f : SYF) : Statement (.rel g f) :=
  of_slot (op := 0x13) rfl rfl (by decide) fun _ =>
    (decodeSlot_slotWord ..).trans (congrArg (fun f => some (Instr.rel g f)) (fieldsSY_bitsSY f))
theorem fence (g : Guard) (f : XCF) : Statement (.fence g f) :=
  of_slot (op := 0x14) rfl rfl (by decide) fun _ =>
    (decodeSlot_slotWord ..).trans (congrArg (fun f => some (Instr.fence g f)) (fieldsXC_bitsXC f))
theorem tkwait (g : Guard) (f : XCF) : Statement (.tkwait g f) :=
  of_slot (op := 0x18) rfl rfl (by decide) fun _ =>
    (decodeSlot_slotWord ..).trans (congrArg (fun f => some (Instr.tkwait g f)) (fieldsXC_bitsXC f))
theorem tkclr (g : Guard) (f : XCF) : Statement (.tkclr g f) :=
  of_slot (op := 0x19) rfl rfl (by decide) fun _ =>
    (decodeSlot_slotWord ..).trans (congrArg (fun f => some (Instr.tkclr g f)) (fieldsXC_bitsXC f))
theorem pipePush (g : Guard) (f : SYF) : Statement (.pipePush g f) :=
  of_slot (op := 0x20) rfl rfl (by decide) fun _ =>
    (decodeSlot_slotWord ..).trans (congrArg (fun f => some (Instr.pipePush g f)) (fieldsSY_bitsSY f))
theorem pipePop (g : Guard) (f : SYF) : Statement (.pipePop g f) := by
  refine of_slot (op := 0x21) (g := g) (o := bitsSY f) rfl rfl (by decide) fun hw => (decodeSlot_slotWord ..).trans ?_
  have hb : (bitsSY f).getLsbD 20 = false := (bitsSY_ext f (by decide)).trans (by simp [wfInstr, wfInstr] at hw; simp [hw])
  exact congrArg some ((if_neg (by rw [hb]; decide)).trans (congrArg (Instr.pipePop g) (fieldsSY_bitsSY f)))
theorem pipePopTry (g : Guard) (f : SYF) : Statement (.pipePopTry g f) := by
  refine of_slot (op := 0x21) (g := g) (o := bitsSY f) rfl rfl (by decide) fun hw => (decodeSlot_slotWord ..).trans ?_
  have hb : (bitsSY f).getLsbD 20 = true := (bitsSY_ext f (by decide)).trans (by simp [wfInstr, legPipePopTry] at hw; rw [BitVec.getLsbD, Nat.testBit_eq_decide_div_mod_eq]; simp; omega)
  exact congrArg some ((if_pos hb).trans (congrArg (Instr.pipePopTry g) (fieldsSY_bitsSY f)))
theorem qPush (g : Guard) (f : SYF) : Statement (.qPush g f) :=
  of_slot (op := 0x28) rfl rfl (by decide) fun _ =>
    (decodeSlot_slotWord ..).trans (congrArg (fun f => some (Instr.qPush g f)) (fieldsSY_bitsSY f))
theorem qPop (g : Guard) (f : SYF) : Statement (.qPop g f) := by
  refine of_slot (op := 0x29) (g := g) (o := bitsSY f) rfl rfl (by decide) fun hw => (decodeSlot_slotWord ..).trans ?_
  have hb : (bitsSY f).getLsbD 24 = false := (bitsSY_ext f (by decide)).trans (by simp [wfInstr, wfInstr] at hw; simp [hw])
  exact congrArg some ((if_neg (by rw [hb]; decide)).trans (congrArg (Instr.qPop g) (fieldsSY_bitsSY f)))
theorem qPopTry (g : Guard) (f : SYF) : Statement (.qPopTry g f) := by
  refine of_slot (op := 0x29) (g := g) (o := bitsSY f) rfl rfl (by decide) fun hw => (decodeSlot_slotWord ..).trans ?_
  have hb : (bitsSY f).getLsbD 24 = true := (bitsSY_ext f (by decide)).trans (by simp [wfInstr, legQPopTry] at hw; simp [hw])
  exact congrArg some ((if_pos hb).trans (congrArg (Instr.qPopTry g) (fieldsSY_bitsSY f)))
theorem qTry (g : Guard) (f : SYF) : Statement (.qTry g f) :=
  of_slot (op := 0x2A) rfl rfl (by decide) fun _ =>
    (decodeSlot_slotWord ..).trans (congrArg (fun f => some (Instr.qTry g f)) (fieldsSY_bitsSY f))
theorem qPeek (g : Guard) (f : SYF) : Statement (.qPeek g f) :=
  of_slot (op := 0x2B) rfl rfl (by decide) fun _ =>
    (decodeSlot_slotWord ..).trans (congrArg (fun f => some (Instr.qPeek g f)) (fieldsSY_bitsSY f))
theorem qInfo (g : Guard) (f : SYF) : Statement (.qInfo g f) :=
  of_slot (op := 0x2C) rfl rfl (by decide) fun _ =>
    (decodeSlot_slotWord ..).trans (congrArg (fun f => some (Instr.qInfo g f)) (fieldsSY_bitsSY f))
theorem spawn (g : Guard) (f : SYF) : Statement (.spawn g f) :=
  of_slot (op := 0x30) rfl rfl (by decide) fun _ =>
    (decodeSlot_slotWord ..).trans (congrArg (fun f => some (Instr.spawn g f)) (fieldsSY_bitsSY f))
theorem taskEnd (g : Guard) (f : XCF) : Statement (.taskEnd g f) :=
  of_slot (op := 0x31) rfl rfl (by decide) fun _ =>
    (decodeSlot_slotWord ..).trans (congrArg (fun f => some (Instr.taskEnd g f)) (fieldsXC_bitsXC f))
theorem taskAbandon (g : Guard) (f : XCF) : Statement (.taskAbandon g f) :=
  of_slot (op := 0x32) rfl rfl (by decide) fun _ =>
    (decodeSlot_slotWord ..).trans (congrArg (fun f => some (Instr.taskAbandon g f)) (fieldsXC_bitsXC f))
theorem tsGet (g : Guard) (f : SYF) : Statement (.tsGet g f) :=
  of_slot (op := 0x33) rfl rfl (by decide) fun _ =>
    (decodeSlot_slotWord ..).trans (congrArg (fun f => some (Instr.tsGet g f)) (fieldsSY_bitsSY f))
theorem bankRel (g : Guard) (f : XCF) : Statement (.bankRel g f) :=
  of_slot (op := 0x38) rfl rfl (by decide) fun _ =>
    (decodeSlot_slotWord ..).trans (congrArg (fun f => some (Instr.bankRel g f)) (fieldsXC_bitsXC f))
theorem hintSucc (g : Guard) (f : XCF) : Statement (.hintSucc g f) :=
  of_slot (op := 0x39) rfl rfl (by decide) fun _ =>
    (decodeSlot_slotWord ..).trans (congrArg (fun f => some (Instr.hintSucc g f)) (fieldsXC_bitsXC f))
theorem waitvis (g : Guard) (f : XCF) : Statement (.waitvis g f) :=
  of_slot (op := 0x3A) rfl rfl (by decide) fun _ =>
    (decodeSlot_slotWord ..).trans (congrArg (fun f => some (Instr.waitvis g f)) (fieldsXC_bitsXC f))
theorem complete (g : Guard) (f : SYF) : Statement (.complete g f) :=
  of_slot (op := 0x3B) rfl rfl (by decide) fun _ =>
    (decodeSlot_slotWord ..).trans (congrArg (fun f => some (Instr.complete g f)) (fieldsSY_bitsSY f))
theorem phase (g : Guard) (f : XCF) : Statement (.phase g f) :=
  of_slot (op := 0x3C) rfl rfl (by decide) fun _ =>
    (decodeSlot_slotWord ..).trans (congrArg (fun f => some (Instr.phase g f)) (fieldsXC_bitsXC f))
theorem trap (g : Guard) (f : XCF) : Statement (.trap g f) :=
  of_slot (op := 0x40) rfl rfl (by decide) fun _ =>
    (decodeSlot_slotWord ..).trans (congrArg (fun f => some (Instr.trap g f)) (fieldsXC_bitsXC f))
theorem rett (g : Guard) (f : XCF) : Statement (.rett g f) :=
  of_slot (op := 0x41) rfl rfl (by decide) fun _ =>
    (decodeSlot_slotWord ..).trans (congrArg (fun f => some (Instr.rett g f)) (fieldsXC_bitsXC f))
theorem yield (g : Guard) (f : XCF) : Statement (.yield g f) :=
  of_slot (op := 0x42) rfl rfl (by decide) fun _ =>
    (decodeSlot_slotWord ..).trans (congrArg (fun f => some (Instr.yield g f)) (fieldsXC_bitsXC f))
theorem sleep (g : Guard) (f : XCF) : Statement (.sleep g f) :=
  of_slot (op := 0x43) rfl rfl (by decide) fun _ =>
    (decodeSlot_slotWord ..).trans (congrArg (fun f => some (Instr.sleep g f)) (fieldsXC_bitsXC f))
theorem endCtx (g : Guard) (f : XCF) : Statement (.endCtx g f) :=
  of_slot (op := 0x44) rfl rfl (by decide) fun _ =>
    (decodeSlot_slotWord ..).trans (congrArg (fun f => some (Instr.endCtx g f)) (fieldsXC_bitsXC f))
theorem nop (ctl : BitVec 32) : Statement (.nop ctl) := of_none rfl
theorem resultVisible (c : Nat) : Statement (.resultVisible c) := of_none rfl
theorem trapEntry (c : Nat) : Statement (.trapEntry c) := of_none rfl
theorem loadEntryReturn (c : Nat) : Statement (.loadEntryReturn c) := of_none rfl
theorem globalAccessPerformed (op piece pick : Nat) : Statement (.globalAccessPerformed op piece pick) := of_none rfl
theorem atomicAtHome (op : Nat) : Statement (.atomicAtHome op) := of_none rfl
theorem pageWalkComplete (w : Nat) : Statement (.pageWalkComplete w) := of_none rfl
theorem copyStart (c e : Nat) : Statement (.copyStart c e) := of_none rfl
theorem berthGrant (t : Nat) : Statement (.berthGrant t) := of_none rfl
theorem copySector (c e j pick : Nat) : Statement (.copySector c e j pick) := of_none rfl
theorem streamRowArrive (c q slot : Nat) : Statement (.streamRowArrive c q slot) := of_none rfl
theorem sectorPost (p : Nat) : Statement (.sectorPost p) := of_none rfl
theorem syncOpAtHome (op : Nat) : Statement (.syncOpAtHome op) := of_none rfl
theorem syncAnswer (c : Nat) : Statement (.syncAnswer c) := of_none rfl
theorem queueOpAtHome (op : Nat) : Statement (.queueOpAtHome op) := of_none rfl
theorem pipeRowArrive (p : Nat) : Statement (.pipeRowArrive p) := of_none rfl
theorem tokenWaitRelease (c : Nat) : Statement (.tokenWaitRelease c) := of_none rfl
theorem leaseGrant (t : Nat) : Statement (.leaseGrant t) := of_none rfl
theorem mmaStep (t op i j k : Nat) : Statement (.mmaStep t op i j k) := of_none rfl
theorem mgathFill (t op : Nat) : Statement (.mgathFill t op) := of_none rfl
theorem mldbLoad (t op : Nat) : Statement (.mldbLoad t op) := of_none rfl
theorem accOpPerformed (t op : Nat) : Statement (.accOpPerformed t op) := of_none rfl
theorem chainComplete (t : Nat) : Statement (.chainComplete t) := of_none rfl
theorem chainOverrun (t : Nat) : Statement (.chainOverrun t) := of_none rfl
theorem sleepDeadline (c : Nat) : Statement (.sleepDeadline c) := of_none rfl
theorem preemptRequest (c : Nat) : Statement (.preemptRequest c) := of_none rfl
theorem contextSave (c : Nat) : Statement (.contextSave c) := of_none rfl
theorem restoreRequest (gr : Nat) : Statement (.restoreRequest gr) := of_none rfl
theorem contextRestore (c : Nat) : Statement (.contextRestore c) := of_none rfl
theorem launchPop  : Statement (.launchPop) := of_none rfl
theorem ticketReserve (k : Nat) : Statement (.ticketReserve k) := of_none rfl
theorem preemptTimeout (k : Nat) : Statement (.preemptTimeout k) := of_none rfl
theorem groupReady (gr : Nat) : Statement (.groupReady gr) := of_none rfl
theorem bankFree (t b : Nat) : Statement (.bankFree t b) := of_none rfl
theorem completionRecordWrite (l : Nat) : Statement (.completionRecordWrite l) := of_none rfl
theorem nodeFire (n : Nat) : Statement (.nodeFire n) := of_none rfl
theorem auditReplay (a : Nat) : Statement (.auditReplay a) := of_none rfl
theorem auditCompare (a : Nat) : Statement (.auditCompare a) := of_none rfl
theorem taskDispatch (d t : Nat) : Statement (.taskDispatch d t) := of_none rfl
theorem taskCommit (d : Nat) : Statement (.taskCommit d) := of_none rfl
theorem domainComplete (d : Nat) : Statement (.domainComplete d) := of_none rfl
theorem loadCodeObject (fn : Nat) : Statement (.loadCodeObject fn) := of_none rfl
theorem unload (fn : Nat) : Statement (.unload fn) := of_none rfl
theorem domainOpen (fn : Nat) : Statement (.domainOpen fn) := of_none rfl
theorem nodeReleaseCancel (fn : Nat) : Statement (.nodeReleaseCancel fn) := of_none rfl
theorem readMarginTable (fn : Nat) : Statement (.readMarginTable fn) := of_none rfl
theorem attestationQuote (fn : Nat) : Statement (.attestationQuote fn) := of_none rfl
theorem keyLoad (fn : Nat) : Statement (.keyLoad fn) := of_none rfl
theorem keyRevoke (fn : Nat) : Statement (.keyRevoke fn) := of_none rfl
theorem raiseMinsvn (fn : Nat) : Statement (.raiseMinsvn fn) := of_none rfl
theorem guardBandHint (fn : Nat) : Statement (.guardBandHint fn) := of_none rfl
theorem writeSignerDigest (fn : Nat) : Statement (.writeSignerDigest fn) := of_none rfl
theorem lqtailWrite (fn q : Nat) (v : Word) : Statement (.lqtailWrite fn q v) := of_none rfl
theorem lqcfgWrite (fn q : Nat) (v : Word) : Statement (.lqcfgWrite fn q v) := of_none rfl
theorem tinvWrite (fn : Nat) (v : Word) : Statement (.tinvWrite fn v) := of_none rfl
theorem tsyncRead (fn : Nat) : Statement (.tsyncRead fn) := of_none rfl
theorem partWrite (fn w : Nat) (v : Word) : Statement (.partWrite fn w v) := of_none rfl
theorem pwinWrite (fn : Nat) (v : Word) : Statement (.pwinWrite fn v) := of_none rfl
theorem injWrite (t : Nat) (v : Word) : Statement (.injWrite t v) := of_none rfl
theorem devidWrite (v : Word) : Statement (.devidWrite v) := of_none rfl
theorem rlogheadWrite (v : Word) : Statement (.rlogheadWrite v) := of_none rfl
theorem registerWrite (r : RegAccess) : Statement (.registerWrite r) := of_none rfl
theorem deviceReset (b : BootReport) : Statement (.deviceReset b) := of_none rfl
theorem functionLevelReset (fn : Nat) : Statement (.functionLevelReset fn) := of_none rfl
theorem timingReplay (t fails : Nat) : Statement (.timingReplay t fails) := of_none rfl
theorem marginUpWindow (t : Nat) : Statement (.marginUpWindow t) := of_none rfl
theorem marginDownWindow (t : Nat) : Statement (.marginDownWindow t) := of_none rfl
theorem tileDrained (t : Nat) : Statement (.tileDrained t) := of_none rfl
theorem powerStateEnter (t : Nat) : Statement (.powerStateEnter t) := of_none rfl
theorem tileWake (t : Nat) : Statement (.tileWake t) := of_none rfl
theorem powerMeasure (watts : Nat) (busy : List (Nat × Nat)) : Statement (.powerMeasure watts busy) := of_none rfl
theorem boostLeaseExpire (t : Nat) : Statement (.boostLeaseExpire t) := of_none rfl
theorem budgetMessage (m : BudgetMsg) : Statement (.budgetMessage m) := of_none rfl
theorem budgetLeaseExpire (i : Nat) : Statement (.budgetLeaseExpire i) := of_none rfl
theorem thermalLimit  : Statement (.thermalLimit) := of_none rfl
theorem dramQuarantine (q : Quarantine) : Statement (.dramQuarantine q) := of_none rfl
theorem ucieLinkDown (u : UcieDown) : Statement (.ucieLinkDown u) := of_none rfl
theorem portRetrain (p : Nat) : Statement (.portRetrain p) := of_none rfl
theorem portTraining (p lanes peer tag : Nat) : Statement (.portTraining p lanes peer tag) := of_none rfl
theorem timeSync (inSync : Bool) : Statement (.timeSync inSync) := of_none rfl
theorem remoteAccess (r : RemoteReq) : Statement (.remoteAccess r) := of_none rfl
theorem hostMemoryWrite (fn va : Nat) (bytes : List Byte) : Statement (.hostMemoryWrite fn va bytes) := of_none rfl
theorem tmapCbloadReadArrive (c : Nat) : Statement (.tmapCbloadReadArrive c) := of_none rfl
theorem mbdoorWrite (fn : Nat) (v : Word) : Statement (.mbdoorWrite fn v) := of_none rfl
theorem launchCancel (l : Nat) : Statement (.launchCancel l) := of_none rfl
theorem thermalRecovery  : Statement (.thermalRecovery) := of_none rfl
theorem wearIntegration (t secs mv : Nat) (sense : WearSense) : Statement (.wearIntegration t secs mv sense) := of_none rfl
theorem hbmScrub (pa : Nat) (e : ScrubError) : Statement (.hbmScrub pa e) := of_none rfl
theorem clockStretch (t periods : Nat) : Statement (.clockStretch t periods) := of_none rfl

end Sys2Proof.Laws.SlotRoundTrip
end

