-- ==== Sys2Proof/Machine/RegRead.lean ====
section
/-!
DEFINITION. What the registers of BAR0 and BAR2 read as (20 R475). A read changes nothing but what TSYNC returned, which
TSYNC_READ does, and the power state of a tile whose registers are read (`regReadBy`), so its value is no step.
-/
namespace Sys2Proof.Machine

def bit (b : Bool) (n : Nat) : Nat := if b then 2 ^ n else 0
def stNo (x : TileSt) : Nat := match x with
  | .enabled => 0
  | .draining => 1
  | .fenced => 2
  | .spare => 3
  | .disabled => 4
def pstNo (x : PowerSt) : Nat := match x with
  | .run => 0
  | .idle => 1
  | .docked => 2
  | .drydock => 3
def portNo (x : PortSt) : Nat := match x with
  | .down => 0
  | .training => 1
  | .up => 2
  | .degraded => 3
  | .failed => 4

/-- FSTAT (R475, R481). -/
def fstat (s : State) (fn : Nat) : Nat := bit ((s.fn fn).ready && s.dev.boot.isNone) 0 + bit (s.fn fn).flr 1 + fn * 2 ^ 8
/-- MBSTAT (R478). -/
def mbstat (m : Mail) : Nat := bit m.cmd.isSome 0 + bit m.drop 1 + m.cause * 2 ^ 8
/-- TSTAT (19 R451). -/
def tstat (v : Svc) : Nat := stNo v.st * 2 ^ 29 + pstNo v.pst * 2 ^ 27 + v.bin * 2 ^ 24 + v.ceil * 2 ^ 21 + v.mvNow * 2 ^ 11
/-- LINKSTAT (R486, R487). -/
def linkstat (d : Dev) : Nat := (d.ports.toList.zipIdx.map fun x => portNo x.1.st * 2 ^ (3 * x.2)).sum + bit d.sync 36
/-- ENTILES (01 R17). -/
def entiles (d : Dev) : Nat := (d.tdmap.toList.map fun m => popN 13 m.toNat).sum

/-- The 8-byte register of BAR0 at offset `o`; 0 where there is none. -/
def readBar0 (s : State) (fn o : Nat) : Nat :=
  let f := s.fn fn
  if o = 0 then fstat s fn
  else if f.flr then 0
  else if o = 0x0110 then mbstat f.mail
  else if o = 0x0100 then f.mail.addr.toNat
  else if s.dev.boot.isSome then 0
  else if o = 0x0008 then f.recfail.toNat
  else if 0x1000 ≤ o && o < 0x1200 then
    let q := s.lq (16 * fn + (o - 0x1000) / 32)
    if o % 32 = 0 then q.base.toNat else if o % 32 = 8 then q.cfg.toNat else if o % 32 = 16 then q.tail.toNat else q.head.toNat
  else if 0x4000 ≤ o && o < 0x6000 then bitsOf (64 * (o % 32 / 8)) 64 ((look ((o - 0x4000) / 32) f.ranges).getD 0).toNat
  else if o = 0x6000 then f.ptroot.toNat
  else if o = 0x6010 then f.tsync.toNat
  else if o = 0x6100 then f.ltol.toNat
  else if 0xE000 ≤ o && o < 0xE200 then bitsOf (64 * (o % 16 / 8)) 64 (f.msix.toList.getD ((o - 0xE000) / 16) 0).toNat
  else if o = 0xF000 then f.pba.toNat
  else 0

/-- A register of a tile (19 R451). -/
def readTile (v : Svc) (o : Nat) : Nat :=
  if o = 0 then tstat v else if o = 0x08 then v.trepl else if o = 0x10 then v.harderr else if o = 0x18 then v.inj.toNat
  else if o = 0x20 then v.hours else if o = 0x28 then v.susp else if o = 0x30 then v.holdab else 0

/-- KEYOWNk (18 R443). -/
def keyOwn (s : State) (k : Nat) : Nat := (s.keySlot k).kst * 2 ^ 8 + (s.keySlot k).own

/-- The 8-byte word of BAR2 at offset `o`. -/
def readBar2 (s : State) (o : Nat) : Nat :=
  let d := s.dev
  if o = 0x7000 then d.rlogBase.toNat else if o = 0x7008 then d.rlogCfg.toNat else if o = 0x7010 then d.rlogTail.toNat
  else if o = 0x7018 then d.rlogHead.toNat else if o = 0x7020 then d.qthresh
  else if 0x10000 ≤ o && o < 0x18000 then keyOwn s ((o - 0x10000) / 4) + keyOwn s ((o - 0x10000) / 4 + 1) * 2 ^ 32
  else if 0x18000 ≤ o && o < 0x18000 + 16 * 65 then (if o % 16 = 0 then (s.fn ((o - 0x18000) / 16)).pwin.toNat else 0)
  else if 0x19000 ≤ o && o < 0x19000 + 16 * 65 then bitsOf (8 * (o % 16)) 64 (s.fn ((o - 0x19000) / 16)).part.toNat
  else if 0x1C000 ≤ o && o < 0x1C020 then
    (d.tdmap.toList.getD ((o - 0x1C000) / 4) 0).toNat + (d.tdmap.toList.getD ((o - 0x1C000) / 4 + 1) 0).toNat * 2 ^ 32
  else if o = 0x1C020 then entiles d
  else if 0x1D000 ≤ o && o < 0x1D040 then d.dspwait.toList.getD ((o - 0x1D000) / 8) 0
  else if o = 0x1E000 then d.rbfloor else if o = 0x1E008 then s.rbcap
  else if o = 0x1F000 then d.auditcfg.toNat else if o = 0x1F008 then d.auditlog.toNat
  else if o = 0x1F100 then d.devid + d.dtag * 2 ^ 16 else if o = 0x1F108 then linkstat d
  else if 0x20000 ≤ o && o < 0x24000 && tileIdOk ((o - 0x20000) / 128) then readTile (s.tile ((o - 0x20000) / 128)).svc (o % 128)
  else 0

/-- What a read of 4 or 8 bytes returns; of any other size, or unaligned, zero. After a failed boot only FSTAT and the mailbox
answer (R483). -/
def readReg (s : State) (fn : Nat) (bar2 : Bool) (off size : Nat) : Nat :=
  if !(size = 4 || size = 8) || off % size != 0 || 64 < fn || (bar2 && (fn != 0 || s.dev.boot.isSome)) then 0
  else bitsOf (8 * (off % 8)) (8 * size) (if bar2 then readBar2 s (off / 8 * 8) else readBar0 s fn (off / 8 * 8))

end Sys2Proof.Machine
end

