-- ==== Sys2Proof/Tests/Slice0.lean ====
section
/-!
SUPPORT. Small tests of the model, and a state and operands that meet the hypotheses of every statement.
-/
set_option Elab.async false

namespace Sys2Proof.Tests

open Sys2Proof Sys2Proof.Machine Sys2Proof.Claims

/-! ### Words for tests -/

def isOk {α : Type} (r : Op α) : Bool :=
  match r with
  | .ok _ => true
  | .error _ => false
/-- What an operation answers. -/
def got {α : Type} (d : α) (r : Op α) : α :=
  match r with
  | .ok x => x
  | .error _ => d
theorem ok_got {α : Type} (d : α) (r : Op α) (h : isOk r = true) : r = .ok (got d r) := by
  cases r with
  | ok x => rfl
  | error e => cases h
/-- An operation answers with this value. -/
def gives {α : Type} [DecidableEq α] (r : Op α) (x : α) : Bool :=
  match r with
  | .ok y => decide (y = x)
  | .error _ => false
theorem gives_eq {α : Type} [DecidableEq α] {r : Op α} {x : α} (h : gives r x = true) : r = .ok x := by
  cases r with
  | ok y => exact congrArg _ (of_decide_eq_true h)
  | error e => cases h
theorem ready {i : Instr} {s : State} (h : readyB i s = true) : Ready i s := (readyB_iff i s).1 h
/-- A check that every member of a list passes. -/
theorem each {α : Type} {l : List α} {p : α → Bool} {q : α → Prop} (h : l.all p = true) (k : ∀ x, p x = true → q x) :
    ∀ x ∈ l, q x := fun x hx => k x (List.all_eq_true.mp h x hx)

/-- The state a step answers, or the state before. -/
def after (o : Host.Outcome State Fault Refusal) (s : State) : State :=
  match o with
  | .next t => t
  | _ => s
/-- The guard that always lets execute. -/
def g0 : Guard := ⟨0, false⟩
/-- The machine after reset with the context changed. -/
def onCtx (f : Ctx → Ctx) : State := { State.reset with cur := f State.reset.cur }
/-- Scalar registers set. -/
def setS (l : List (Nat × Word)) (c : Ctx) : Ctx :=
  { c with regs := l.foldl (fun r x => r.setScalar (BitVec.ofNat 5 x.1) ⟨x.2, 24⟩) c.regs }
def withS (l : List (Nat × Word)) : State := onCtx (setS l)

end Sys2Proof.Tests

namespace Sys2Proof.Tests

open Sys2Proof Sys2Proof.Machine Sys2Proof.Claims

/-! ### Slot S -/

/-- S1 is −2^63, S2 is −1, S3 is 0, S4 is 1.0 in binary32. -/
def sS : State := withS [(1, 0x8000000000000000), (2, 0xFFFFFFFFFFFFFFFF), (4, 0x3F800000)]
/-- sd 3, sa 1, sb 2. -/
def f12 : SRF := ⟨3, 1, 2, 0, 0, 0, 0, 0⟩
/-- sd 3, sa 1, sb 0: the second source is 0. -/
def f10 : SRF := ⟨3, 1, 0, 0, 0, 0, 0, 0⟩

/-- A test that hypotheses of two sources hold. -/
def twoB (mk : Guard → SRF → Instr) (f : SRF) (s : State) (a b : Scalar) : Bool :=
  readyB (mk g0 f) s && gives (srcS (staged (mk g0 f) s) f 1) a && gives (srcS (staged (mk g0 f) s) f 2) b
theorem two {mk : Guard → SRF → Instr} {f : SRF} {s : State} {a b : Scalar} (h : twoB mk f s a b = true) :
    Ready (mk g0 f) s ∧ Src (mk g0 f) s f 1 a ∧ Src (mk g0 f) s f 2 b := by
  simp only [twoB, Bool.and_eq_true] at h
  exact ⟨ready h.1.1, gives_eq h.1.2, gives_eq h.2⟩

/-- Two sources: every operation of slot S that takes two, on −2^63 and −1, on a shift by 63 among them. -/
theorem test_hyp_twoScalars : ∀ mk ∈ [Instr.add, .sub, .mul, .mulh, .mulhn, .div, .divn, .rem, .remn, .and, .or, .xor, .andn, .min, .max,
      .minn, .maxn, .clz, .ctz, .popc, .shl, .shr, .sar, .rot, .sel, .lea, .cmp, .sfadd, .sfsub, .sfmul, .sfdiv, .sfcmp, .sffma,
      .sfsqrt, .sfcvtI32, .sfcvtF32, .sigget, .sigset, .cwrite],
    Ready (mk g0 f12) sS ∧ Src (mk g0 f12) sS f12 1 ⟨0x8000000000000000, 24⟩ ∧ Src (mk g0 f12) sS f12 2 ⟨0xFFFFFFFFFFFFFFFF, 24⟩ :=
  each (p := fun mk => twoB mk f12 sS ⟨0x8000000000000000, 24⟩ ⟨0xFFFFFFFFFFFFFFFF, 24⟩) (by decide +kernel) fun _ => two

/-- The divisions with divisor 0. -/
theorem test_hyp_divisionByZero : ∀ mk ∈ [Instr.div, .divn, .rem, .remn],
    Ready (mk g0 f10) sS ∧ Src (mk g0 f10) sS f10 1 ⟨0x8000000000000000, 24⟩ ∧ Src (mk g0 f10) sS f10 2 ⟨0, 24⟩ :=
  each (p := fun mk => twoB mk f10 sS ⟨0x8000000000000000, 24⟩ ⟨0, 24⟩) (by decide +kernel) fun _ => two

/-- ext for the other forms: the shift amount 63 in ext, SEL of a float, LEA of one source, a conversion with its third source. -/
def fExt (n : BitVec 19) : SRF := { f12 with ext := n }
theorem test_hyp_extForms :
    (∀ mk ∈ [Instr.shl, .shr, .sar, .rot], Ready (mk g0 (fExt 0x7F)) sS ∧ Src (mk g0 (fExt 0x7F)) sS (fExt 0x7F) 1 ⟨0x8000000000000000, 24⟩
      ∧ Src (mk g0 (fExt 0x7F)) sS (fExt 0x7F) 2 ⟨0xFFFFFFFFFFFFFFFF, 24⟩)
    ∧ (∀ mk ∈ [Instr.add, .sub, .mul, .sel], Ready (mk g0 (fExt 1)) sS ∧ Src (mk g0 (fExt 1)) sS (fExt 1) 1 ⟨0x8000000000000000, 24⟩
      ∧ Src (mk g0 (fExt 1)) sS (fExt 1) 2 ⟨0xFFFFFFFFFFFFFFFF, 24⟩)
    ∧ (∀ mk ∈ [Instr.lea], Ready (mk g0 (fExt 0x10000)) sS ∧ Src (mk g0 (fExt 0x10000)) sS (fExt 0x10000) 1 ⟨0x8000000000000000, 24⟩
      ∧ Src (mk g0 (fExt 0x10000)) sS (fExt 0x10000) 2 ⟨0xFFFFFFFFFFFFFFFF, 24⟩)
    ∧ Src (.sffma g0 f12) sS f12 3 ⟨0, 24⟩ :=
  ⟨each (p := fun mk => twoB mk (fExt 0x7F) sS ⟨0x8000000000000000, 24⟩ ⟨0xFFFFFFFFFFFFFFFF, 24⟩) (by decide +kernel) fun _ => two,
    each (p := fun mk => twoB mk (fExt 1) sS ⟨0x8000000000000000, 24⟩ ⟨0xFFFFFFFFFFFFFFFF, 24⟩) (by decide +kernel) fun _ => two,
    each (p := fun mk => twoB mk (fExt 0x10000) sS ⟨0x8000000000000000, 24⟩ ⟨0xFFFFFFFFFFFFFFFF, 24⟩) (by decide +kernel) fun _ => two,
    gives_eq (by decide +kernel)⟩

/-- The formats SI and SB, the predicates, and CREAD. -/
theorem test_hyp_readyAlone :
    (∀ mk ∈ [Instr.addi, .andi, .ori, .xori, .movi, .movhi], Ready (mk g0 ⟨3, 1, 0x3FFFFFFFFF⟩) sS)
    ∧ (∀ mk ∈ [Instr.pand, .por, .pxor, .pnot, .cread], Ready (mk g0 f10) sS)
    ∧ (∀ mk ∈ [Instr.br, .brp, .brsig, .call], Ready (mk g0 ⟨1, 24, 0, 1, 0xFFFFFFFF⟩) sS) :=
  ⟨each (p := fun mk => readyB (mk g0 ⟨3, 1, 0x3FFFFFFFFF⟩) sS) (by decide +kernel) fun _ => ready,
    each (p := fun mk => readyB (mk g0 f10) sS) (by decide +kernel) fun _ => ready,
    each (p := fun mk => readyB (mk g0 ⟨1, 24, 0, 1, 0xFFFFFFFF⟩) sS) (by decide +kernel) fun _ => ready⟩

/-- LOOP on 0, 1 and 2. -/
theorem test_hyp_loop : ∀ n ∈ [0, 1, 2], Ready (.loop g0 ⟨1, 0, 0, 0, 4⟩) (withS [(1, n)])
    ∧ ((withS [(1, n)]).cur.regs.scalar 1).val = n :=
  each (p := fun n => readyB (.loop g0 ⟨1, 0, 0, 0, 4⟩) (withS [(1, n)]) && decide (((withS [(1, n)]).cur.regs.scalar 1).val = n))
    (by decide +kernel) fun _ h => by
      simp only [Bool.and_eq_true] at h
      exact ⟨ready h.1, of_decide_eq_true h.2⟩

/-- BRI and RET with an aligned and with a misaligned target. -/
theorem test_hyp_indirect : ∀ n ∈ [0x40, 0x41],
    (Ready (.bri g0 f10) (withS [(1, n)]) ∧ Src (.bri g0 f10) (withS [(1, n)]) f10 1 ⟨n, 24⟩ ∧ Src (.bri g0 f10) (withS [(1, n)]) f10 2 ⟨0, 24⟩)
    ∧ (Ready (.ret g0 f10) (withS [(1, n)]) ∧ Src (.ret g0 f10) (withS [(1, n)]) f10 1 ⟨n, 24⟩ ∧ Src (.ret g0 f10) (withS [(1, n)]) f10 2 ⟨0, 24⟩)
    ∧ ((n + (0 : Word) <<< 6).toNat % 64 = 0 ↔ n = 0x40) :=
  each (p := fun n => twoB .bri f10 (withS [(1, n)]) ⟨n, 24⟩ ⟨0, 24⟩ && twoB .ret f10 (withS [(1, n)]) ⟨n, 24⟩ ⟨0, 24⟩
      && decide ((n + (0 : Word) <<< 6).toNat % 64 = 0 ↔ n = 0x40)) (by decide +kernel) fun _ h => by
    simp only [Bool.and_eq_true] at h
    exact ⟨two h.1.1, two h.1.2, of_decide_eq_true h.2⟩

/-- CWRITE of a value that SIGFLOOR takes. -/
theorem test_hyp_cwrite : Ready (.cwrite g0 (fExt 8)) (withS [(1, 0x20818)])
    ∧ Src (.cwrite g0 (fExt 8)) (withS [(1, 0x20818)]) (fExt 8) 1 ⟨0x20818, 24⟩ ∧ crRejects (crNumber (fExt 8)) 0x20818 = false :=
  ⟨ready (by decide +kernel), gives_eq (by decide +kernel), by decide +kernel⟩

end Sys2Proof.Tests

namespace Sys2Proof.Tests

open Sys2Proof Sys2Proof.Machine Sys2Proof.Claims

/-! ### Slots A and B -/

/-- A row of ones of each tag: row n has tag n for the formats 1 to 7, row 8 is a PL row of width 8, row 9 is RAW. -/
def rowT (t : Byte) : Row := ⟨BitVec.allOnes 2048, 0, t⟩
def sV : State := onCtx fun c => setS [(1, 0x8000000000000000)] { c with
  cb := ⟨Vector.replicate 16 0x3F80, 8, true⟩
  regs := { c.regs with k := Vector.replicate 8 1, rows := ((List.range 8).map fun n => (n + 1, rowT (if n = 7 then 0x78 else BitVec.ofNat 8 (n + 1)))) } }

/-- Hypotheses on three sources of one tag and a write mask. -/
def VecHyp (mk : Guard → Bool → VF → Instr) (inB : Bool) (f : VF) (tag : Byte) (r : Opd) : Prop :=
  Ready (mk g0 inB f) sV ∧ VSrc (mk g0 inB f) inB sV 0 f.a r ∧ VSrc (mk g0 inB f) inB sV 1 f.b r ∧ VSrc (mk g0 inB f) inB sV 2 f.c r
    ∧ (∃ l, Lanes tag r l) ∧ maskFits f sV tag = true
def vecB (mk : Guard → Bool → VF → Instr) (inB : Bool) (f : VF) (tag : Byte) (r : Opd) : Bool :=
  readyB (mk g0 inB f) sV && gives (rdV (staged (mk g0 inB f) sV) inB 0 f.a) r && gives (rdV (staged (mk g0 inB f) sV) inB 1 f.b) r
    && gives (rdV (staged (mk g0 inB f) sV) inB 2 f.c) r && isOk (typed tag r) && maskFits f sV tag
theorem vecHyp {mk : Guard → Bool → VF → Instr} {inB : Bool} {f : VF} {tag : Byte} {r : Opd} (h : vecB mk inB f tag r = true) :
    VecHyp mk inB f tag r := by
  simp only [vecB, Bool.and_eq_true] at h
  obtain ⟨⟨⟨⟨⟨h1, h2⟩, h3⟩, h4⟩, h5⟩, h6⟩ := h
  exact ⟨ready h1, gives_eq h2, gives_eq h3, gives_eq h4, ⟨_, ok_got [] _ h5⟩, h6⟩

/-- Sources from row n, the destination among them; the mask register k. -/
def fRow (n : BitVec 10) (k : BitVec 3) (mod : BitVec 4) : VF := ⟨n, false, n, n, n, k, mod⟩

/-- Integer operations on rows of every width, under a write mask, the destination a source. -/
theorem test_hyp_vectorInteger : ∀ mk ∈ [Instr.vadd, .vsub, .vmul, .vmulh, .vmad, .vmin, .vmax, .vabsdiff, .vshl, .vshr, .vsar, .vpopc, .vcmp],
    ∀ w ∈ [0, 1, 2, 3], VecHyp mk true (fRow (BitVec.ofNat 10 (w + 1)) 1 (BitVec.ofNat 4 w)) (tagInt w) (.row (rowT (tagInt w))) :=
  each (p := fun mk => [0, 1, 2, 3].all fun w => vecB mk true (fRow (BitVec.ofNat 10 (w + 1)) 1 (BitVec.ofNat 4 w)) (tagInt w)
      (.row (rowT (tagInt w)))) (by decide +kernel) fun _ h => each h fun _ => vecHyp

/-- Floating-point operations and transcendentals on F32 and BF16 rows. -/
theorem test_hyp_vectorFloat : ∀ mk ∈ [Instr.vfadd, .vfsub, .vfmul, .vffma, .vfmin, .vfmax, .vfabs, .vfneg, .vfcmp, .vrcp, .vrsqrt, .vexp2,
      .vlog2, .vsigm],
    VecHyp mk false (fRow 6 1 0) tagF32 (.row (rowT tagF32)) ∧ VecHyp mk false (fRow 5 1 4) tagBF16 (.row (rowT tagBF16)) :=
  each (p := fun mk => vecB mk false (fRow 6 1 0) tagF32 (.row (rowT tagF32)) && vecB mk false (fRow 5 1 4) tagBF16 (.row (rowT tagBF16)))
    (by decide +kernel) fun _ h => by
      simp only [Bool.and_eq_true] at h
      exact ⟨vecHyp h.1, vecHyp h.2⟩

/-- The bound on lane values in the statement of wrapping: the largest value of each width. -/
theorem test_hyp_lanesWrap : ∀ w ∈ [0, 1, 2, 3], vSat (fRow 1 0 (BitVec.ofNat 4 w)) = false
    ∧ 2 ^ (8 * 2 ^ w) - 1 < 2 ^ vBits (fRow 1 0 (BitVec.ofNat 4 w)) := by decide +kernel

/-- Bitwise operations and VSEL: two rows, and a scalar beside a row; the tag is that of the first row. -/
def fSR : VF := ⟨8, false, 353, 8, 0, 0, 0⟩
theorem test_hyp_vectorBits : ∀ mk ∈ [Instr.vand, .vor, .vxor, .vsel],
    Ready (mk g0 false fSR) sV ∧ VSrc (mk g0 false fSR) false sV 0 fSR.a (.scalar ⟨0x8000000000000000, 24⟩)
      ∧ VSrc (mk g0 false fSR) false sV 1 fSR.b (.row (rowT 0x78))
      ∧ firstTag (.scalar ⟨0x8000000000000000, 24⟩) (.row (rowT 0x78)) = .ok 0x78
      ∧ maskFits fSR sV (bitRow 0x78 (bitsIn 0x78 (.row (rowT 0x78)) &&& bitsIn 0x78 (.row (rowT 0x78)))).tag = true
      ∧ (asRow 0x78 (.scalar ⟨0x8000000000000000, 24⟩)).tag = 0x78 ∧ (asRow 0x78 (.row (rowT 0x78))).tag = 0x78 :=
  each (p := fun mk => readyB (mk g0 false fSR) sV && gives (rdV (staged (mk g0 false fSR) sV) false 0 fSR.a) (.scalar ⟨0x8000000000000000, 24⟩)
      && gives (rdV (staged (mk g0 false fSR) sV) false 1 fSR.b) (.row (rowT 0x78))) (by decide +kernel) fun _ h => by
    simp only [Bool.and_eq_true] at h
    exact ⟨ready h.1.1, gives_eq h.1.2, gives_eq h.2, rfl, by decide +kernel, by decide +kernel, by decide +kernel⟩

/-- Operations on one row: of every tag they take, under a mask that fits. -/
def oneB (i : Instr) (inB : Bool) (f : VF) (r : Row) : Bool := readyB i sV && gives (rdVRow (staged i sV) inB 0 f.a) r
theorem one {i : Instr} {inB : Bool} {f : VF} {r : Row} (h : oneB i inB f r = true) : Ready i sV ∧ VRow i inB sV 0 f.a r := by
  simp only [oneB, Bool.and_eq_true] at h
  exact ⟨ready h.1, gives_eq h.2⟩
theorem test_hyp_oneRow : ∀ mk ∈ [Instr.vnot, .vmov, .vrsum, .vrmax, .vrmin, .vrsigmin, .vbcast, .vext, .vperm, .vshiftl, .vsig, .vcvt],
    ∀ n ∈ [(1 : BitVec 10), 2, 3, 4, 5, 6, 7], let f := fRow n 1 0;
      Ready (mk g0 true f) sV ∧ VRow (mk g0 true f) true sV 0 f.a (rowT (n.setWidth 8)) ∧ maskFits f sV (n.setWidth 8) = true :=
  each (p := fun mk => [(1 : BitVec 10), 2, 3, 4, 5, 6, 7].all fun n => oneB (mk g0 true (fRow n 1 0)) true (fRow n 1 0) (rowT (n.setWidth 8))
      && maskFits (fRow n 1 0) sV (n.setWidth 8)) (by decide +kernel) fun _ h =>
    each (p := fun n => oneB _ true (fRow n 1 0) (rowT (n.setWidth 8)) && maskFits (fRow n 1 0) sV (n.setWidth 8)) h fun _ k => by
      simp only [Bool.and_eq_true] at k
      exact ⟨(one k.1).1, (one k.1).2, k.2⟩

/-- A write mask into a row of another tag. -/
theorem test_hyp_writeMaskNeedsTag : let f : VF := ⟨1, false, 2, 0, 0, 1, 0⟩;
    Ready (.vmov g0 false f) sV ∧ VRow (.vmov g0 false f) false sV 0 f.a (rowT 2) ∧ maskFits f sV (rowT 2).tag = false :=
  ⟨ready (by decide +kernel), gives_eq (by decide +kernel), by decide +kernel⟩

/-- Masks. -/
theorem test_hyp_masks : ∀ mk ∈ [Instr.kand, .kor, .knot, .kpopc], Ready (mk g0 true (fRow 7 0 0)) sV :=
  each (p := fun mk => readyB (mk g0 true (fRow 7 0 0)) sV) (by decide +kernel) fun _ => ready

/-- The tags the reductions take, and those they do not. -/
theorem test_hyp_reductionTags : (∀ t ∈ [tagI8, tagI16, tagI32, 4, tagBF16, tagF32], (isIntTag t || isFloatTag t) = true)
    ∧ (isFloatTag tagBF16 = true ∧ isFloatTag tagF32 = true) ∧ isIntTag tagCB4 = false ∧ cvtSource tagCB4 = false := by decide +kernel

/-- VCVT of its last part from the wider and to the wider format; VCBDEC of its last part; VCBENC. -/
theorem test_hyp_conversions :
    (let f : VF := ⟨5, false, 6, 0, 5 + 128, 1, 0⟩;
      Ready (.vcvt g0 false f) sV ∧ VRow (.vcvt g0 false f) false sV 0 f.a (rowT 6) ∧ cvtSource (rowT 6).tag = true
      ∧ bitsOf 7 3 f.c.toNat < max (laneCount 6) (laneCount 5) / min (laneCount 6) (laneCount 5) ∧ maskFits f sV 5 = true)
    ∧ (let f : VF := ⟨4, false, 1, 0, 4 + 128 * 7, 0, 0⟩;
      Ready (.vcvt g0 false f) sV ∧ VRow (.vcvt g0 false f) false sV 0 f.a (rowT 1) ∧ cvtSource (rowT 1).tag = true
      ∧ bitsOf 7 3 f.c.toNat < max (laneCount 1) (laneCount 4) / min (laneCount 1) (laneCount 4) ∧ maskFits f sV 4 = true)
    ∧ (let f : VF := ⟨5, false, 7, 0, 128 * 3, 1, 0⟩;
      Ready (.vcbdec g0 false f) sV ∧ VRow (.vcbdec g0 false f) false sV 0 f.a (rowT 7) ∧ (rowT 7).tag = tagCB4
      ∧ sV.cur.cb.valid = true ∧ maskFits f sV tagBF16 = true)
    ∧ (let f : VF := ⟨7, false, 5, 0, 128 * 3, 1, 0⟩;
      Ready (.vcbenc g0 false f) sV ∧ VRow (.vcbenc g0 false f) false sV 0 f.a (rowT 5) ∧ (rowT 5).tag = tagBF16
      ∧ sV.cur.cb.valid = true ∧ maskFits f sV tagCB4 = true) :=
  ⟨⟨ready (by decide +kernel), gives_eq (by decide +kernel), by decide +kernel⟩,
    ⟨ready (by decide +kernel), gives_eq (by decide +kernel), by decide +kernel⟩,
    ⟨ready (by decide +kernel), gives_eq (by decide +kernel), rfl, rfl, by decide +kernel⟩,
    ⟨ready (by decide +kernel), gives_eq (by decide +kernel), rfl, rfl, by decide +kernel⟩⟩

/-- Bit planes of width 8: the last group, the upper half of bytes and a row of words; back to bytes and to words; two rows of
planes. -/
theorem test_hyp_planes : planeW sV.cur = 8 ∧ tagPL 8 = 0x78
    ∧ (let f : VF := ⟨8, false, 1, 0, 1 + 16, 1, 0⟩;
      Ready (.vplane g0 true f) sV ∧ VRow (.vplane g0 true f) true sV 0 f.a (rowT 1) ∧ ((rowT 1).tag = tagI16 ∨ (rowT 1).tag = tagI8)
      ∧ ¬ (bitsOf 4 1 f.c.toNat = 1 ∧ (rowT 1).tag = tagI16) ∧ f.c.toNat % 16 < planeGroups 8 ∧ maskFits f sV 0x78 = true)
    ∧ (let f : VF := ⟨8, false, 2, 0, 1, 1, 0⟩;
      Ready (.vplane g0 true f) sV ∧ VRow (.vplane g0 true f) true sV 0 f.a (rowT 2) ∧ ((rowT 2).tag = tagI16 ∨ (rowT 2).tag = tagI8)
      ∧ ¬ (bitsOf 4 1 f.c.toNat = 1 ∧ (rowT 2).tag = tagI16) ∧ f.c.toNat % 16 < planeGroups 8 ∧ maskFits f sV 0x78 = true)
    ∧ (let f : VF := ⟨1, false, 8, 0, 1 + 16, 1, 1⟩;
      Ready (.vunplane g0 true f) sV ∧ VRow (.vunplane g0 true f) true sV 0 f.a (rowT 0x78) ∧ f.c.toNat % 16 < planeGroups 8
      ∧ maskFits f sV tagI8 = true)
    ∧ (let f : VF := ⟨2, false, 8, 0, 1, 1, 0⟩;
      Ready (.vunplane g0 true f) sV ∧ VRow (.vunplane g0 true f) true sV 0 f.a (rowT 0x78) ∧ f.c.toNat % 16 < planeGroups 8
      ∧ maskFits f sV tagI16 = true)
    ∧ (∀ mk ∈ [Instr.vpadd, .vpsub, .vpand, .vpcnt], let f : VF := ⟨8, false, 8, 8, 0, 1, 0⟩;
      Ready (mk g0 false f) sV ∧ VRow (mk g0 false f) false sV 0 f.a (rowT 0x78) ∧ VRow (mk g0 false f) false sV 1 f.b (rowT 0x78)
      ∧ maskFits f sV 0x78 = true) :=
  ⟨by decide +kernel, by decide +kernel, ⟨ready (by decide +kernel), gives_eq (by decide +kernel), by decide +kernel⟩,
    ⟨ready (by decide +kernel), gives_eq (by decide +kernel), by decide +kernel⟩,
    ⟨ready (by decide +kernel), gives_eq (by decide +kernel), by decide +kernel⟩,
    ⟨ready (by decide +kernel), gives_eq (by decide +kernel), by decide +kernel⟩,
    each (p := fun mk => readyB (mk g0 false ⟨8, false, 8, 8, 0, 1, 0⟩) sV
      && gives (rdVRow (staged (mk g0 false ⟨8, false, 8, 8, 0, 1, 0⟩) sV) false 0 8) (rowT 0x78)
      && gives (rdVRow (staged (mk g0 false ⟨8, false, 8, 8, 0, 1, 0⟩) sV) false 1 8) (rowT 0x78)) (by decide +kernel) fun _ h => by
        simp only [Bool.and_eq_true] at h
        exact ⟨ready h.1.1, gives_eq h.1.2, gives_eq h.2, by decide +kernel⟩⟩

/-- Lanes: the last lane of a row of bytes, of a row of planes; an insertion of a scalar; an index row; a shift by a whole row,
with zeros and with a second row. -/
theorem test_hyp_lanes :
    (let f : VF := ⟨1, false, 1, 353, 255, 1, 0⟩;
      Ready (.vbcast g0 false f) sV ∧ VRow (.vbcast g0 false f) false sV 0 f.a (rowT 1) ∧ movable (rowT 1).tag = true
      ∧ (∃ x, (rowLanes (rowT 1))[f.c.toNat]? = some x) ∧ maskFits f sV (rowT 1).tag = true
      ∧ Ready (.vins g0 false f) sV ∧ VScalar (.vins g0 false f) false sV 1 f.b ⟨0x8000000000000000, 24⟩
      ∧ f.c.toNat < (rowLanes (rowT 1)).length)
    ∧ (let f : VF := ⟨1, false, 1, 0, 255, 0, 0⟩;
      Ready (.vext g0 false f) sV ∧ VRow (.vext g0 false f) false sV 0 f.a (rowT 1) ∧ tagFmt (rowT 1).tag ≠ 8
      ∧ ∃ x, (rowLanes (rowT 1))[bitsOf 0 1 f.mod.toNat * 1024 + f.c.toNat]? = some x)
    ∧ (let f : VF := ⟨1, false, 8, 0, 255, 0, 0⟩;
      Ready (.vext g0 false f) sV ∧ VRow (.vext g0 false f) false sV 0 f.a (rowT 0x78) ∧ tagFmt (rowT 0x78).tag = 8
      ∧ (rowT 0x78).tag = tagPL (planeW sV.cur) ∧ bitsOf 0 1 f.mod.toNat * 1024 + f.c.toNat < 128 * planeGroups (planeW sV.cur))
    ∧ (let f : VF := ⟨1, false, 1, 1, 0, 1, 0⟩;
      Ready (.vperm g0 false f) sV ∧ VRow (.vperm g0 false f) false sV 0 f.a (rowT 1) ∧ VRow (.vperm g0 false f) false sV 1 f.b (rowT 1)
      ∧ movable (rowT 1).tag = true ∧ ((rowT 1).tag = tagI8 ∨ (rowT 1).tag = tagI16)
      ∧ (rowLanes (rowT 1)).length ≤ laneCount (tagFmt (rowT 1).tag) ∧ maskFits f sV (rowT 1).tag = true)
    ∧ (∀ m ∈ [(0 : BitVec 4), 8], let f : VF := ⟨1, false, 1, 1, 256, 1, m⟩;
      Ready (.vshiftl g0 false f) sV ∧ VRow (.vshiftl g0 false f) false sV 0 f.a (rowT 1) ∧ VRow (.vshiftl g0 false f) false sV 1 f.b (rowT 1)
      ∧ f.c.toNat % 512 ≤ (rowLanes (rowT 1)).length ∧ maskFits f sV (rowT 1).tag = true)
    ∧ (∀ mk ∈ [Instr.viota, .vfill], let f : VF := ⟨1, false, 353, 0, 0, 1, 0⟩;
      Ready (mk g0 false f) sV ∧ VScalar (mk g0 false f) false sV 0 f.a ⟨0x8000000000000000, 24⟩ ∧ maskFits f sV (intTag f) = true
      ∧ maskFits f sV (BitVec.ofNat 8 (1 + f.mod.toNat % 8)) = true) := by
  refine ⟨⟨ready (by decide +kernel), gives_eq (by decide +kernel), by decide +kernel,
      Option.isSome_iff_exists.1 (by decide +kernel), by decide +kernel, ready (by decide +kernel), gives_eq (by decide +kernel),
      by decide +kernel⟩,
    ⟨ready (by decide +kernel), gives_eq (by decide +kernel), by decide +kernel, Option.isSome_iff_exists.1 (by decide +kernel)⟩,
    ⟨ready (by decide +kernel), gives_eq (by decide +kernel), by decide +kernel⟩,
    ⟨ready (by decide +kernel), gives_eq (by decide +kernel), gives_eq (by decide +kernel), by decide +kernel⟩,
    each (p := fun m => readyB (.vshiftl g0 false ⟨1, false, 1, 1, 256, 1, m⟩) sV
      && gives (rdVRow (staged (.vshiftl g0 false ⟨1, false, 1, 1, 256, 1, m⟩) sV) false 0 1) (rowT 1)
      && gives (rdVRow (staged (.vshiftl g0 false ⟨1, false, 1, 1, 256, 1, m⟩) sV) false 1 1) (rowT 1)) (by decide +kernel) fun _ h => ?_,
    each (p := fun mk => readyB (mk g0 false ⟨1, false, 353, 0, 0, 1, 0⟩) sV
      && gives (rdVScalar (staged (mk g0 false ⟨1, false, 353, 0, 0, 1, 0⟩) sV) false 0 353) ⟨0x8000000000000000, 24⟩)
      (by decide +kernel) fun _ h => ?_⟩
  · simp only [Bool.and_eq_true] at h
    exact ⟨ready h.1.1, gives_eq h.1.2, gives_eq h.2, (by decide +kernel : 256 % 512 ≤ (rowLanes (rowT 1)).length),
      (by decide +kernel : maskFits ⟨1, false, 1, 1, 256, 1, 0⟩ sV (rowT 1).tag = true)⟩
  · simp only [Bool.and_eq_true] at h
    exact ⟨ready h.1, gives_eq h.2, by decide +kernel, by decide +kernel⟩

/-- Counts and tags as data: VSIG, VSIGSET, and VFMT to the same tag, to an integer tag and to a float tag. -/
theorem test_hyp_countsAsData :
    (let f : VF := ⟨1, false, 6, 0, 0, 1, 0⟩;
      Ready (.vsig g0 false f) sV ∧ VRow (.vsig g0 false f) false sV 0 f.a (rowT 6) ∧ maskFits f sV tagI8 = true)
    ∧ (let f : VF := ⟨6, false, 6, 1, 0, 1, 0⟩;
      Ready (.vsigset g0 false f) sV ∧ VRow (.vsigset g0 false f) false sV 0 f.a (rowT 6) ∧ VRow (.vsigset g0 false f) false sV 1 f.b (rowT 1)
      ∧ isFloatTag (rowT 6).tag = true ∧ maskFits f sV (rowT 6).tag = true)
    ∧ (∀ x ∈ [((6 : BitVec 10), (6 : BitVec 10)), (6, 3), (3, 6)], let f : VF := ⟨x.2, false, x.1, 0, x.2, 1, 0⟩;
      Ready (.vfmt g0 false f) sV ∧ VRow (.vfmt g0 false f) false sV 0 f.a (rowT (x.1.setWidth 8))
      ∧ ¬ (isFloatTag (rowT (x.1.setWidth 8)).tag = true ∧ isFloatTag (f.c.setWidth 8) = true ∧ (rowT (x.1.setWidth 8)).tag ≠ f.c.setWidth 8)
      ∧ maskFits f sV (f.c.setWidth 8) = true) :=
  ⟨⟨ready (by decide +kernel), gives_eq (by decide +kernel), by decide +kernel⟩,
    ⟨ready (by decide +kernel), gives_eq (by decide +kernel), gives_eq (by decide +kernel), by decide +kernel⟩,
    each (p := fun x => let f : VF := ⟨x.2, false, x.1, 0, x.2, 1, 0⟩;
      readyB (.vfmt g0 false f) sV && gives (rdVRow (staged (.vfmt g0 false f) sV) false 0 f.a) (rowT (x.1.setWidth 8))
      && decide (¬ (isFloatTag (rowT (x.1.setWidth 8)).tag = true ∧ isFloatTag (f.c.setWidth 8) = true ∧ (rowT (x.1.setWidth 8)).tag ≠ f.c.setWidth 8)
      ∧ maskFits f sV (f.c.setWidth 8) = true)) (by decide +kernel) fun _ h => by
        simp only [Bool.and_eq_true] at h
        exact ⟨ready h.1.1, gives_eq h.1.2, of_decide_eq_true h.2⟩⟩

end Sys2Proof.Tests

namespace Sys2Proof.Tests

open Sys2Proof Sys2Proof.Machine Sys2Proof.Claims

/-! ### A write mask into a row of another tag, bounds, logged registers -/

/-- The operation is ready, its operands read so, and row 9, its destination, is RAW: no tag fits it under mask K1. -/
structure NeedHyp (i : Instr) (inB : Bool) (f : VF) (v : List (Nat × BitVec 10 × Opd)) (r : List (Nat × BitVec 10 × Row))
    (z : List (Nat × BitVec 10 × Scalar)) (tag : Byte) : Prop where
  ready : Ready i sV
  vsrc : ∀ x ∈ v, VSrc i inB sV x.1 x.2.1 x.2.2
  vrow : ∀ x ∈ r, VRow i inB sV x.1 x.2.1 x.2.2
  vscalar : ∀ x ∈ z, VScalar i inB sV x.1 x.2.1 x.2.2
  unfit : maskFits f sV tag = false
abbrev Need1 := Instr × Bool × VF × List (Nat × BitVec 10 × Opd) × List (Nat × BitVec 10 × Row) × List (Nat × BitVec 10 × Scalar) × Byte
def needB (x : Need1) : Bool :=
  readyB x.1 sV && x.2.2.2.1.all (fun y => gives (rdV (staged x.1 sV) x.2.1 y.1 y.2.1) y.2.2)
    && x.2.2.2.2.1.all (fun y => gives (rdVRow (staged x.1 sV) x.2.1 y.1 y.2.1) y.2.2)
    && x.2.2.2.2.2.1.all (fun y => gives (rdVScalar (staged x.1 sV) x.2.1 y.1 y.2.1) y.2.2) && !maskFits x.2.2.1 sV x.2.2.2.2.2.2
theorem needHyp (x : Need1) (h : needB x = true) : NeedHyp x.1 x.2.1 x.2.2.1 x.2.2.2.1 x.2.2.2.2.1 x.2.2.2.2.2.1 x.2.2.2.2.2.2 := by
  simp only [needB, Bool.and_eq_true, List.all_eq_true, Bool.not_eq_true'] at h
  exact ⟨ready h.1.1.1.1, fun y hy => gives_eq (h.1.1.1.2 y hy), fun y hy => gives_eq (h.1.1.2 y hy), fun y hy => gives_eq (h.1.2 y hy), h.2⟩
/-- A form of three like operands with row 9 as its destination. -/
def v9 (mk : Guard → Bool → VF → Instr) (a b c : BitVec 10) (mod : BitVec 4) (v : List (Nat × BitVec 10 × Opd)) (r : List (Nat × BitVec 10 × Row))
    (z : List (Nat × BitVec 10 × Scalar)) (tag : Byte) : Need1 :=
  (mk g0 true ⟨9, false, a, b, c, 1, mod⟩, true, ⟨9, false, a, b, c, 1, mod⟩, v, r, z, tag)
def typed9 (mk : Guard → Bool → VF → Instr) (n : BitVec 10) (mod : BitVec 4) : Need1 :=
  let o : Opd := .row (rowT (n.setWidth 8))
  v9 mk n n n mod [(0, n, o), (1, n, o), (2, n, o)] [] [] (n.setWidth 8)
theorem test_hyp_needsTagTyped :
    ∀ x ∈ ([Instr.vadd, .vsub, .vmul, .vmulh, .vmin, .vmax, .vabsdiff, .vshl, .vshr, .vsar, .vmad, .vpopc].map fun mk => typed9 mk 4 3)
      ++ [Instr.vfadd, .vfsub, .vfmul, .vfmin, .vfmax, .vffma, .vfabs, .vfneg, .vrcp, .vrsqrt, .vexp2, .vlog2, .vsigm].map fun mk => typed9 mk 6 0,
    NeedHyp x.1 x.2.1 x.2.2.1 x.2.2.2.1 x.2.2.2.2.1 x.2.2.2.2.2.1 x.2.2.2.2.2.2 ∧ ∃ t, ∃ l, Lanes t (.row (rowT x.2.2.2.2.2.2)) l :=
  each (p := fun x => needB x && isOk (typed x.2.2.2.2.2.2 (.row (rowT x.2.2.2.2.2.2)))) (by decide +kernel) fun x h => by
    simp only [Bool.and_eq_true] at h
    exact ⟨needHyp x h.1, x.2.2.2.2.2.2, _, ok_got [] _ h.2⟩
theorem test_hyp_needsTagRows :
    ∀ x ∈ ([Instr.vand, .vor, .vxor].map fun mk => v9 mk 8 8 0 0 [(0, 8, .row (rowT 0x78)), (1, 8, .row (rowT 0x78))] [] [] 0x78)
      ++ ([Instr.vnot, .vmov].map fun mk => v9 mk 2 0 0 0 [] [(0, 2, rowT 2)] [] 2)
      ++ [v9 .vcvt 6 0 133 0 [] [(0, 6, rowT 6)] [] 5, v9 .vcbdec 7 0 384 0 [] [(0, 7, rowT 7)] [] tagBF16,
        v9 .vcbenc 5 0 384 0 [] [(0, 5, rowT 5)] [] tagCB4, v9 .vplane 1 0 17 0 [] [(0, 1, rowT 1)] [] 0x78,
        v9 .vunplane 8 0 17 1 [] [(0, 8, rowT 0x78)] [] tagI8, v9 .vunplane 8 0 1 0 [] [(0, 8, rowT 0x78)] [] tagI16,
        v9 .vbcast 1 0 255 0 [] [(0, 1, rowT 1)] [] 1, v9 .vins 1 353 255 0 [] [(0, 1, rowT 1)] [(1, 353, ⟨0x8000000000000000, 24⟩)] 1,
        v9 .vperm 1 1 0 0 [] [(0, 1, rowT 1), (1, 1, rowT 1)] [] 1, v9 .vshiftl 1 0 256 0 [] [(0, 1, rowT 1)] [] 1,
        v9 .vshiftl 1 1 256 8 [] [(0, 1, rowT 1), (1, 1, rowT 1)] [] 1, v9 .viota 353 0 0 0 [] [] [(0, 353, ⟨0x8000000000000000, 24⟩)] 1,
        v9 .vfill 353 0 0 5 [] [] [(0, 353, ⟨0x8000000000000000, 24⟩)] 6, v9 .vsig 6 0 0 0 [] [(0, 6, rowT 6)] [] tagI8,
        v9 .vsigset 6 1 0 0 [] [(0, 6, rowT 6), (1, 1, rowT 1)] [] 6, v9 .vfmt 6 0 3 0 [] [(0, 6, rowT 6)] [] 3]
      ++ ([Instr.vpadd, .vpsub, .vpand].map fun mk => v9 mk 8 8 0 0 [] [(0, 8, rowT 0x78), (1, 8, rowT 0x78)] [] 0x78),
    NeedHyp x.1 x.2.1 x.2.2.1 x.2.2.2.1 x.2.2.2.2.1 x.2.2.2.2.2.1 x.2.2.2.2.2.2 :=
  each (p := needB) (by decide +kernel) needHyp
/-- The rest of the conditions of those forms. -/
theorem test_hyp_needsTagSides : firstTag (.row (rowT 0x78)) (.row (rowT 0x78)) = .ok 0x78 ∧ cvtSource 6 = true
    ∧ bitsOf 7 3 133 < max (laneCount 6) (laneCount (133 % 16)) / min (laneCount 6) (laneCount (133 % 16))
    ∧ ¬ (bitsOf 4 1 17 = 1 ∧ (rowT 1).tag = tagI16) ∧ 17 % 16 < planeGroups (planeW sV.cur) ∧ 1 % 16 < planeGroups (planeW sV.cur)
    ∧ planeW sV.cur ≤ 8 ∧ 255 < (rowLanes (rowT 1)).length ∧ (rowLanes (rowT 1)).length ≤ laneCount (tagFmt (rowT 1).tag)
    ∧ 256 % 512 ≤ (rowLanes (rowT 1)).length
    ∧ ¬ (isFloatTag (rowT 6).tag = true ∧ isFloatTag (3 : Byte) = true ∧ (rowT 6).tag ≠ 3) :=
  ⟨gives_eq (by decide +kernel), by decide +kernel, by decide +kernel, by decide +kernel, by decide +kernel, by decide +kernel, by decide +kernel,
    by decide +kernel, by decide +kernel, by decide +kernel, by decide +kernel⟩

/-- Each case of the bound of the transcendentals: an exact result of the format, an exact one beyond its precision, one that is not exact,
and an approximation that is zero. -/
theorem test_hyp_transBound :
    (let x := transApprox .rcp false 4 0; x.2.1 ≠ 0 ∧ transExact .rcp 4 0 = true ∧ (fRound 8 0 x.1 x.2.1 x.2.2 false).exact = true)
    ∧ (let x := transApprox .rcp true 3 0; x.2.1 ≠ 0 ∧ transExact .rcp 3 0 = false)
    ∧ (∃ m e, (transApprox .log2 false m e).2.1 = 0 ∧ m ≠ 0)
    ∧ (∃ m e, transExact .exp2 m e = true ∧ (let x := transApprox .exp2 false m e; x.2.1 ≠ 0 ∧ (fRound 8 0 x.1 x.2.1 x.2.2 false).exact = false)) :=
  ⟨by decide +kernel, by decide +kernel, ⟨1, 0, by decide +kernel⟩, ⟨1, 10, by decide +kernel⟩⟩

/-- CREAD of a register that an audit logs, inside an audited group and outside, and of one it does not. -/
def sAudited (twins : List Nat) : State := { sS with audits := [⟨6, 1, 0, 1, if twins = [] then [0] else [1], 0, 15, 65536, 0, [], 0, false, none, twins, 0, [], false⟩] }
def fCr (n : BitVec 19) : SRF := { f10 with ext := n }
theorem test_hyp_cread :
    (∀ n ∈ [(0 : BitVec 19), 1, 0x30, 0x31], Ready (.cread g0 (fCr n)) (sAudited []) ∧ crLogged (crNumber (fCr n)) = true)
    ∧ (auditOf (sAudited []) 0).isSome = true ∧ auditOf sS 0 = none ∧ Ready (.cread g0 (fCr 2)) (sAudited []) ∧ crLogged (crNumber (fCr 2)) = false :=
  ⟨each (p := fun n => readyB (.cread g0 (fCr n)) (sAudited []) && crLogged (crNumber (fCr n))) (by decide +kernel) fun _ h => by
      simp only [Bool.and_eq_true] at h
      exact ⟨ready h.1, h.2⟩,
    by decide +kernel, by decide +kernel, ready (by decide +kernel), by decide +kernel⟩

end Sys2Proof.Tests

namespace Sys2Proof.Tests

open Sys2Proof Sys2Proof.Machine Sys2Proof.Claims

/-! ### Slots L and W -/

/-- A range entry with every permission (R431). -/
def rangeE (base limit ppn : Nat) (tag : Word) : BitVec 256 :=
  BitVec.ofNat 256 (0x8E + base * 2 ^ 32 + limit * 2 ^ 80 + ppn * 2 ^ 128 + tag.toNat * 2 ^ 192)
/-- Function 0 maps the lowest 256 pages, the highest page, and a page whose counts stand in a shadow at 0x8000, the elements
of 4 bytes. -/
def mapped (s : State) : State :=
  s.setFn 0 { s.fn 0 with ranges :=
    [(0, rangeE 0 0xFF 0 0), (1, rangeE (2 ^ 44 - 1) (2 ^ 44 - 1) 0x100 0), (2, rangeE 0x200 0x200 0x200 0xA000000000008000)] }
/-- S1 holds an address; row 6 is an F32 row; K1 enables nothing. -/
def sMem (a : Word) (f : Ctx → Ctx) : State :=
  mapped (onCtx fun c => f (setS [(1, a), (2, 5)] { c with regs := { c.regs with rows := [(6, rowT 6), (3, rowT 3)] } }))
def fMem (data : BitVec 10) (mod : BitVec 4) : MXF := ⟨data, 1, 0, 0, mod⟩

/-- No posting operation is on its way in any of these states. -/
theorem quiet (s : State) (h : s.sops = []) (a n : Nat) : SpadQuiet s a n := by
  intro o ho
  rw [h] at ho
  cases ho

/-- Nothing of the bundle has gone ahead. -/
theorem alone {s : State} (h : decide (wentOf s = []) = true) : NoneAhead s := by
  have k : wentOf s = [] := of_decide_eq_true h
  exact k
/-- No other core writes in the cycle. -/
theorem own_cycle {s : State} (h : (cycleTile s s.cur).spOps.isEmpty = true) (a n : Nat) : OwnCycle s a n := by
  intro o ho
  rw [List.isEmpty_iff.1 h] at ho
  cases ho

/-- Scratchpad loads and stores and SATOM, at the last place of the allocation and beyond it. -/
theorem test_hyp_scratchpad : let s := sMem 0x7FFFFF (fun c => c)
    (∀ mk ∈ [Instr.ldsW32, .ldsW64, .stsW32, .stsW64, .satom], Ready (mk g0 (fMem 354 0)) s)
    ∧ Ready (.ldsRow g0 (fMem 6 0)) s
    ∧ (∀ a n, SpadQuiet s a n) ∧ NoneAhead s ∧ OwnCycle s 0x7FFFFC 8
    ∧ Ready (.stsRow g0 (fMem 6 0)) s ∧ rdRowSrc (staged (.stsRow g0 (fMem 6 0)) s) 27 0 6 = .ok (rowT 6) ∧ tagFmt (rowT 6).tag ≠ 8
    ∧ rdScalarSrc (staged (.stsW32 g0 (fMem 354 0)) s) 0 354 = .ok ⟨5, 24⟩
    ∧ rdScalarSrc (staged (.stsW64 g0 (fMem 354 0)) s) 0 354 = .ok ⟨5, 24⟩
    ∧ rdScalarSrc (staged (.satom g0 (fMem 354 0)) s) 0 354 = .ok ⟨5, 24⟩ :=
  ⟨each (p := fun mk => readyB (mk g0 (fMem 354 0)) (sMem 0x7FFFFF fun c => c)) (by decide +kernel) fun _ => ready,
    ready (by decide +kernel), quiet _ rfl, alone (by decide +kernel), own_cycle (by decide +kernel) _ _, ready (by decide +kernel), gives_eq (by decide +kernel), by decide, gives_eq (by decide +kernel),
    gives_eq (by decide +kernel), gives_eq (by decide +kernel)⟩

theorem globalAt {ea : Word} {n : Nat} (h : decide (bitsOf 56 8 ea.toNat = 0 ∧ ea.toNat % n = 0) = true) : GlobalAt ea n := by
  have k : bitsOf 56 8 ea.toNat = 0 ∧ ea.toNat % n = 0 := of_decide_eq_true h
  exact k

/-- A global load: everything the statement asks for, with 31 entries in the LDQ. -/
def loadHyp (i : Instr) (f : MXF) (s : State) (n align esz p : Nat) (demand : Bool) : Prop :=
  ∃ runs c, Ready i s ∧ s.cur.ldq.length < 32 ∧ GlobalAt (address s f true) align
    ∧ trAccess (staged i s) .r (address s f true).toNat n = .ok runs
    ∧ loadCounts (staged i s) esz p demand (address s f true).toNat runs = .ok c
    ∧ readSetFull (staged i s) (dataParts (address s f true).toNat runs ++ c.2) = false
def loadB (i : Instr) (f : MXF) (s : State) (n align esz p : Nat) (demand : Bool) : Bool :=
  let runs := got [] (trAccess (staged i s) .r (address s f true).toNat n)
  let c := got ([], []) (loadCounts (staged i s) esz p demand (address s f true).toNat runs)
  readyB i s && decide (s.cur.ldq.length < 32) && decide (bitsOf 56 8 (address s f true).toNat = 0 ∧ (address s f true).toNat % align = 0)
    && isOk (trAccess (staged i s) .r (address s f true).toNat n)
    && isOk (loadCounts (staged i s) esz p demand (address s f true).toNat runs)
    && !readSetFull (staged i s) (dataParts (address s f true).toNat runs ++ c.2)
theorem loads {i : Instr} {f : MXF} {s : State} {n align esz p : Nat} {demand : Bool} (h : loadB i f s n align esz p demand = true) :
    loadHyp i f s n align esz p demand := by
  simp only [loadB, Bool.and_eq_true, Bool.not_eq_true'] at h
  obtain ⟨⟨⟨⟨⟨h1, h2⟩, h3⟩, h4⟩, h5⟩, h6⟩ := h
  exact ⟨_, _, ready h1, of_decide_eq_true h2, globalAt h3, ok_got [] _ h4, ok_got ([], []) _ h5, h6⟩
/-- The LDQ with 31 entries. -/
def full31 (c : Ctx) : Ctx := { c with ldq := List.replicate 31 ⟨7, false, none, false, false⟩ }
theorem test_hyp_globalLoads :
    loadHyp (.ldgRow g0 (fMem 0 5)) (fMem 0 5) (sMem 0xFFFFFFFFFFFF00 full31) 256 16 2 8 false
    ∧ loadHyp (.ldgW32 g0 (fMem 0 0)) (fMem 0 0) (sMem 0xFFFFFFFFFFFFFC full31) 4 4 4 24 false
    ∧ loadHyp (.ldgW64 g0 (fMem 0 0)) (fMem 0 0) (sMem 0xFFFFFFFFFFFFF8 full31) 8 8 0 24 false
    ∧ loadHyp (.ldgTag g0 (fMem 0 0)) (fMem 0 0) (sMem 0x200FFC full31) 4 4 4 24 true
    ∧ loadHyp (.ldgTag g0 (fMem 0 6)) (fMem 0 6) (sMem 0x200F00 full31) 256 16 4 24 true :=
  ⟨loads (by decide +kernel), loads (by decide +kernel), loads (by decide +kernel), loads (by decide +kernel), loads (by decide +kernel)⟩

/-- PFG; LDQ.DROP of every entry. -/
theorem test_hyp_prefetchAndDrop : Ready (.pfg g0 (fMem 0 0)) (sMem 0 full31)
    ∧ Ready (.ldqDrop g0 ⟨0, 0, 0, 31, 0⟩) (sMem 0 full31) ∧ (31 : BitVec 24).toNat ≤ (sMem 0 full31).cur.ldq.length :=
  ⟨ready (by decide +kernel), ready (by decide +kernel), by decide +kernel⟩

/-- A domain with one task, which the context runs. -/
def task1 : Task := ⟨1, none, 0, 0, 0, 0, 0, .running, some 0, [], 0, [], none, 0, false, 63, false, false⟩
def dom1 (l : List Task) : Dom := ⟨1, 0, [0], 0, 0, 4, 0, 0, 64, [0], 0, [0], l, 2, 0, none, false, false, [], some 0, 0, 0, true, [], []⟩
def inTask (spec : Bool) (s : State) : State :=
  { s with doms := [dom1 [task1]], cur := { s.cur with task := some ⟨1, 1, 0, spec, !spec, false, 0, 0, 1⟩ } }

/-- A global store whose parts are not empty, or are. -/
def storeHyp (i : Instr) (s : State) (ea : Word) (align : Nat) (bytes : List Byte) (mask : List Bool) (tagged : Option (Nat × List Nat))
    (empty : Bool) : Prop :=
  ∃ runs sh, Ready i s ∧ GlobalAt ea align ∧ trAccess (staged i s) .w ea.toNat bytes.length = .ok runs
    ∧ storeShadow (staged i s) .w mask tagged ea.toNat 0 runs = .ok sh
    ∧ ((dataParts ea.toNat runs ++ sh.1).filter (livePart mask sh.2.2)).isEmpty = empty ∧ NoneAhead s
def storeB (i : Instr) (s : State) (ea : Word) (align : Nat) (bytes : List Byte) (mask : List Bool) (tagged : Option (Nat × List Nat))
    (empty : Bool) : Bool :=
  let runs := got [] (trAccess (staged i s) .w ea.toNat bytes.length)
  let sh := got ([], [], []) (storeShadow (staged i s) .w mask tagged ea.toNat 0 runs)
  readyB i s && decide (bitsOf 56 8 ea.toNat = 0 ∧ ea.toNat % align = 0) && isOk (trAccess (staged i s) .w ea.toNat bytes.length)
    && isOk (storeShadow (staged i s) .w mask tagged ea.toNat 0 runs)
    && decide (((dataParts ea.toNat runs ++ sh.1).filter (livePart mask sh.2.2)).isEmpty = empty) && decide (wentOf s = [])
theorem stores {i : Instr} {s : State} {ea : Word} {align : Nat} {bytes : List Byte} {mask : List Bool} {tagged : Option (Nat × List Nat)}
    {empty : Bool} (h : storeB i s ea align bytes mask tagged empty = true) : storeHyp i s ea align bytes mask tagged empty := by
  simp only [storeB, Bool.and_eq_true] at h
  obtain ⟨⟨⟨⟨⟨h1, h2⟩, h3⟩, h4⟩, h5⟩, h6⟩ := h
  exact ⟨_, _, ready h1, globalAt h2, ok_got [] _ h3, ok_got ([], [], []) _ h4, of_decide_eq_true h5, alone h6⟩
/-- Stores at the end of the address space; one under a mask that enables nothing; tagged stores into the shadow's page. -/
theorem test_hyp_globalStores :
    storeHyp (.stgRow g0 (fMem 6 0)) (sMem 0xFFFFFFFFFFFF00 id) 0xFFFFFFFFFFFF00 16 (rowBytes (rowT 6)) (byteMask (BitVec.allOnes 128) 6) none false
    ∧ storeHyp (.stgRow g0 (fMem 6 1)) (sMem 0xFFFFFFFFFFFF00 id) 0xFFFFFFFFFFFF00 16 (rowBytes (rowT 6)) (byteMask 0 6) none true
    ∧ rdRowSrc (staged (.stgRow g0 (fMem 6 0)) (sMem 0xFFFFFFFFFFFF00 id)) 27 0 6 = .ok (rowT 6)
    ∧ storeHyp (.stgW32 g0 (fMem 354 0)) (sMem 0xFFFFFFFFFFFFFC id) 0xFFFFFFFFFFFFFC 4 (leBytes 4 5) (allOnes 4) none false
    ∧ storeHyp (.stgW64 g0 (fMem 354 0)) (sMem 0xFFFFFFFFFFFFF8 id) 0xFFFFFFFFFFFFF8 8 (leBytes 8 5) (allOnes 8) none false
    ∧ rdScalarSrc (staged (.stgW32 g0 (fMem 354 0)) (sMem 0xFFFFFFFFFFFFFC id)) 0 354 = .ok ⟨5, 24⟩
    ∧ rdScalarSrc (staged (.stgW64 g0 (fMem 354 0)) (sMem 0xFFFFFFFFFFFFF8 id)) 0 354 = .ok ⟨5, 24⟩
    ∧ storeHyp (.stgTag g0 (fMem 354 0)) (sMem 0x200FFC id) 0x200FFC 4 (leBytes 4 5) (allOnes 4) (some (4, [24])) false
    ∧ rdSel (staged (.stgTag g0 (fMem 354 0)) (sMem 0x200FFC id)) 27 0 354 = .ok (.scalar ⟨5, 24⟩)
    ∧ storeHyp (.stgTag g0 (fMem 6 0)) (sMem 0x200F00 id) 0x200F00 16 (rowBytes (rowT 6)) (byteMask (BitVec.allOnes 128) 6)
      (some (rowEsz (rowT 6).tag, (rowLanes (rowT 6)).map Lane.cnt)) false
    ∧ rdSel (staged (.stgTag g0 (fMem 6 0)) (sMem 0x200F00 id)) 27 0 6 = .ok (.row (rowT 6)) :=
  ⟨stores (by decide +kernel), stores (by decide +kernel), gives_eq (by decide +kernel), stores (by decide +kernel), stores (by decide +kernel),
    gives_eq (by decide +kernel), gives_eq (by decide +kernel), stores (by decide +kernel), gives_eq (by decide +kernel),
    stores (by decide +kernel), gives_eq (by decide +kernel)⟩

/-- A store of a speculative task, into its buffer. -/
theorem test_hyp_bufferedStore : let s := inTask true (sMem 0xFFFFFFFFFFFFF8 id)
    storeHyp (.stgW64 g0 (fMem 354 0)) s 0xFFFFFFFFFFFFF8 8 (leBytes 8 5) (allOnes 8) none false
    ∧ rdScalarSrc (staged (.stgW64 g0 (fMem 354 0)) s) 0 354 = .ok ⟨5, 24⟩
    ∧ speculative s.cur = true ∧ s.taskOf s.cur = some task1 ∧ s.cur.task.isSome = true
    ∧ (bufLines (bufParts [] (leBytes 8 5) [] (allOnes 8) [] (dataParts 0xFFFFFFFFFFFFF8
        (got [] (trAccess (staged (.stgW64 g0 (fMem 354 0)) s) .w 0xFFFFFFFFFFFFF8 8))))).length ≤ 64 :=
  ⟨stores (by decide +kernel), gives_eq (by decide +kernel), by decide +kernel, by decide +kernel, rfl, by decide +kernel⟩

/-- Atomics of both widths, with and without a return, at the end of the address space. -/
def atomHyp (mk : Guard → MXF → Instr) (op : Nat) (f : MXF) (n : Nat) (s : State) : Prop :=
  ∃ runs sh, Ready (mk g0 f) s ∧ rdScalarSrc (staged (mk g0 f) s) 0 f.data = .ok ⟨5, 24⟩ ∧ s.cur.ldq.length < 32
    ∧ GlobalAt (address s f (op != 7)) n ∧ trAccess (staged (mk g0 f) s) .rw (address s f (op != 7)).toNat n = .ok runs
    ∧ (∀ y ∈ runs, paRegion y.2.2.pa = 0) ∧ atomShadow (staged (mk g0 f) s) op n (address s f (op != 7)).toNat (f.mod.getLsbD 3) runs = .ok sh
    ∧ speculative s.cur = false ∧ NoneAhead s
def atomB (mk : Guard → MXF → Instr) (op : Nat) (f : MXF) (n : Nat) (s : State) : Bool :=
  let runs := got [] (trAccess (staged (mk g0 f) s) .rw (address s f (op != 7)).toNat n)
  readyB (mk g0 f) s && gives (rdScalarSrc (staged (mk g0 f) s) 0 f.data) ⟨5, 24⟩ && decide (s.cur.ldq.length < 32)
    && decide (bitsOf 56 8 (address s f (op != 7)).toNat = 0 ∧ (address s f (op != 7)).toNat % n = 0)
    && isOk (trAccess (staged (mk g0 f) s) .rw (address s f (op != 7)).toNat n) && runs.all (fun y => paRegion y.2.2.pa = 0)
    && isOk (atomShadow (staged (mk g0 f) s) op n (address s f (op != 7)).toNat (f.mod.getLsbD 3) runs) && !speculative s.cur
    && decide (wentOf s = [])
theorem atoms {mk : Guard → MXF → Instr} {op : Nat} {f : MXF} {n : Nat} {s : State} (h : atomB mk op f n s = true) : atomHyp mk op f n s := by
  simp only [atomB, Bool.and_eq_true, Bool.not_eq_true'] at h
  obtain ⟨⟨⟨⟨⟨⟨⟨⟨h1, h2⟩, h3⟩, h4⟩, h5⟩, h6⟩, h7⟩, h8⟩, h9⟩ := h
  exact ⟨_, _, ready h1, gives_eq h2, of_decide_eq_true h3, globalAt h4, ok_got [] _ h5,
    fun y hy => of_decide_eq_true (List.all_eq_true.mp h6 y hy), ok_got ([], [], []) _ h7, h8, alone h9⟩
theorem test_hyp_atomics : ∀ x ∈ [(Instr.atomAdd, 0), (.atomMin, 1), (.atomMax, 2), (.atomAnd, 3), (.atomOr, 4), (.atomXor, 5), (.atomXchg, 6),
      (.atomCas, 7)],
    atomHyp x.1 x.2 (fMem 354 9) 8 (sMem 0xFFFFFFFFFFFFF8 full31) ∧ atomHyp x.1 x.2 (fMem 354 0) 4 (sMem 0xFFFFFFFFFFFFFC full31) :=
  each (p := fun x => atomB x.1 x.2 (fMem 354 9) 8 (sMem 0xFFFFFFFFFFFFF8 full31) && atomB x.1 x.2 (fMem 354 0) 4 (sMem 0xFFFFFFFFFFFFFC full31))
    (by decide +kernel) fun _ h => by
      simp only [Bool.and_eq_true] at h
      exact ⟨atoms h.1, atoms h.2⟩
theorem test_hyp_atomFadd : atomHyp .atomFadd 8 (fMem 354 8) 4 (sMem 0xFFFFFFFFFFFFFC full31) := atoms (by decide +kernel)

end Sys2Proof.Tests

namespace Sys2Proof.Tests

open Sys2Proof Sys2Proof.Machine Sys2Proof.Claims

/-! ### Slot M -/

def sLease (holder next : Option Nat) : Lease := ⟨holder, next, 32, [], []⟩
/-- Tile 0 with a lease and a chain, the context's rows 0 to 15 F32, row 16 I16; S1 holds a word. -/
def sArr (w : Word) (l : Lease) (ch : Option Chain) (lat : List OpLatch) : State :=
  let s := onCtx fun c => setS [(1, w)] { c with
    cb := ⟨Vector.replicate 16 0x3F80, 8, true⟩
    regs := { c.regs with rows := (16, rowT tagI16) :: (List.range 16).map fun n => (n, rowT tagF32) } }
  s.setTile { s.tile 0 with lease := l, chain := ch, gatherLat := lat, bLat := lat }
def chain1 (i32 : Bool) : Chain := ⟨1, 0, 0xFFFF, false, i32, 0, 0, false, [], [], []⟩
/-- ext of an MMA: sa 0, sb 0, sg 1, with the latch bits. -/
def fMma (lat : BitVec 21) : ENF := ⟨63, 0, 0, 0, 0, 0x40 + lat⟩

/-- LEASE, the three answers of LEASE.TRY, UNLEASE. -/
theorem test_hyp_leases :
    (let s := sArr 0 (sLease (some 0) (some 5)) none [];
      Ready (.lease g0 ⟨0⟩) s ∧ Ready (.leaseTry g0 ⟨0⟩) s ∧ Ready (.unlease g0 ⟨0⟩) s ∧ s.cur.task = none
      ∧ s.myTile.lease.holder = some s.cur.cid ∧ chainOf s s.cur = none)
    ∧ (let s := sArr 0 (sLease none none) none [];
      Ready (.leaseTry g0 ⟨0⟩) s ∧ (s.myTile.lease.holder.isNone && s.myTile.lease.next.isNone && s.myTile.lease.reqs.isEmpty) = true)
    ∧ (let s := sArr 0 (sLease (some 5) none) none [];
      Ready (.leaseTry g0 ⟨0⟩) s ∧ s.myTile.lease.holder ≠ some s.cur.cid
      ∧ (s.myTile.lease.holder.isNone && s.myTile.lease.next.isNone && s.myTile.lease.reqs.isEmpty) = false) :=
  ⟨⟨ready (by decide +kernel), ready (by decide +kernel), ready (by decide +kernel), rfl, by decide +kernel, by decide +kernel⟩,
    ⟨ready (by decide +kernel), by decide +kernel⟩, ⟨ready (by decide +kernel), by decide +kernel, by decide +kernel⟩⟩

/-- CHAIN.BEGIN over all sixteen blocks; CHAIN.END of an open chain. -/
theorem test_hyp_chains :
    (let s := sArr 0 (sLease (some 0) none) none [];
      Ready (.chainBegin g0 ⟨0xFFFF00000000⟩) s ∧ s.cur.task = none ∧ chainOf s s.cur = none ∧ s.myTile.lease.holder = some s.cur.cid
      ∧ ∀ b ∈ maskBlocks 0xFFFF, (s.cur.block b).isI32 = false)
    ∧ (let s := sArr 0 (sLease (some 0) none) (some (chain1 false)) [];
      Ready (.chainEnd g0 ⟨0⟩) s ∧ s.cur.task = none ∧ ChainOpen s (chain1 false)) :=
  ⟨⟨ready (by decide +kernel), rfl, by decide +kernel, by decide +kernel, by decide +kernel⟩,
    ⟨ready (by decide +kernel), rfl, by decide +kernel, by decide +kernel, by decide +kernel⟩⟩

/-- The MMAs on sixteen blocks; the float and the plane form from both latches. -/
theorem test_hyp_mma :
    (∀ x ∈ [(Instr.mmaBf16, false), (.mmaCb4, false), (.mmaPlane, true)],
      let s := sArr 0x33 (sLease (some 0) none) (some (chain1 x.2)) [];
      Ready (x.1 g0 (fMma 0)) s ∧ ChainOpen s (chain1 x.2) ∧ TokenFree s (fMma 0) ∧ s.cur.cb.valid = true ∧ s.cur.task = none
      ∧ descOk (reg s 1) x.2 = true ∧ ∀ b ∈ (descOf (reg s 1)).blocks, b < s.cur.bind.acc ∧ (chain1 x.2).mask.getLsbD b = true)
    ∧ (let s := sArr 0xF0 (sLease (some 0) none) (some (chain1 false)) [⟨3, true, 0, 1, 16⟩];
      Ready (.mmaBf16 g0 (fMma 0x30)) s ∧ descOk (reg s 1) false = true ∧ s.myTile.gatherLat.head? = some ⟨3, true, 0, 1, 16⟩
      ∧ s.myTile.bLat.head? = some ⟨3, true, 0, 1, 16⟩ ∧ (descOf (reg s 1)).mb = 1 ∧ (descOf (reg s 1)).kb = 1 ∧ (descOf (reg s 1)).nb = 16) :=
  ⟨each (p := fun x => readyB (x.1 g0 (fMma 0)) (sArr 0x33 (sLease (some 0) none) (some (chain1 x.2)) [])
      && decide ((sArr 0x33 (sLease (some 0) none) (some (chain1 x.2)) []).myTile.chain = some (chain1 x.2)
        ∧ (sArr 0x33 (sLease (some 0) none) (some (chain1 x.2)) []).cur.tok.getLsbD (fMma 0).tkd.toNat = false)
      && descOk (reg (sArr 0x33 (sLease (some 0) none) (some (chain1 x.2)) []) 1) x.2) (by decide +kernel) fun x h => by
        simp only [Bool.and_eq_true] at h
        exact ⟨ready h.1.1, ⟨(of_decide_eq_true h.1.2).1, rfl, rfl⟩, (of_decide_eq_true h.1.2).2, rfl, rfl, h.2, by
          have k : ∀ b ∈ (descOf 0x33).blocks, b < 16 ∧ (0xFFFF : BitVec 16).getLsbD b = true := by decide +kernel
          exact k⟩,
    ⟨ready (by decide +kernel), by decide +kernel, by decide +kernel, by decide +kernel, by decide +kernel, by decide +kernel, by decide +kernel⟩⟩

/-- MGATH of 32 lines, MLDB of 32 tiles, ACC.ZERO of every block outside a chain, ACC.WR of F32 rows, ACC.RD. -/
theorem test_hyp_arrayOperations :
    (let s := sArr 0x1F0001 (sLease (some 0) none) (some (chain1 false)) []; let f : ENF := ⟨63, 0, 0, 0, 0, 16 * 2 ^ 11 + 2⟩;
      Ready (.mgath g0 f) s ∧ ChainOpen s (chain1 false) ∧ TokenFree s f
      ∧ rdRowSrc (staged (.mgath g0 f) s) 99 1 (f.ext.extractLsb' 11 10) = .ok (rowT tagI16) ∧ bitsOf 0 16 (reg s 1).toNat ≠ 0
      ∧ bitsOf 16 8 (reg s 1).toNat + 1 ≤ 32 ∧ bitsOf 24 24 (reg s 1).toNat % 64 = 0 ∧ bitsOf 48 16 (reg s 1).toNat = 0)
    ∧ (let s := sArr 0x1F0 (sLease (some 0) none) (some (chain1 false)) []; let f : ENF := ⟨63, 0, 0, 0, 0, 2 ^ 11⟩;
      Ready (.mldb g0 f) s ∧ TokenFree s f ∧ bitsOf 0 4 (reg s 1).toNat = 0 ∧ bitsOf 16 48 (reg s 1).toNat = 0
      ∧ (bitsOf 8 8 (reg s 1).toNat + 1) * (bitsOf 4 4 (reg s 1).toNat + 1) ≤ 32)
    ∧ (let s := sArr 0 (sLease none none) none []; let f : ENF := ⟨63, 0, 0, 0, 0, 0x1FFFE0⟩;
      Ready (.accZero g0 f) s ∧ BlocksFree s (maskBlocks (f.ext.extractLsb' 5 16)) ∧ TokenFree s f)
    ∧ (let s := sArr 0 (sLease none none) none []; let f : ENF := ⟨63, 0, 0, 0, 0, 15 * 2 ^ 17⟩;
      Ready (.accWr g0 f) s ∧ BlocksFree s ((accPlaces f).map Prod.fst)
      ∧ (∀ r ∈ ((accPlaces f).flatMap fun p => (List.range (accHeight f)).map (· + p.2)).map s.cur.regs.row, r.tag = accTag f)
      ∧ Ready (.accRd g0 f) s ∧ waitsDone s.cur (consumed s.cur f) = true
      ∧ arrBefore s.myTile.arr s.cur.cid ((accPlaces f).map Prod.fst) = false ∧ inChainBank s ((accPlaces f).map Prod.fst) = false
      ∧ TokenFree s f ∧ ∀ p ∈ accPlaces f, (s.cur.block p.1).isI32 = (accFmt f = 2)) :=
  ⟨⟨ready (by decide +kernel), ⟨by decide +kernel, by decide +kernel, by decide +kernel⟩, by unfold TokenFree; decide +kernel,
      gives_eq (by decide +kernel), by decide +kernel, by decide +kernel, by decide +kernel, by decide +kernel⟩,
    ⟨ready (by decide +kernel), by unfold TokenFree; decide +kernel, by decide +kernel, by decide +kernel, by decide +kernel⟩,
    ⟨ready (by decide +kernel), by unfold BlocksFree; decide +kernel, by unfold TokenFree; decide +kernel⟩,
    ⟨ready (by decide +kernel), by unfold BlocksFree; decide +kernel, by decide +kernel, ready (by decide +kernel), by decide +kernel,
      by decide +kernel, by decide +kernel, by unfold TokenFree; decide +kernel, by decide +kernel⟩⟩

/-- CBLOAD from the scratchpad and from global memory once its bytes are read. -/
theorem test_hyp_cbload : let f : ENF := ⟨63, 0, 0, 0, 0, 2 ^ 16⟩;
    (let s := sArr 0x4000000000000040 (sLease none none) none [];
      Ready (.cbload g0 f) s ∧ TokenFree s f ∧ parseLoc (reg s 1) = .here 0x40 ∧ s.cur.bind.banks ≠ 0
      ∧ (parseCodebook (localRead s s.cur 0x40 64)).isSome = true)
    ∧ (let s := { sArr 0x40 (sLease none none) none [] with
        cur := { (sArr 0x40 (sLease none none) none []).cur with reads := [⟨3, 0x40, 64, some (List.replicate 64 0)⟩] } };
      Ready (.cbload g0 f) s ∧ parseLoc (reg s 1) = .glob 0x40
      ∧ s.cur.reads.find? (fun x => x.slot = 3) = some ⟨3, 0x40, 64, some (List.replicate 64 0)⟩
      ∧ (parseCodebook (List.replicate 64 0)).isSome = true) :=
  ⟨⟨ready (by decide +kernel), by unfold TokenFree; decide +kernel, by decide +kernel, by decide +kernel, by decide +kernel⟩,
    ⟨ready (by decide +kernel), by decide +kernel, by decide +kernel, by decide +kernel⟩⟩

end Sys2Proof.Tests

namespace Sys2Proof.Tests

open Sys2Proof Sys2Proof.Machine Sys2Proof.Claims

/-! ### Slot C -/

/-- A map of two dimensions, 256 elements of a byte in the first and one in the second (R241). -/
def map2 : BitVec 768 :=
  BitVec.ofNat 768 (2 * 2 ^ 56 + (256 + 2 ^ 32 + 256 * 2 ^ 72) * 2 ^ 128 + (1 + 2 ^ 32 + 2 ^ 72) * 2 ^ 224)
/-- A window one entry short of full. -/
def win15 : Window := { Window.reset with tail := 15 }
/-- S1: global 0; S2: the scratchpad's 0x40; S3: the longest length; S4: a barrier's global address; S5: stream 0; S6: length 32 with
seven remote counts; S7: count 1; S30: an index list in the scratchpad; S31: a count of rows. -/
def sCpy : State := mapped (onCtx fun c => setS [(2, 0x4000000000000040), (3, 1048576), (4, 0x100), (5, 0xC000000000000060),
  (6, 0x700000020), (30, 0x4000000000000000), (31, 4096)] { c with maps := Vector.replicate 8 (some map2), win := win15 })

/-- The common hypotheses of a command: the window has room, no task runs, the token is free. -/
theorem test_hyp_window : sCpy.cur.win.full = false ∧ sCpy.cur.task = none ∧ sCpy.cur.tok.getLsbD 63 = false
    ∧ sCpy.cur.win.tail = 15 := by decide +kernel
theorem test_hyp_map : mapBad map2 = false ∧ (mapNdim map2 - 1) / 2 + 1 = 1 ∧ boxBytes map2 % 256 = 0 := by decide +kernel

/-- CPY.ROW of sixteen rows with a barrier; CPY.SPAD; CPY.FILL of the longest run; CPY.RED of the shortest. -/
theorem test_hyp_flatCopies :
    (let f : ENF := ⟨63, 0, 0, 0, 0, 2 ^ 16 + 2 * 2 ^ 11 + 4 * 2 ^ 6 + 15 * 4⟩;
      Ready (.cpyRow g0 f) sCpy ∧ LocIs (.cpyRow g0 f) sCpy (reg sCpy 1) true true true false false (.glob 0)
      ∧ LocIs (.cpyRow g0 f) sCpy (reg sCpy 2) true true true true true (.here 0x40) ∧ ∃ bar, BarIs (.cpyRow g0 f) sCpy 4 bar)
    ∧ (let f : ENF := ⟨63, 0, 0, 0, 0, 2 * 2 ^ 16 + 2 * 2 ^ 11 + 3 * 2 ^ 6⟩;
      Ready (.cpySpad g0 f) sCpy ∧ LocIs (.cpySpad g0 f) sCpy (reg sCpy 2) true false true false false (.here 0x40)
      ∧ LocIs (.cpySpad g0 f) sCpy (reg sCpy 2) true false true true false (.here 0x40) ∧ LenIs (reg sCpy 3) 0 1048576
      ∧ BarIs (.cpySpad g0 f) sCpy 0 none)
    ∧ (let f : ENF := ⟨63, 0, 0, 0, 0, 2 ^ 16 + 3 * 2 ^ 11 + 3 * 2 ^ 6⟩;
      Ready (.cpyFill g0 f) sCpy ∧ LocIs (.cpyFill g0 f) sCpy (reg sCpy 1) true true true true false (.glob 0)
      ∧ LenIs (reg sCpy 3) 0 1048576 ∧ BarIs (.cpyFill g0 f) sCpy 0 none)
    ∧ (let f : ENF := ⟨63, 0, 0, 0, 0, 2 * 2 ^ 16 + 2 ^ 11 + 6 * 2 ^ 6⟩;
      Ready (.cpyRed g0 f) sCpy ∧ LocIs (.cpyRed g0 f) sCpy (reg sCpy 2) true true true false false (.here 0x40)
      ∧ LocIs (.cpyRed g0 f) sCpy (reg sCpy 1) true true false true false (.glob 0) ∧ LenIs (reg sCpy 6) 7 32
      ∧ BarIs (.cpyRed g0 f) sCpy 0 none) :=
  ⟨⟨ready (by decide +kernel), gives_eq (by decide +kernel), gives_eq (by decide +kernel), ⟨_, ok_got none _ (by decide +kernel)⟩⟩,
    ⟨ready (by decide +kernel), gives_eq (by decide +kernel), gives_eq (by decide +kernel), by unfold LenIs; decide +kernel, rfl⟩,
    ⟨ready (by decide +kernel), gives_eq (by decide +kernel), by unfold LenIs; decide +kernel, rfl⟩,
    ⟨ready (by decide +kernel), gives_eq (by decide +kernel), gives_eq (by decide +kernel), by unfold LenIs; decide +kernel, rfl⟩⟩

/-- CPY.TEN to a stream register with its coordinates in S31, and storing; CPY.GATH and CPY.SCAT with the list in S30 and S31. -/
theorem test_hyp_mappedCopies :
    (let f : ENF := ⟨63, 0, 0, 0, 0, 31 * 2 ^ 13 + 5 * 2 ^ 8⟩;
      Ready (.cpyTen g0 f) sCpy ∧ sCpy.cur.mapOf (.cpyTen anyGuard f) = some map2
      ∧ LocIs (.cpyTen g0 f) sCpy (reg sCpy 5) false false true true true (.stream 0 6) ∧ BarIs (.cpyTen g0 f) sCpy 0 none)
    ∧ (let f : ENF := ⟨63, 0, 0, 0, 0, 31 * 2 ^ 13 + 2 * 2 ^ 8 + 2⟩;
      Ready (.cpyTen g0 f) sCpy ∧ LocIs (.cpyTen g0 f) sCpy (reg sCpy 2) false false true false false (.here 0x40)
      ∧ BarIs (.cpyTen g0 f) sCpy 0 none)
    ∧ (let f : ENF := ⟨63, 0, 0, 0, 0, 30 * 2 ^ 13 + 5 * 2 ^ 8⟩;
      Ready (.cpyGath g0 f) sCpy ∧ sCpy.cur.mapOf (.cpyGath anyGuard f) = some map2 ∧ ListIs sCpy map2 30 (reg sCpy 30) (reg sCpy 31)
      ∧ LocIs (.cpyGath g0 f) sCpy (reg sCpy 5) false false true true true (.stream 0 6) ∧ BarIs (.cpyGath g0 f) sCpy 0 none)
    ∧ (let f : ENF := ⟨63, 0, 0, 0, 0, 30 * 2 ^ 13 + 2 * 2 ^ 8⟩;
      Ready (.cpyScat g0 f) sCpy ∧ sCpy.cur.mapOf (.cpyScat anyGuard f) = some map2
      ∧ LocIs (.cpyScat g0 f) sCpy (reg sCpy 2) false false true false false (.here 0x40) ∧ BarIs (.cpyScat g0 f) sCpy 0 none) := by
  refine ⟨⟨ready (by decide +kernel), by decide +kernel, gives_eq (by decide +kernel), rfl⟩,
    ⟨ready (by decide +kernel), gives_eq (by decide +kernel), rfl⟩,
    ⟨ready (by decide +kernel), by decide +kernel, ?_, gives_eq (by decide +kernel), rfl⟩,
    ⟨ready (by decide +kernel), by decide +kernel, gives_eq (by decide +kernel), rfl⟩⟩
  unfold ListIs
  have e : parseLoc (reg sCpy 30) = .here 0 := by decide +kernel
  rw [e]
  exact ⟨by decide, by decide +kernel, by decide +kernel, ⟨by decide, by decide +kernel⟩, by decide +kernel, by decide +kernel,
    by decide +kernel, by decide +kernel⟩

/-- TMAP with its bytes read; binding and unbinding a drained register; BERTH.SET. -/
theorem test_hyp_mapsAndBindings :
    (let s := { sCpy with cur := { sCpy.cur with reads := [⟨6, 0x100, 96, some (leBytes 96 map2.toNat)⟩] } };
      Ready (.tmap g0 ⟨4 * 2 ^ 43⟩) s ∧ bitsOf 56 8 (reg s 4).toNat = 0 ∧ (reg s 4).toNat % 32 = 0
      ∧ s.cur.reads.find? (fun x => x.slot = 6) = some ⟨6, 0x100, 96, some (leBytes 96 map2.toNat)⟩
      ∧ mapBad (BitVec.ofNat 768 (leNat (leBytes 96 map2.toNat))) = false)
    ∧ (let f : ENF := ⟨63, 0, 0, 0, 0, 30 * 2 ^ 16⟩;
      Ready (.cpyBind g0 f) sCpy ∧ TokenFree sCpy f ∧ parseLoc (reg sCpy 30) = .here 0 ∧ sCpy.cur.bind.banks ≠ 0)
    ∧ (let f : ENF := ⟨63, 0, 0, 0, 0, 2 ^ 12⟩;
      Ready (.cpyBindOff g0 f) sCpy ∧ TokenFree sCpy f
      ∧ (sCpy.cur.win.q.toList.getD 0 QBind.none).wr = (sCpy.cur.win.q.toList.getD 0 QBind.none).rd)
    ∧ Ready (.berthSet g0 ⟨64 * 2 ^ 41⟩) sCpy :=
  ⟨⟨ready (by decide +kernel), by decide +kernel, by decide +kernel, by decide +kernel, by decide +kernel⟩,
    ⟨ready (by decide +kernel), by unfold TokenFree; decide +kernel, by decide +kernel, by decide +kernel⟩,
    ⟨ready (by decide +kernel), by unfold TokenFree; decide +kernel, by decide +kernel⟩, ready (by decide +kernel)⟩
/-- Polling and cancelling. -/
theorem test_hyp_polling : ∀ mk ∈ [Instr.cpyPoll, .cpyPollWin, .cpyCancel, .cpyCancelAll], Ready (mk g0 ⟨63 * 2 ^ 39⟩) sCpy :=
  each (p := fun mk => readyB (mk g0 ⟨63 * 2 ^ 39⟩) sCpy) (by decide +kernel) fun _ => ready

end Sys2Proof.Tests

namespace Sys2Proof.Tests

open Sys2Proof Sys2Proof.Machine Sys2Proof.Claims

/-! ### Slot Y -/

/-- S1: a global word; S2: 0xFFFF, which leaves bits 39:16 zero; S3: the scratchpad's first word; row 6 is an F32 row. -/
def sSync (f : Ctx → Ctx) : State := mapped (onCtx fun c => f (setS [(1, 0xFFFFFFFFFFFFF0), (2, 0xFFFF), (3, 0x4000000000000000)]
  { c with regs := { c.regs with rows := [(6, rowT 6)] } }))
/-- sa 1, sb 2, the operand in a register; the row selector of the queue operations names row 6. -/
def fSync : SYF := ⟨1, 2, 3, 0x10000⟩
def fQ : SYF := ⟨1, 0, 3, 6 * 2 ^ 25⟩

/-- Ready, with a sync address in S1 that is well formed. -/
def SyncHyp (i : Instr) (s : State) (tagged : Bool) : Prop := Ready i s ∧ ∃ a, SyncIs i s (reg s 1) tagged a
def syncB (i : Instr) (s : State) (tagged : Bool) : Bool := readyB i s && isOk (syncAddr (staged i s) (reg s 1) tagged)
theorem syncHyp {i : Instr} {s : State} {tagged : Bool} (h : syncB i s tagged = true) : SyncHyp i s tagged := by
  simp only [syncB, Bool.and_eq_true] at h
  exact ⟨ready h.1, ⟨_, ok_got ⟨0, 0, none, 0, []⟩ _ h.2⟩⟩
/-- The posting operations on a global word, and on a word of the scratchpad. -/
theorem test_hyp_posting : (∀ x ∈ [(Instr.semInit, false), (.semPost, false), (.barInit, true), (.barArrive, true), (.barExpect, true),
      (.rel, false)], SyncHyp (x.1 g0 fSync) (sSync id) x.2)
    ∧ (sSync id).cur.task = none ∧ bitsOf 16 24 (reg (sSync id) 2).toNat = 0 :=
  ⟨each (p := fun x => syncB (x.1 g0 fSync) (sSync id) x.2) (by decide +kernel) fun _ => syncHyp, by decide +kernel, by decide +kernel⟩
theorem test_hyp_scratchpadWord :
    SyncIs (.semPost g0 ⟨3, 2, 0, 0⟩) (sSync id) (reg (sSync id) 3) false ⟨0x4000000000000000, spadPlace 0, none,
      anchorOf (sSync id).cur 0x4000000000000000, []⟩ := gives_eq (by decide +kernel)

/-- The answers that are no fault. -/
def pend (code : Nat) (r : Option Row) : Pending := ⟨5, some code, 0, r, none, []⟩
def sAns (code : Nat) (r : Option Row) : State := sSync fun c => { c with wait := some (pend code r) }
theorem test_hyp_answers : ∀ n ∈ [0, 1, 5, 6], Answer (sAns n none) (pend n none) n := by
  intro n hn
  refine ⟨rfl, rfl, ?_⟩
  revert n
  decide
theorem test_hyp_answered : (∀ x ∈ [(Instr.semWait, false), (.barWait, true), (.acq, false), (.semTry, false), (.barTest, true),
      (.qInfo, false), (.qPush, false), (.qTry, false), (.qPop, false), (.qPopTry, false), (.qPeek, false)],
    SyncHyp (x.1 g0 fQ) (sAns 1 none) x.2)
    ∧ (sAns 1 none).cur.task = none ∧ speculative (sAns 1 none).cur = false :=
  ⟨each (p := fun x => syncB (x.1 g0 fQ) (sAns 1 none) x.2) (by decide +kernel) fun _ => syncHyp, by decide +kernel, by decide +kernel⟩
theorem test_hyp_queueRows : rdRowSrc (staged (.qPush g0 fQ) (sAns 1 none)) 99 1 (syQSel fQ) = .ok (rowT 6)
    ∧ rdRowSrc (staged (.qTry g0 fQ) (sAns 1 none)) 99 1 (syQSel fQ) = .ok (rowT 6)
    ∧ Answer (sAns 1 (some (rowT 6))) (pend 1 (some (rowT 6))) 1 ∧ Answer (sAns 0 none) (pend 0 none) 0 :=
  ⟨gives_eq (by decide +kernel), gives_eq (by decide +kernel), ⟨rfl, rfl, by decide⟩, ⟨rfl, rfl, by decide⟩⟩

/-- A group of the context and a second one, whose context is another's. -/
def group1 (members arrived pass : List Nat) : Group :=
  ⟨1, 1, 1, 0, 0, .running, 0, members, 0, 32, arrived, [], [], pass, [], [], false, [], [], false, none, none⟩
def inGroup (g : Group) (s : State) : State :=
  { s with groups := [g], cur := { s.cur with bind := { s.cur.bind with group := 1, launch := 1, pipes := [(0, 7)] } },
           others := [{ Ctx.fresh 1 with status := .ready }] }
/-- GBAR: let pass, as the only member, as the last to arrive, without a group. -/
theorem test_hyp_gbar :
    (let s := inGroup (group1 [0, 1] [] [0]) (sSync id);
      Ready (.gbar g0 ⟨0⟩) s ∧ s.group s.cur.bind.group = some (group1 [0, 1] [] [0]) ∧ (group1 [0, 1] [] [0]).pass.contains s.cur.cid = true)
    ∧ (let s := inGroup (group1 [0] [] []) (sSync id);
      Ready (.gbar g0 ⟨0⟩) s ∧ (group1 [0] [] []).pass.contains s.cur.cid = false ∧ otherMembers s (group1 [0] [] []) s.cur.cid = [])
    ∧ (let s := inGroup (group1 [0, 1] [1] []) (sSync id);
      Ready (.gbar g0 ⟨0⟩) s ∧ otherMembers s (group1 [0, 1] [1] []) s.cur.cid = [1] ∧ (group1 [0, 1] [1] []).arrived.contains 1 = true
      ∧ carryDone s (visibleWrites s.cur ++ (group1 [0, 1] [1] []).gcarry) = true
      ∧ (∀ y ∈ (group1 [0, 1] [1] []).along, alongWaits s y.2 = false)
      ∧ ∃ z, (completeBarrier (staged (.gbar g0 ⟨0⟩) s) (group1 [0, 1] [1] []) s.cur.cid).group s.cur.bind.group = some z
        ∧ z.pass.contains s.cur.cid = true)
    ∧ (Ready (.gbar g0 ⟨0⟩) (sSync id) ∧ (sSync id).group (sSync id).cur.bind.group = none) :=
  ⟨⟨ready (by decide +kernel), by decide +kernel, by decide +kernel⟩, ⟨ready (by decide +kernel), by decide +kernel, by decide +kernel⟩,
    ⟨ready (by decide +kernel), by decide +kernel, by decide +kernel, by decide +kernel⟩, ⟨ready (by decide +kernel), by decide +kernel⟩⟩
/-- TKWAIT on the upper tokens, none pending; TKCLR; the regions: a mooring up to the end of the addresses. -/
theorem test_hyp_tokensAndRegions :
    Ready (.tkwait g0 ⟨0xFFFFFFFF8000⟩) (sSync id) ∧ (sSync id).cur.tok &&& namedTokens ⟨0xFFFFFFFF8000⟩ = 0
    ∧ Ready (.tkclr g0 ⟨0xFFFFFFFF8000⟩) (sSync id)
    ∧ (let s := sSync fun c => setS [(1, 0xFFFFFFFFFFFFF0), (2, 0xFFFFFFFFFFFFC0)] c; let f : SYF := ⟨1, 2, 0, 15 * 2 ^ 31⟩;
      Ready (.moor g0 f) s ∧ isOk (syncForm s (reg s 1) false) = true ∧ (reg s 2).toNat % 64 = 0
      ∧ (reg s 2).toNat + 64 * (bitsOf 0 24 f.ext.toNat + 1) ≤ 2 ^ 56)
    ∧ Ready (.unmoor g0 ⟨0, 0, 0, 15 * 2 ^ 31⟩) (sSync id) ∧ Ready (.unmoor g0 ⟨0, 0, 0, 2 ^ 30⟩) (sSync id)
    ∧ Ready (.fence g0 ⟨5 * 2 ^ 45 + 3 * 2 ^ 43⟩) (sSync id) :=
  ⟨ready (by decide +kernel), by decide +kernel, ready (by decide +kernel),
    ⟨ready (by decide +kernel), by decide +kernel, by decide +kernel, by decide +kernel⟩,
    ready (by decide +kernel), ready (by decide +kernel), ready (by decide +kernel)⟩

/-- A pipe of one slot whose ends are groups 1: free, or with a row that has arrived. -/
def pipe7 (free : Nat) (rows : List PipeRow) : Pipe := ⟨7, 0, 1, free, rows, [], [], 1, 1⟩
def sPipe (p : Pipe) : State := { inGroup (group1 [0, 1] [] []) (sSync id) with pipes := [p] }
def fPipe : SYF := ⟨0, 0, 3, 6 * 2 ^ 21⟩
theorem test_hyp_pipes : let row : PipeRow := ⟨9, 0, rowT 6, true, []⟩;
    (let s := sPipe (pipe7 1 []);
      Ready (.pipePush g0 fPipe) s ∧ pipeAt s (syPipe fPipe) true = .ok (pipe7 1 [])
      ∧ rdRowSrc (staged (.pipePush g0 fPipe) s) 99 1 (syPipeSel fPipe) = .ok (rowT 6) ∧ groupGone s 1 = false
      ∧ (pipe7 1 []).place s.cur.cid < (pipe7 1 []).free)
    ∧ (let s := sPipe (pipe7 0 [row]);
      Ready (.pipePop g0 fPipe) s ∧ Ready (.pipePopTry g0 fPipe) s ∧ pipeAt s (syPipe fPipe) false = .ok (pipe7 0 [row])
      ∧ pipeEmptyClosed s (pipe7 0 [row]) = false ∧ claimable (pipe7 0 [row]) s.cur.cid = some row)
    ∧ (let s := sPipe (pipe7 1 []);
      Ready (.pipePopTry g0 fPipe) s ∧ pipeEmptyClosed s (pipe7 1 []) = false ∧ claimable (pipe7 1 []) s.cur.cid = none) :=
  ⟨⟨ready (by decide +kernel), gives_eq (by decide +kernel), gives_eq (by decide +kernel), by decide +kernel, by decide +kernel⟩,
    ⟨ready (by decide +kernel), ready (by decide +kernel), gives_eq (by decide +kernel), by decide +kernel, by decide +kernel⟩,
    ⟨ready (by decide +kernel), by decide +kernel, by decide +kernel⟩⟩

/-- SPAWN by a task with one child and one place left; the ends of a task; TS.GET. -/
def sTask (front : Bool) : State := inTask (!front) (sSync id)
theorem test_hyp_tasks : let s := sTask false; let f : SYF := ⟨1, 2, 0, 0⟩;
    Ready (.spawn g0 f) s ∧ s.cur.task = some ⟨1, 1, 0, true, false, false, 0, 0, 1⟩ ∧ s.taskOf s.cur = some task1
    ∧ s.dom 1 = some (dom1 [task1]) ∧ (0 : Nat) ≤ (reg s 1).toNat ∧ bitsOf 22 8 f.ext.toNat < (dom1 [task1]).table.length
    ∧ (dom1 [task1]).tasks.length < (dom1 [task1]).maxTask ∧ task1.spawned < 64
    ∧ Ready (.taskEnd g0 ⟨0⟩) s ∧ Ready (.taskAbandon g0 ⟨0⟩) s ∧ Ready (.tsGet g0 f) s ∧ Ready (.tsGet g0 f) (sSync id) :=
  ⟨ready (by decide +kernel), by decide +kernel, by decide +kernel, by decide +kernel, by decide +kernel, by decide +kernel, by decide +kernel,
    by decide, ready (by decide +kernel), ready (by decide +kernel), ready (by decide +kernel), ready (by decide +kernel)⟩

/-- A launch of one group, nothing outstanding. -/
def launch1 : Launch :=
  ⟨1, 0, 3, 0, [0], 1, [2], 1, 0, 0, 0, 0, none, [], [], [], 1, false, 0, false, false, 0, some 0, 0, 0, 0, none, [], [], [], 0, false, 0⟩
def sGroup : State := { inGroup (group1 [0, 1] [] []) (sSync id) with launches := [launch1] }
theorem test_hyp_group :
    Ready (.bankRel g0 ⟨0x80000000⟩) sGroup
    ∧ (∀ c ∈ groupCtxs (staged (.bankRel g0 ⟨0x80000000⟩) sGroup), (ringBanks c).contains 31 = false)
    ∧ Ready (.hintSucc g0 ⟨0⟩) sGroup ∧ sGroup.group 1 = some (group1 [0, 1] [] []) ∧ sGroup.cur.bind.group = 1
    ∧ (group1 [0, 1] [] []).succ = false ∧ sGroup.launch 1 = some launch1
    ∧ Ready (.hintSucc g0 ⟨0⟩) (sSync id) ∧ Ready (.waitvis g0 ⟨0⟩) sGroup ∧ launch1.visReady = true
    ∧ Ready (.waitvis g0 ⟨0⟩) (sSync id) ∧ (sSync id).launch (sSync id).cur.bind.launch = none
    ∧ Ready (.complete g0 ⟨1, 0, 0, 3⟩) sGroup ∧ Ready (.phase g0 ⟨15⟩) sGroup
    ∧ (let s := inGroup { group1 [0, 1] [] [] with succ := true } (sSync id); Ready (.hintSucc g0 ⟨0⟩) s) :=
  ⟨ready (by decide +kernel), by decide +kernel, ready (by decide +kernel), by decide +kernel, by decide +kernel, rfl, by decide +kernel,
    ready (by decide +kernel), ready (by decide +kernel), by decide +kernel, ready (by decide +kernel), by decide +kernel,
    ready (by decide +kernel), ready (by decide +kernel), ready (by decide +kernel)⟩

/-- TRAP, SLEEP, END; RETT with a frame of zeros in the scratch of the save area. -/
def sTrap : State := sSync fun c => { c with crs := { c.crs with intrap := true, tfpc := 0x40 } }
theorem test_hyp_context :
    (∀ mk ∈ [Instr.trap, .sleep, .endCtx], Ready (mk g0 ⟨0⟩) (sSync id)) ∧ chainOf (sSync id) (sSync id).cur = none
    ∧ windowBusy (sSync id).cur = false ∧ arrayBusy (sSync id) (sSync id).cur = false
    ∧ Ready (.rett g0 ⟨0⟩) sTrap ∧ sTrap.cur.crs.intrap = true ∧ anyStorePending sTrap sTrap.cur.cid = false
    ∧ (match readFrame (staged (.rett g0 ⟨0⟩) sTrap) with | .ok (some _) => true | _ => false) = true :=
  ⟨each (p := fun mk => readyB (mk g0 ⟨0⟩) (sSync id)) (by decide +kernel) fun _ => ready, by decide +kernel, by decide +kernel, by decide +kernel,
    ready (by decide +kernel), rfl, by decide +kernel, by decide +kernel⟩

end Sys2Proof.Tests

namespace Sys2Proof.Tests

open Sys2Proof Sys2Proof.Machine Sys2Proof.Claims

/-! ### Contexts: results, traps, waits, saves -/

theorem isSome_some {α : Type} {o : Option α} (h : o.isSome = true) : ∃ x, o = some x := Option.isSome_iff_exists.mp h
theorem isOk_ok {α : Type} {r : Op α} (h : isOk r = true) : ∃ x, r = .ok x := by
  cases r with
  | ok x => exact ⟨x, rfl⟩
  | error e => cases h
/-- An answer of a read or write by virtual address. -/
def went {ε α : Type} (r : Except ε α) : Bool :=
  match r with
  | .ok _ => true
  | .error _ => false
theorem went_ok {ε α : Type} {r : Except ε α} (h : went r = true) : ∃ x, r = .ok x := by
  cases r with
  | ok x => exact ⟨x, rfl⟩
  | error e => cases h

/-- A result that is due now. -/
def dueFl : Flight := ⟨0, 0, 0, 0, 0, 0, 0, [.scalar 1 ⟨5, 24⟩], .scalar ⟨5, 24⟩, 0, none, 0, none, Replay.none⟩
def kTrap : Cause := { cls := 0x21 }
theorem test_hyp_contextEvents :
    (let s := onCtx fun c => { c with fl := [dueFl] }; s.hasCtx 0 = true ∧ dueNow s (s.ctx 0) ≠ [])
    ∧ (let s := onCtx fun c => { c with status := .running, pends := [kTrap] };
      s.hasCtx 0 = true ∧ (s.ctx 0).status = .running ∧ (s.ctx 0).crs.intrap = false ∧ (s.ctx 0).reinj = none
      ∧ performed s (s.ctx 0) = false ∧ dueNow s (s.ctx 0) = [] ∧ lowestCause (s.ctx 0).pends = some kTrap)
    ∧ (let s := onCtx fun c => { c with status := .blocked (.tokens (1 <<< 63)) };
      (s.ctx 0).status = .blocked (.tokens (1 <<< 63)) ∧ (s.ctx 0).tok &&& (1 <<< 63) = 0)
    ∧ (let s := onCtx fun c => { c with status := .ready }; (s.ctx 0).onCore = true ∧ ∀ d ∈ s.doms, d.ctxs.contains 0 = false) := by decide +kernel
/-- A sleep that has reached its deadline, whatever the tile's skew. -/
theorem test_hyp_sleepDeadline : let s := { onCtx (fun c => { c with sleepTill := some 9 }) with htime := 9 };
    (s.ctx 0).sleepTill = some 9 ∧ 9 ≤ tileTime s (tileOf 0) := ⟨by decide +kernel, Nat.le_add_right 9 _⟩

/-- The saved group 1 of one context in the widest binding. -/
def sSaved : State := { State.reset with groups := [{ group1 [0] [] [] with st := .saved }] }
theorem test_hyp_saves :
    (let s := onCtx fun c => { c with status := .ready, atSwp := true, preempt := true };
      (s.ctx 0).status ≠ .saving ∧ (s.ctx 0).preempt = true ∧ takeable s (s.ctx 0) = true)
    ∧ (let s := onCtx fun c => { c with status := .saving }; (s.ctx 0).status = .saving ∧ saveDrained s (s.ctx 0) = true)
    ∧ sSaved.group 1 = some { group1 [0] [] [] with st := .saved }
    ∧ restorable sSaved { group1 [0] [] [] with st := .saved } = true
    ∧ canRestore sSaved ((gangGroups sSaved { group1 [0] [] [] with st := .saved }).filter fun x => x.st = .saved) = true
    ∧ (∀ k ∈ sSaved.tickets, levelBefore sSaved k 1 = false → fitsSomewhere sSaved k = false) := by decide +kernel

/-- A context that was saved in memory of zeros behind its header: no rows, no blocks. -/
def sRestoring : State :=
  let b : Binding := { Binding.none with rows := 0, acc := 0 }
  let s := mapped (onCtx fun c => { c with status := .restoring, bind := b })
  { s with mem := memWrite [] 0 (leBytes 8 (headerWord s.cur true)) }

/-- The area as it is read: the header word and zeros. -/
def areaHdr : List Byte := leBytes 8 (headerWord sRestoring.cur true)
theorem restoring_mem : sRestoring.mem = [(3, 1), (4, 0xC0), (5, 3), (7, 0x80)] := by decide +kernel

theorem cut {h : List Byte} {m k n : Nat} (k1 : h.length ≤ k) (k2 : k + n ≤ h.length + m) :
    ((h ++ zeros m).drop k).take n = zeros n := by
  simp only [zeros, List.drop_append, List.drop_of_length_le k1, List.nil_append, List.drop_replicate, List.take_replicate]
  congr 1
  omega
theorem zeroAt_cut {h : List Byte} {m k n : Nat} (k1 : h.length ≤ k) (k2 : k + n ≤ h.length + m) : zeroAt (h ++ zeros m) k n = true := by
  rw [zeroAt, cut k1 k2]
  simp [zeros]
theorem leNat_zeros (n : Nat) : leNat (zeros n) = 0 := by
  induction n with
  | zero => rfl
  | succ n ih => simp only [zeros, List.replicate_succ, leNat] at *; rw [ih]; rfl

/-- The counts that fell due change no wait. -/
theorem addCounts_waitOn (r : Crs) (c : Ctx) : (addCounts r c).waitOn = c.waitOn := by
  have k : ∀ (l : List Nat) (g : Nat → Nat) (x : Ctx), (l.foldl (fun x n => if g n = 0 then x else bumpCount x n (g n)) x).status = x.status := by
    intro l g
    induction l with
    | nil => intro _; rfl
    | cons n l ih =>
      intro x
      rw [List.foldl_cons, ih]
      split
      · rfl
      · unfold bumpCount
        split <;> rfl
  simp only [Ctx.waitOn, addCounts, k]

/-- A string of a header that fits and zeros is a well-formed area of a context without rows and blocks. -/
theorem restore_zeros (c : Ctx) (h : List Byte) (hb : c.bind.rows = 0) (h8 : h.length = 8) (hf : headerFits c (leNat h) = true) (hr : bitsOf 48 13 (leNat h) = 0)
    (hr2 : bitsOf 9 7 (leNat h) = 0) (h61 : bitsOf 61 1 (leNat h) = 0) :
    ∃ y, restoreOf c (h ++ zeros 61432) = some y ∧ y.waitOn = none := by
  have hd : numAt (h ++ zeros 61432) 0 8 = leNat h := by simp [numAt, ← h8]
  have z (k n : Nat) (a : 8 ≤ k) (b : k + n ≤ 61440) : zeroAt (h ++ zeros 61432) k n = true := zeroAt_cut (by omega) (by omega)
  have ct (k n : Nat) (a : 8 ≤ k) (b : k + n ≤ 61440) : ((h ++ zeros 61432).drop k).take n = zeros n := cut (by omega) (by omega)
  have res : areaReserved c (h ++ zeros 61432) = true := by
    have wz (k n : Nat) (a : 8 ≤ k) (b : k + n ≤ 61440) : numAt (h ++ zeros 61432) k n = 0 := by
      rw [numAt, ct k n a b, leNat_zeros]
    have e : (List.range 8).all (fun i => mapReserved (((h ++ zeros 61432).drop (0x800 + 128 * i)).take 128)) = true := by
      rw [List.all_eq_true]
      intro i hi
      rw [List.mem_range] at hi
      rw [ct _ _ (by omega) (by omega)]
      decide +kernel
    have w : ∀ k < 31, wordAt (h ++ zeros 61432) (0x40 + 417 + 8 * k) = 0 := fun k hk => by
      rw [wordAt, wz _ _ (by omega) (by omega)]
      rfl
    have cr : crReserved (fun k => wordAt (h ++ zeros 61432) (0x40 + 417 + 8 * k)) = true := by
      have p : ∀ i < 4, wordAt (h ++ zeros 61432) (0x40 + 417 + 8 * (3 + i)) = 0 := fun i hi => w _ (by omega)
      have q : ∀ i < 8, wordAt (h ++ zeros 61432) (0x40 + 417 + 8 * (11 + i)) = 0 := fun i hi => w _ (by omega)
      have r : ∀ i < 8, wordAt (h ++ zeros 61432) (0x40 + 417 + 8 * (19 + i)) = 0 := fun i hi => w _ (by omega)
      simp only [crReserved, Bool.and_eq_true, List.all_eq_true, List.mem_range, decide_eq_true_eq]
      exact ⟨⟨⟨⟨⟨⟨⟨⟨by rw [w 0 (by decide)]; rfl, by rw [w 1 (by decide)]; rfl⟩, by rw [w 2 (by decide)]; rfl⟩, fun i hi => by rw [p i hi]; rfl⟩,
        by rw [w 7 (by decide)]; rfl⟩, by rw [w 10 (by decide)]; rfl⟩, fun i hi => ⟨by rw [q i hi]; rfl, by rw [r i hi]; rfl⟩⟩,
        by rw [w 28 (by decide)]; rfl⟩, by rw [w 30 (by decide)]; rfl⟩
    simp only [areaReserved, cr, hb, hd, hr, hr2, e, wz _ 1 (show 8 ≤ 0x40 + 665 + 32 by decide) (by decide)]
    simp [z, bitsOf]
  have lt : ∀ b n, 8 ≤ b → b + 384 * n ≤ 61440 →
      (List.range n).map (fun i => latchOf (((h ++ zeros 61432).drop (b + 384 * i)).take 384)) = List.replicate n (some Latch.invalid) := by
    intro b n h1 h2
    rw [List.eq_replicate_iff]
    refine ⟨by simp, ?_⟩
    intro x hx
    rw [List.mem_map] at hx
    obtain ⟨i, hi, rfl⟩ := hx
    rw [List.mem_range] at hi
    rw [ct _ _ (by omega) (by omega)]
    decide +kernel
  have al : ∀ n, allSome (List.replicate n (some Latch.invalid)) = some (List.replicate n Latch.invalid) := by
    intro n
    induction n with
    | zero => rfl
    | succ n ih => simp [List.replicate_succ, allSome, ih]
  have hw : ∃ w, windowOf c.win (zeros 4160) = some w ∧ w.cmds = [] := by
    have dr : ∀ i, i < 16 → ((zeros 4160).drop (64 + 256 * i)).take 256 = zeros 256 := by
      intro i hi
      simp only [zeros, List.drop_replicate, List.take_replicate]
      congr 1
      omega
    have cz : ∀ o, cmdOf o (zeros 256) = some none := by
      intro o
      have a : numAt (zeros 256) 0 8 = 0 := by decide +kernel
      have b : zeroAt (zeros 256) 104 24 = true := by decide +kernel
      have d : zeroAt (zeros 256) 224 32 = true := by decide +kernel
      have e : numAt (zeros 256) 128 96 = 0 := by decide +kernel
      simp [cmdOf, a, b, d, e, bitsOf]
    have a0 : numAt (zeros 4160) 0 8 = 0 := by decide +kernel
    have b0 : zeroAt (zeros 4160) 8 8 = true := by decide +kernel
    have d0 : zeroAt (zeros 4160) 48 16 = true := by decide +kernel
    have mm : (List.range 16).map (fun i => (cmdOf (look i c.win.cmds) (((zeros 4160).drop (64 + 256 * i)).take 256)).map fun x => (i, x))
        = (List.range 16).map fun i => some (i, none) := by
      apply List.map_congr_left
      intro i hi
      rw [dr i (List.mem_range.mp hi), cz]
      rfl
    have as : ∀ l : List Nat, allSome (l.map fun i => some (i, (none : Option CopyCmd))) = some (l.map fun i => (i, none)) := by
      intro l
      induction l with
      | nil => rfl
      | cons a l ih => simp [allSome, ih]
    simp only [windowOf, a0, b0, d0, mm, as]
    exact ⟨_, rfl, rfl⟩
  obtain ⟨w, hw, hc⟩ := hw
  have e1 : ((h ++ zeros 61432).drop 0x0C00).take 4160 = zeros 4160 := ct _ _ (by decide) (by decide)
  have l1 := lt 0x1C40 12 (by decide) (by decide)
  have l2 := lt 0xBE80 32 (by decide) (by decide)
  unfold restoreOf
  simp only [hd, hf, res, e1, hw, l1, l2, al, h61, hc, List.any_nil, Bool.not_true, Bool.or_self, Bool.false_eq_true, if_false]
  refine ⟨_, rfl, ?_⟩
  rw [addCounts_waitOn]
  rfl

theorem physRead_mem (s : State) (hk : s.skey = []) (hp : s.poison = []) (pa n : Nat) (hi : pa + n ≤ 2 ^ 48) :
    physRead s pa n none = memRead s.mem pa n := by
  rw [physRead, memRead]
  apply List.map_congr_left
  intro i hi'
  rw [List.mem_range] at hi'
  have c : cutOff s (pa + i) = false := by
    unfold cutOff
    rw [decide_eq_false (by omega : ¬ (pa + i) / 2 ^ 48 = 2)]
    rfl
  simp [otherKey, hk, hp, c, look]
theorem memRead_add (m : List Host.Cell) (a n k : Nat) : memRead m a (n + k) = memRead m a n ++ memRead m (a + n) k := by
  simp [memRead, List.range_add, Nat.add_assoc]
theorem area_zeros (a n : Nat) (h : 8 ≤ a) : memRead [(3, 1), (4, 0xC0), (5, 3), (7, 0x80)] a n = zeros n := by
  rw [memRead, zeros, List.eq_replicate_iff]
  refine ⟨by simp, ?_⟩
  intro b hb
  rw [List.mem_map] at hb
  obtain ⟨i, -, rfl⟩ := hb
  rw [memByte, if_neg (by omega), memByte, if_neg (by omega), memByte, if_neg (by omega), memByte, if_neg (by omega)]
  rfl

/-- Sixteen pages less one, each at its own place. -/
theorem pages_read (m : List Host.Cell) : ∀ n a, (List.range n).flatMap (fun i => memRead m (a + 4096 * i) 4096) = memRead m a (4096 * n) := by
  intro n
  induction n with
  | zero => intro a; rfl
  | succ n ih =>
    intro a
    rw [List.range_succ, List.flatMap_append, ih, Nat.mul_succ, memRead_add]
    simp

theorem read_pages (u : State) (um : u.mem = [(3, 1), (4, 0xC0), (5, 3), (7, 0x80)]) (uk : u.skey = []) (up : u.poison = [])
    (q : (match trRun u (devAgent 0) 0 .r 0 61440 with
      | .ok r => decide (r.map (fun x => (x.2.2.pa, x.2.1, x.2.2.key)) = (List.range 15).map fun i => (0 + 4096 * i, 4096, none))
      | .error _ => false) = true) : ∃ p, readVA u (devAgent 0) 0 0 61440 = .ok (areaHdr ++ zeros 61432, p) := by
  unfold readVA
  revert q
  cases trRun u (devAgent 0) 0 .r 0 61440 with
  | error e => intro h; cases h
  | ok r =>
    intro h
    have h := of_decide_eq_true h
    refine ⟨_, congrArg Except.ok (Prod.ext ?_ rfl)⟩
    show r.flatMap (fun (x : Nat × Nat × Tr) => physRead u x.2.2.pa x.2.1 x.2.2.key) = areaHdr ++ zeros 61432
    have g : r.flatMap (fun (x : Nat × Nat × Tr) => physRead u x.2.2.pa x.2.1 x.2.2.key)
        = (r.map fun x => (x.2.2.pa, x.2.1, x.2.2.key)).flatMap fun x => physRead u x.1 x.2.1 x.2.2 := by
      rw [List.flatMap_map]
    have k : ∀ l : List Nat, (∀ i ∈ l, i < 15) → (l.map fun i => (0 + 4096 * i, 4096, (none : Option Nat))).flatMap (fun x => physRead u x.1 x.2.1 x.2.2)
        = l.flatMap fun i => memRead u.mem (0 + 4096 * i) 4096 := by
      intro l
      induction l with
      | nil => intro _; rfl
      | cons a l ih =>
        intro hl
        have := hl a (by simp)
        simp only [List.map_cons, List.flatMap_cons]
        rw [physRead_mem u uk up _ _ (by omega), ih fun i hi => hl i (by simp [hi])]
    rw [g, h, k _ (fun i hi => List.mem_range.mp hi), pages_read, um]
    show memRead _ 0 (8 + 61432) = _
    rw [memRead_add, area_zeros (0 + 8) 61432 (by decide)]
    have e : memRead [(3, 1), (4, 0xC0), (5, 3), (7, 0x80)] 0 8 = areaHdr := by decide +kernel
    rw [e]
theorem restoring_read : ∃ p, devRead sRestoring (devAgent 0) 0 0 61440 = .ok (areaHdr ++ zeros 61432, p) := by
  obtain ⟨p, h⟩ := read_pages (warm sRestoring (devAgent 0) 0 0 61440) (by decide +kernel) (by decide +kernel) (by decide +kernel)
    (by decide +kernel)
  exact ⟨p, by rw [devRead, h]⟩

theorem test_hyp_restore : ∃ b p y t w, (sRestoring.ctx 0).status = .restoring
    ∧ devRead sRestoring (devAgent (sRestoring.ctx 0).bind.vf) (sRestoring.ctx 0).bind.vf (sRestoring.ctx 0).crs.sabase.toNat
      (saveSize (sRestoring.ctx 0)) = .ok (b, p)
    ∧ restoreOf (sRestoring.ctx 0) b = some y ∧ y.waitOn = none
    ∧ devWrite { sRestoring with fresh := sRestoring.fresh + 1 } (devAgent (sRestoring.ctx 0).bind.vf) (sRestoring.ctx 0).bind.vf
      (sRestoring.ctx 0).crs.sabase.toNat (leBytes 8 (numAt b 0 8 % 2 ^ 63)) = .ok (t, w) := by
  obtain ⟨p, hr⟩ := restoring_read
  obtain ⟨y, hy, hn⟩ := restore_zeros (sRestoring.ctx 0) areaHdr (by decide +kernel) (by decide +kernel) (by decide +kernel) (by decide +kernel)
    (by decide +kernel) (by decide +kernel)
  have hb : numAt (areaHdr ++ zeros 61432) 0 8 % 2 ^ 63 = 960 * 2 ^ 32 + 2 ^ 24 := by
    have e : numAt (areaHdr ++ zeros 61432) 0 8 = numAt areaHdr 0 8 := by
      have : areaHdr.length = 8 := by decide +kernel
      simp [numAt, ← this]
    rw [e]
    decide +kernel
  have hw : went (devWrite { sRestoring with fresh := sRestoring.fresh + 1 } (devAgent 0) 0 0 (leBytes 8 (960 * 2 ^ 32 + 2 ^ 24))) = true := by
    decide +kernel
  obtain ⟨⟨t, w⟩, hw⟩ := went_ok hw
  refine ⟨areaHdr ++ zeros 61432, p, y, t, w, by decide +kernel, hr, hy, hn, ?_⟩
  rw [hb]
  exact hw
end Sys2Proof.Tests

namespace Sys2Proof.Tests

open Sys2Proof Sys2Proof.Machine Sys2Proof.Claims

/-! ### Accesses on their way, walks, peers and the host -/

/-- An access of context 0 to the last bytes of a 16-byte piece. -/
def gop (kind : GKind) (n : Nat) : GOp := ⟨3, 0, 0, 0x110 - n, n, kind, [], 0, 0, [⟨0x110 - n, n, 0, false, none⟩], [], [], [], false, [], [], none⟩
def gStore : GKind := .store [1, 2, 3, 4, 5, 6, 7, 8] [true, false, true, false, true, false, true, false]
def sGop (k : GKind) : State := { State.reset with gops := [gop k 8] }
/-- A store that leaves every second byte, an atomic with a return, a load. -/
theorem test_hyp_pieces : ∀ k ∈ [gStore, .atomic 0 false true 5 0 (some 7), .loadScalar 7 8 false],
    replayFor (sGop k) (gop k 8).agent = none ∧ (sGop k).gops.find? (fun x => x.id = 3) = some (gop k 8) ∧ (gop k 8).parts[0]? = some ⟨0x108, 8, 0, false, none⟩
    ∧ (gop k 8).parts = [⟨0x108, 8, 0, false, none⟩]
    ∧ blockedBy (sGop k).gops (gop k 8) ⟨0x108, 8, 0, false, none⟩ = false ∧ syncBefore (sGop k) (gop k 8) ⟨0x108, 8, 0, false, none⟩ = false
    ∧ physPoison (sGop k) 0x108 8 = false := by decide +kernel
theorem test_hyp_storePieces : (([1, 2, 3, 4, 5, 6, 7, 8] : List Byte).drop 0).take 8 = [1, 2, 3, 4, 5, 6, 7, 8]
    ∧ rekeyed (sGop gStore) 0x108 8 [true, false, true, false, true, false, true, false] none = [] ∧ cutOff (sGop gStore) 0x108 = false := by
  decide +kernel

/-- A walk under a table of two levels: the last page below 2^56 has a leaf of 1 GiB, page 0 no entry. -/
def sWalk (page : Nat) : State :=
  let s := State.reset.setFn 0 { Fn.reset 0 with ptroot := BitVec.ofNat 64 (2 ^ 63 + 2 ^ 20 / 8) }
  { s with
    mem := memWrite (memWrite [] (2 ^ 20 + 8 * (2 ^ 17 - 1)) (leBytes 8 (2 ^ 63 + 2 ^ 61 + 0x300))) (0x300000 + 8 * 511)
      (leBytes 8 (2 ^ 63 + 2 ^ 61 + 2 ^ 60 + 2 ^ 56 + 2 ^ 18))
    walks := [⟨9, 0, page, 0, true, [0]⟩] }
theorem test_hyp_walks :
    ((sWalk (2 ^ 44 - 1)).walks.find? (fun y => y.id = 9) = some ⟨9, 0, 2 ^ 44 - 1, 0, true, [0]⟩
      ∧ walkPage (sWalk (2 ^ 44 - 1)) 0 (2 ^ 44 - 1) = .ok (2, BitVec.ofNat 64 (2 ^ 63 + 2 ^ 61 + 2 ^ 60 + 2 ^ 56 + 2 ^ 18)))
    ∧ ((sWalk 0).walks.find? (fun y => y.id = 9) = some ⟨9, 0, 0, 0, true, [0]⟩ ∧ walkPage (sWalk 0) 0 0 = .error 2) := by
  have h : (match walkPage (sWalk (2 ^ 44 - 1)) 0 (2 ^ 44 - 1) with
      | .ok r => decide (r = (2, BitVec.ofNat 64 (2 ^ 63 + 2 ^ 61 + 2 ^ 60 + 2 ^ 56 + 2 ^ 18)))
      | .error _ => false) = true := by decide +kernel
  have k : (match walkPage (sWalk 0) 0 0 with
      | .ok _ => false
      | .error e => decide (e = 2)) = true := by decide +kernel
  refine ⟨⟨by decide +kernel, ?_⟩, by decide +kernel, ?_⟩
  · revert h
    cases walkPage (sWalk (2 ^ 44 - 1)) 0 (2 ^ 44 - 1) with
    | ok r => intro h; rw [of_decide_eq_true h]
    | error e => intro h; cases h
  · revert k
    cases walkPage (sWalk 0) 0 0 with
    | ok r => intro h; cases h
    | error e => intro h; rw [of_decide_eq_true h]

/-- A read that TMAP waits for; a peer at the end of the export window; a host's write. -/
def sReads : State := mapped (onCtx fun c => { c with reads := [⟨6, 0xFFFA0, 96, none⟩] })
def sExp : State := { State.reset with dev := { Dev.reset with expBase := 0x1000, expEnd := 0x2000 } }
theorem test_hyp_reads : ∃ runs b p, (sReads.ctx 0).reads.find? (fun x => x.data.isNone && x.len != 0) = some ⟨6, 0xFFFA0, 96, none⟩
    ∧ trRun sReads 0 (sReads.ctx 0).bind.vf .r 0xFFFA0 96 = .ok runs ∧ (∀ t ∈ runs, readWaits sReads 0 t.2.2 t.2.1 = false)
    ∧ readVA sReads 0 (sReads.ctx 0).bind.vf 0xFFFA0 96 = .ok (b, p) := by
  have h : went (trRun sReads 0 (sReads.ctx 0).bind.vf .r 0xFFFA0 96) = true := by decide +kernel
  have k : went (readVA sReads 0 (sReads.ctx 0).bind.vf 0xFFFA0 96) = true := by decide +kernel
  obtain ⟨runs, h⟩ := went_ok h
  obtain ⟨⟨b, p⟩, k⟩ := went_ok k
  exact ⟨runs, b, p, by decide +kernel, h, fun _ _ => by rfl, k⟩
theorem test_hyp_outside : exported sExp 0x1FF8 8 = true ∧ exported sExp 0x1000 ([1, 2] : List Byte).length = true
    ∧ exported sExp 0x1FF0 16 = true ∧ (0x1FF0 : Nat) % 16 = 0
    ∧ ∃ t w, hostWrite (mapped State.reset) (hostAgent 0) 0 0xFFFFF [7] = .ok (t, w) := by
  have k : went (hostWrite (mapped State.reset) (hostAgent 0) 0 0xFFFFF [7]) = true := by decide +kernel
  obtain ⟨⟨t, w⟩, k⟩ := went_ok k
  exact ⟨by decide +kernel, by decide +kernel, by decide +kernel, by decide, t, w, k⟩

/-! ### The copy engine -/

/-- A command in entry 0 of context 0's window: from the bottom of global memory into the scratchpad, two rows. -/
def cmdRow (st : Nat) : CopyCmd :=
  { CopyCmd.blank (.cpyRow g0 ⟨63, 0, 0, 0, 0, 2 ^ 16 + 2 * 2 ^ 11 + 4⟩) with id := 4, state := st, ops := [0, 0x4000000000000040], total := 16 }
/-- A gather and a scatter of one row of 256 bytes: the list in the scratchpad. -/
def cmdGath : CopyCmd :=
  { CopyCmd.blank (.cpyGath g0 ⟨63, 0, 0, 0, 0, 30 * 2 ^ 13⟩) with
    id := 4, state := 2, ops := [0x4000000000000000, 1, 0x4000000000000040], total := 8, map := map2 }
def cmdScat : CopyCmd := { cmdGath with op := .cpyScat g0 ⟨63, 0, 0, 0, 0, 30 * 2 ^ 13 + 2 * 2 ^ 8⟩ }
def sCmd (x : CopyCmd) (berths : Nat) : State :=
  let s := mapped (onCtx fun c => { c with win := { Window.reset with tail := 1, cmds := [(0, x)] } })
  s.setTile { s.tile 0 with berths := if berths = 0 then [] else [(0, berths)] }
theorem test_hyp_copyEvents :
    (look 0 ((sCmd (cmdRow 1) 0).ctx 0).win.cmds = some (cmdRow 1) ∧ (cmdRow 1).state = 1
      ∧ waitsDone ((sCmd (cmdRow 1) 0).ctx 0) (cmdRow 1).waits = true ∧ pausedFor ((sCmd (cmdRow 1) 0).ctx 0) (cmdRow 1) = false)
    ∧ (let s := sCmd (cmdRow 2) 0;
      roundRobin (((s.tile 0).berthNext + 15) % 16)
        ((s.allCtx.filter fun x => tileOf x.cid = 0 && wantsBerth s (s.tile 0) x.cid).map Ctx.cid) = some 0
      ∧ (s.tile 0).berths.foldl (fun n b => n + (b.2 + 63) / 64) 0 < 64)
    ∧ (∀ x ∈ [cmdRow 2, cmdGath, cmdScat], let s := sCmd x 64;
      look 0 (s.ctx 0).win.cmds = some x ∧ x.state = 2 ∧ 7 < x.total ∧ x.has 7 = false ∧ 7 < x.cursor + 256
      ∧ pausedFor (s.ctx 0) x = false ∧ (x.readsGlobal = true → (look 0 (s.tile (tileOf 0)).berths).getD 0 ≠ 0)
      ∧ remoteOk s (s.ctx 0) x = true)
    ∧ (cmdRow 2).isList = false ∧ cmdGath.isList = true ∧ cmdScat.isList = true := by decide +kernel
theorem test_hyp_listEntries : ∀ x ∈ [cmdGath, cmdScat], ∃ v, let i := 32 * 7 / x.rowSize
    readEntry (sCmd x 64) ((sCmd x 64).ctx 0) x i 0 = .ok (v, false) ∧ scatterWaits { x with entries := put i v x.entries } i v 7 = false := by
  intro x hx
  have h : ∀ x ∈ [cmdGath, cmdScat], (match readEntry (sCmd x 64) ((sCmd x 64).ctx 0) x (32 * 7 / x.rowSize) 0 with
    | .ok r => !r.2
    | .error _ => false) = true := by decide +kernel
  have z : ∀ x ∈ [cmdGath, cmdScat], 32 * 7 / x.rowSize = 0 := by decide +kernel
  have h := h x hx
  revert h
  cases e : readEntry (sCmd x 64) ((sCmd x 64).ctx 0) x (32 * 7 / x.rowSize) 0 with
  | error => intro h; cases h
  | ok r =>
    intro h
    obtain ⟨v, b⟩ := r
    have hb : b = false := by simpa using h
    refine ⟨v, by rw [hb] at e; exact e, ?_⟩
    rw [z x hx]
    rfl

/-- A ring row that has landed, of the command's and of one that is gone. -/
def sRing (cmd : Nat) : State :=
  onCtx fun c => { c with win := { Window.reset with
    tail := 1, cmds := [(0, { cmdRow 2 with cursor := 16 })], q := Window.reset.q.setIfInBounds 7 ⟨true, 0, 0, 0, 8, [(7, ⟨6, 0, false, 8, cmd, 0, none⟩)], 8, 0⟩ } }
theorem test_hyp_rowArrives : ∀ n ∈ [4, 5], let b := ((sRing n).ctx 0).win.q.toList.getD 7 QBind.none
    look 7 b.rowsIn = some ⟨6, 0, false, 8, n, 0, none⟩ ∧ b.arr.getLsbD 7 = false ∧ b.valid = true ∧ ((sRing n).ctx 0).away = false := by
  decide +kernel

/-! ### Sync homes and answers -/

/-- A barrier at 0x100 that expects one arrival. -/
def barWord : Nat := (⟨0, false, 1, 1, 0, 0, 0⟩ : BarW).word
def sPost : State :=
  { mapped State.reset with posts := [⟨7, 0x100, 0x100, none, 0, 0, 0, [], [], 0⟩], mem := memWrite [] 0x100 (leBytes 16 barWord) }
def sop1 : SOp := ⟨5, 0, 0, .semPost g0 fSync, 0x100, 0x100, none, 0, 0, 1, none, [], false, [], []⟩
theorem test_hyp_sync :
    (sPost.posts.find? (fun y => y.id = 7) = some ⟨7, 0x100, 0x100, none, 0, 0, 0, [], [], 0⟩ ∧ carryDone sPost [] = true
      ∧ parseLoc (clearLow4 0x100) = .glob 0x100
      ∧ parseBar (wordRead { sPost with posts := [] } 0x100 none) = some ⟨0, false, 1, 1, 0, 0, 0⟩)
    ∧ (let s := { State.reset with sops := [sop1] }; s.sops.find? (fun x => x.id = 5) = some sop1 ∧ opWaits s sop1 = false)
    ∧ (let s := { onCtx (fun c => { c with wait := some ⟨5, none, 0, none, none, []⟩ }) with answers := [⟨5, 0, 1, 0, none, none, []⟩] };
      s.answers.find? (fun x => x.cid = 0) = some ⟨5, 0, 1, 0, none, none, []⟩ ∧ (s.ctx 0).wait = some ⟨5, none, 0, none, none, []⟩)
    ∧ (let s := sPipe (pipe7 0 [⟨9, 0, rowT 6, false, []⟩]);
      s.pipe 7 = some (pipe7 0 [⟨9, 0, rowT 6, false, []⟩])
      ∧ (pipe7 0 [⟨9, 0, rowT 6, false, []⟩]).rows.find? (fun y => !y.arrived) = some ⟨9, 0, rowT 6, false, []⟩ ∧ carryDone s [] = true)
    ∧ (let s := State.reset.setTile { Tile.reset 0 with lease := ⟨none, some 5, 0, [], []⟩ }; (s.tile 0).lease.next = some 5) := by
  refine ⟨⟨by decide +kernel, by decide +kernel, by decide +kernel, by decide +kernel⟩, ⟨by decide +kernel, by decide +kernel⟩,
    ⟨by decide +kernel, by decide +kernel⟩, ⟨by decide +kernel, by decide +kernel, by decide +kernel⟩, by decide +kernel⟩

/-! ### The array -/

/-- An operation of context 0 queued on tile 0, outside and inside a chain. -/
def arrOp (i : Instr) (ops : List Word) (rows : List Row) : ArrOp := ⟨9, 0, i, ops, ⟨Vector.replicate 16 0x3F80, 8, true⟩, rows, [], 63, 0, [], [(15, 0)], 3, 3⟩
def sQueue (o : ArrOp) (ch : Option Chain) (lat : List OpLatch) : State :=
  let s := sArr 0 (sLease (some 0) none) ch lat
  s.setTile { s.tile 0 with arr := [o] }
/-- Each form on the highest block, from the scratchpad and from both latches, as its last step and as the first of two. -/
theorem test_hyp_mmaStep : ∀ x ∈ [(Instr.mmaBf16 g0 (fMma 0), 0xFF, 0), (.mmaCb4 g0 (fMma 0), 0xFF, 0), (.mmaPlane g0 (fMma 0), 0xFF, 0),
      (.mmaBf16 g0 (fMma 0x30), 0xFF, 0), (.mmaBf16 g0 (fMma 0), 0x101F, 1)],
    let o := arrOp x.1 [0, 0, BitVec.ofNat 64 x.2.1] []
    let s := sQueue o (some (chain1 false)) [⟨3, true, 0, 1, 1⟩]
    let d := descOf (o.ops.getD 2 0)
    (s.tile 0).arr.find? (fun o => o.id = 9) = some o ∧ (s.tile 0).chain = some (chain1 false)
    ∧ 0 < d.mb ∧ 0 < d.nb ∧ 0 < d.kb ∧ o.steps.contains 0 = false ∧ (chain1 false).owner = o.cid ∧ arrReady s (s.tile 0) o = true
    ∧ arrBlocked (s.tile 0) o [d.acb] = false
    ∧ (chain1 false).late s (s.tile 0) = false := by decide +kernel
theorem test_hyp_fills :
    (let o := arrOp (.mgath g0 ⟨63, 0, 0, 0, 0, 2⟩) [0, 0] [rowT tagI16]; let s := sQueue o (some (chain1 false)) [];
      (s.tile 0).arr.find? (fun o => o.id = 9) = some o ∧ waitsDone (s.ctx o.cid) o.waits = true ∧ lateIn s (s.tile 0) = false)
    ∧ (let o := arrOp (.mldb g0 ⟨63, 0, 0, 0, 0, 1⟩) [0, 0] []; let s := sQueue o (some (chain1 false)) [];
      (s.tile 0).arr.find? (fun o => o.id = 9) = some o ∧ waitsDone (s.ctx o.cid) o.waits = true ∧ lateIn s (s.tile 0) = false)
    ∧ (∀ i ∈ [Instr.accZero g0 ⟨63, 0, 0, 0, 0, 0x1FFFE0⟩, .accWr g0 ⟨63, 0, 0, 0, 0, 15 * 2 ^ 17⟩],
      let o := arrOp i [] (List.replicate 16 (rowT tagF32)); let s := sQueue o none [];
      (s.tile 0).arr.find? (fun o => o.id = 9) = some o ∧ afterChain (s.tile 0) o = false ∧ waitsDone (s.ctx o.cid) o.waits = true
      ∧ arrBlocked (s.tile 0) o o.blocks = false) := by decide +kernel
theorem test_hyp_chainEnds :
    (let s := sArr 0 (sLease (some 0) none) (some { chain1 false with ending := true }) [];
      (s.tile 0).chain = some { chain1 false with ending := true } ∧ { chain1 false with ending := true }.late s (s.tile 0) = false ∧ (s.tile 0).arr = [])
    ∧ (let s := onCtx (fun c => { c with bind := { c.bind with chainMax := 0 } });
      let t := s.setTile { s.tile 0 with chain := some (chain1 false) };
      (t.tile 0).chain = some (chain1 false) ∧ (chain1 false).start + (t.ctx 0).bind.chainMax ≤ (t.tile 0).cyc) := by decide +kernel

end Sys2Proof.Tests
namespace Sys2Proof.Tests

open Sys2Proof Sys2Proof.Machine Sys2Proof.Claims

/-- What a write can change of the machine. -/
structure Wrote (s t : State) : Prop where
  same : ∃ m p c k h f u, t = { s with mem := m, poison := p, pcover := c, skey := k, hist := h, fresh := f, uid := u }
theorem Wrote.refl (s : State) : Wrote s s := ⟨s.mem, s.poison, s.pcover, s.skey, s.hist, s.fresh, s.uid, rfl⟩
theorem Wrote.trans {s t u : State} (a : Wrote s t) (b : Wrote t u) : Wrote s u := by
  obtain ⟨_, _, _, _, _, _, _, rfl⟩ := a.same
  obtain ⟨m, p, c, k, h, f, n, rfl⟩ := b.same
  exact ⟨m, p, c, k, h, f, n, rfl⟩
theorem Wrote.translate {s t : State} (w : Wrote s t) (a v : Nat) (n : Need) (e : Word) : translate t a v n e = translate s a v n e := by
  obtain ⟨_, _, _, _, _, _, _, rfl⟩ := w.same
  rfl
theorem wrote_phys (s : State) (pa : Nat) (b : List Byte) (m : List Bool) (k : Option Nat) (p : Bool) : Wrote s (physWrite s pa b m k p) := by
  unfold physWrite
  split
  · exact .refl s
  · exact ⟨_, _, s.pcover, _, s.hist, _, s.uid, rfl⟩
theorem wrote_cover (s : State) (w pa : Nat) (m : List Bool) (p : Bool) : Wrote s (coverPiece s w pa m p) := by
  unfold coverPiece
  dsimp only
  repeat' split
  all_goals exact ⟨s.mem, _, _, s.skey, s.hist, s.fresh, s.uid, rfl⟩
theorem wrote_piece (s : State) (id a v pa : Nat) (b : List Byte) (m : List Bool) (k : Option Nat) (p : Bool) :
    Wrote s (pieceWrite s id a v pa b m k p) := by
  unfold pieceWrite pieceWriteOf
  refine .trans (wrote_phys s pa b m k p) (.trans ?_ (wrote_cover _ id pa m p))
  exact ⟨_, _, _, _, _, _, _, rfl⟩
theorem wrote_pieces (id a v : Nat) (k : Option Nat) (p : Bool) (b : List Byte) (m : List Bool) (pa : Nat) :
    ∀ (l : List (Nat × Nat)) (s : State), Wrote s (writePieces s id a v k p b m pa l) := by
  intro l
  induction l with
  | nil => exact fun s => .refl s
  | cons x l ih =>
    intro s
    unfold writePieces
    refine .trans ?_ (ih _)
    split
    · exact wrote_piece ..
    · exact .refl s
/-- Every page of a run translates, none to a region with a shadow. -/
def plainRun (s : State) (a v va n : Nat) : Bool :=
  (pagesOf va n).all fun x => match translate s a v .w (BitVec.ofNat 64 x.1), translate s a v .r (BitVec.ofNat 64 (x.1 / 4096 * 4096)) with
    | .ok t, .ok _ => decide (twMode t.tagw ≠ 2)
    | _, _ => false
theorem Wrote.plain {s t : State} (w : Wrote s t) (a v va n : Nat) : plainRun t a v va n = plainRun s a v va n := by
  unfold plainRun
  simp only [w.translate]
theorem plain_runs {s : State} {a v va n : Nat} (h : plainRun s a v va n = true) :
    ∃ l, trRun s a v .w va n = .ok l ∧ ∀ x ∈ l, twMode x.2.2.tagw ≠ 2 := by
  unfold plainRun at h
  unfold trRun
  rw [List.all_eq_true] at h
  generalize pagesOf va n = l at h
  induction l with
  | nil => exact ⟨[], rfl, by simp⟩
  | cons x l ih =>
    obtain ⟨r, e, k⟩ := ih fun y hy => h y (List.mem_cons_of_mem _ hy)
    have hx := h x (List.mem_cons_self ..)
    rw [List.foldr_cons, e]
    revert hx
    cases translate s a v .w (BitVec.ofNat 64 x.1) with
    | ok t =>
      cases translate s a v .r (BitVec.ofNat 64 (x.1 / 4096 * 4096)) with
      | ok u =>
        intro hx
        refine ⟨_, rfl, ?_⟩
        intro y hy
        rcases List.mem_cons.mp hy with rfl | hy
        · exact of_decide_eq_true hx
        · exact k y hy
      | fault _ => intro hx; cases hx
      | miss _ => intro hx; cases hx
    | fault _ => intro hx; cases hx
    | miss _ => intro hx; cases hx
theorem plain_warm {s : State} {a v va n : Nat} (h : plainRun s a v va n = true) : warm s a v va n = s := by
  unfold plainRun at h
  unfold warm
  rw [List.all_eq_true] at h
  generalize pagesOf va n = l at h
  induction l with
  | nil => rfl
  | cons x l ih =>
    have hx := h x (List.mem_cons_self ..)
    have e : warmPage s a v (x.1 / 4096) = s := by
      unfold warmPage
      revert hx
      cases translate s a v .w (BitVec.ofNat 64 x.1) with
      | ok t =>
        cases translate s a v .r (BitVec.ofNat 64 (x.1 / 4096 * 4096)) with
        | ok u => intro _; rfl
        | fault _ => intro hx; cases hx
        | miss _ => intro hx; cases hx
      | fault _ => intro hx; cases hx
      | miss _ => intro hx; cases hx
    rw [List.foldl_cons, e]
    exact ih fun y hy => h y (List.mem_cons_of_mem _ hy)
theorem plain_warmW {s : State} {a v va n : Nat} (h : plainRun s a v va n = true) : warmW s a v va n = s := by
  obtain ⟨l, e, k⟩ := plain_runs h
  unfold warmW
  dsimp only
  rw [plain_warm h, e]
  dsimp only
  clear e
  induction l with
  | nil => rfl
  | cons x l ih =>
    rw [List.foldl_cons, if_neg (k x (List.mem_cons_self ..))]
    exact ih fun y hy => k y (List.mem_cons_of_mem _ hy)
/-- A device write to such a run is performed, and changes no translation. -/
theorem plain_write {s : State} {a v va : Nat} {b : List Byte} (h : plainRun s a v va b.length = true) (hw : s.walkFaults = []) :
    ∃ t w, devWrite s a v va b = .ok (t, w) ∧ Wrote s t := by
  obtain ⟨l, e, k⟩ := plain_runs h
  have z : (l.flatMap fun (x : Nat × Nat × Tr) => if true && twMode x.2.2.tagw = 2 then
      (((List.range x.2.1).filter fun i => (allOnes b.length).getD (x.1 - va + i) false).flatMap fun i => shadowVas x.2.2 (x.1 + i) 1) else []) = [] := by
    rw [List.flatMap_eq_nil_iff]
    intro x hx
    simp [k x hx]
  have f : ∀ (l : List (Nat × Nat × Tr)) (s0 : State), Wrote s0 (l.foldl (fun st (x : Nat × Nat × Tr) =>
      writePieces st s.uid a v x.2.2.key false ((b.drop (x.1 - va)).take x.2.1)
        (((allOnes b.length).drop (x.1 - va)).take x.2.1) x.2.2.pa (piecesOf x.2.2.pa x.2.1)) s0) := by
    intro l
    induction l with
    | nil => exact fun s0 => .refl s0
    | cons x l ih => exact fun s0 => .trans (wrote_pieces ..) (ih _)
  have g := (Wrote.mk (s := s) (t := { s with uid := s.uid + 1 }) ⟨_, _, _, _, _, _, _, rfl⟩).trans (f l { s with uid := s.uid + 1 })
  unfold devWrite writeVA writeBy
  rw [plain_warmW h, e]
  dsimp only
  rw [z]
  refine ⟨_, _, rfl, ?_⟩
  simp only [List.foldl_nil]
  obtain ⟨m, p, c, kk, hh, ff, u, q⟩ := g.same
  rw [q]
  refine ⟨m, p, c, kk, hh, ff, u, ?_⟩
  simp [dropWalkFaults, hw]

def sSaving (pre : Bool) (base : Word) : State :=
  mapped (onCtx fun c => { c with status := .saving, preempt := pre, bind := { Binding.none with rows := 0, acc := 0 }, crs := { c.crs with sabase := base } })
/-- The state that a drained save writes its area from. -/
def sDrained (pre : Bool) (base : Word) : State := flushCore (withdrawSaved (sSaving pre base) 0) (hwOf 0 / 4)
theorem drained (pre : Bool) (h : pre ∈ [true]) : let u := sDrained pre 0; let x := u.ctx 0
    plainRun u (devAgent x.bind.vf) x.bind.vf x.crs.sabase.toNat (saveSize x) = true ∧ u.walkFaults = [] ∧ x.crs.sabase.toNat = 0
    ∧ saveSize x = 61440 ∧ plainRun u (devAgent x.bind.vf) x.bind.vf 8 61432 = true ∧ plainRun u (devAgent x.bind.vf) x.bind.vf 0 8 = true := by
  revert pre
  decide +kernel
theorem two_writes {u : State} {a v n : Nat} (b d : List Byte) (h1 : plainRun u a v 0 n = true) (h2 : u.walkFaults = [])
    (h5 : plainRun u a v (0 + 8) b.length = true) (h6 : plainRun u a v 0 d.length = true) :
    let w := { warmW u a v 0 n with fresh := u.fresh + 1 }
    ∃ l p q p' q', trRun w a v .w 0 n = .ok l ∧ devWrite w a v (0 + 8) b = .ok (p, q) ∧ devWrite p a v 0 d = .ok (p', q') := by
  intro w
  have w0 : Wrote u w := by
    unfold w
    rw [plain_warmW h1]
    exact ⟨_, _, _, _, _, _, _, rfl⟩
  have w2 : w.walkFaults = [] := by
    obtain ⟨_, _, _, _, _, _, _, e⟩ := w0.same
    rw [e]
    exact h2
  clear_value w
  obtain ⟨l, hl, -⟩ := plain_runs ((w0.plain ..).trans h1)
  obtain ⟨p, q, hq, wp⟩ := plain_write ((w0.plain ..).trans h5) w2
  have wf : p.walkFaults = [] := by
    obtain ⟨_, _, _, _, _, _, _, rfl⟩ := wp.same
    exact w2
  obtain ⟨p', q', hq', -⟩ := plain_write ((wp.plain ..).trans ((w0.plain ..).trans h6)) wf
  exact ⟨l, p, q, p', q', hl, hq, hq'⟩
theorem savedLength : ∀ pre ∈ [true], let u := sDrained pre 0; let x := u.ctx 0; let a := devAgent x.bind.vf
    let w := { warmW u a x.bind.vf 0 (saveSize x) with fresh := u.fresh + 1 }
    (saveHead x (tileTime u (tileOf x.cid)) ++ saveLow x (Config.freeWord u.fresh) ++ frameNow w a x ++ saveHigh x).length = 61432 := by
  decide +kernel
theorem test_hyp_saveDone : ∀ pre ∈ [true],
    (((sSaving pre 0).ctx 0).status = .saving ∧ saveDrained (sSaving pre 0) ((sSaving pre 0).ctx 0) = true)
    ∧ (let u := sDrained pre 0
      let x := u.ctx 0
      let a := devAgent x.bind.vf
      let w := { warmW u a x.bind.vf x.crs.sabase.toNat (saveSize x) with fresh := u.fresh + 1 }
      ∃ l p q p' q', trRun w a x.bind.vf .w x.crs.sabase.toNat (saveSize x) = .ok l
        ∧ devWrite w a x.bind.vf (x.crs.sabase.toNat + 8)
          (saveHead x (tileTime u (tileOf x.cid)) ++ saveLow x (Config.freeWord u.fresh) ++ frameNow w a x ++ saveHigh x) = .ok (p, q)
        ∧ devWrite p a x.bind.vf x.crs.sabase.toNat (leBytes 8 (headerWord x true)) = .ok (p', q')) := by
  have k : ∀ pre ∈ [true], ((sSaving pre 0).ctx 0).status = .saving ∧ saveDrained (sSaving pre 0) ((sSaving pre 0).ctx 0) = true := by
    decide +kernel
  intro pre hp
  refine ⟨k pre hp, ?_⟩
  obtain ⟨h1, h2, h3, -, h5, h6⟩ := drained pre hp
  have e := savedLength pre hp
  dsimp only at *
  generalize sDrained pre 0 = u at *
  generalize u.ctx 0 = x at *
  rw [h3] at h1 ⊢
  exact two_writes _ _ h1 h2 (by rw [e]; exact h5) (by rw [show (leBytes 8 (headerWord x true)).length = 8 by simp [leBytes]]; exact h6)

end Sys2Proof.Tests

namespace Sys2Proof.Tests

open Sys2Proof Sys2Proof.Machine Sys2Proof.Claims

/-! ### What events change -/

/-- A load in an audit's replay, the oldest of its context, for which the log holds an entry. -/
def auditR (v : Datum) : Audit := ⟨6, 1, 0, 1, [16], 1, 15, 65536, 0, [⟨0, .access, 1, v⟩], 0, true, some 1, [0], 0, [], false⟩
def sReplay : State :=
  { sGop (.loadScalar 7 8 false) with audits := [auditR (.entry (.scalar ⟨5, 24⟩) false)] }
theorem test_hyp_replayedAccess : let g := gop (.loadScalar 7 8 false) 8
    sReplay.gops.find? (fun x => x.id = 3) = some g ∧ g.parts[0]? = some ⟨0x108, 8, 0, false, none⟩
    ∧ replayFor sReplay g.agent = some (auditR (.entry (.scalar ⟨5, 24⟩) false)) ∧ oldestAccess sReplay g = true ∧ g.writes = false
    ∧ g.entry = some 7
    ∧ (auditR (.entry (.scalar ⟨5, 24⟩) false)).next g.agent .access = some (.entry (.scalar ⟨5, 24⟩) false) := by decide +kernel
theorem test_hyp_noReplay : replayFor (sGop gStore) 0 = none ∧ oldestAccess (sGop gStore) (gop gStore 8) = true := by decide +kernel

/-- A load's pieces: its last, of data and of counts, and one of two. -/
def partL (pa : Nat) (sh : Bool) : Part := ⟨pa, 8, 0, sh, none⟩
def gopL (k : GKind) (ps : List Part) : GOp := ⟨3, 0, 0, 0x108, 8, k, [], 0, 0, ps, zeros 8, zeros 8, [], false, [], [], none⟩
theorem test_hyp_loadPieces : ∀ k ∈ [GKind.loadRow 7 0, .loadScalar 7 8 true], ∀ sh ∈ [false, true], ∀ two ∈ [false, true],
    let p := partL 0x108 sh
    let g := gopL k (if two then [p, partL 0x200 false] else [p])
    let s := { State.reset with gops := [g] }
    s.gops.find? (fun x => x.id = 3) = some g ∧ g.parts[0]? = some p ∧ g.writes = false ∧ replayFor s g.agent = none
    ∧ blockedBy s.gops g p = false ∧ syncBefore s g p = false ∧ p.pa % 16 + p.len ≤ 16
    ∧ (∀ j < p.len, otherKey s p.key (p.pa + j) = false ∧ s.poison.contains ((p.pa + j) / 32) = false ∧ cutOff s (p.pa + j) = false)
    ∧ readsPoison s g p = false ∧ decide (g.parts.eraseIdx 0 = []) = !two ∧ g.poison = false ∧ g.overlay = [] ∧ auditOf s g.agent = none := by
  decide +kernel

/-! Sync words -/

def fSy : SYF := ⟨1, 0, 0, 0⟩
/-- Context 0's operation on the word at 0x100. -/
def sopOf (i : Instr) (ans : Bool) (n : Nat) : SOp := { sop1 with op := i, n := n, answered := ans }
def sWord (v : Nat) (o : SOp) : State := { State.reset with sops := [o], mem := memWrite [] 0x100 (leBytes 16 v) }
theorem sole (v : Nat) (i : Instr) (ans : Bool) (n : Nat) : SoleSync 5 (sWord v (sopOf i ans n)) (sopOf i ans n) where
  found := rfl
  due := rfl
  original := rfl
  plain := rfl
  alone := rfl
  bare := rfl
  near := by
    intro t off h
    have : parseLoc (clearLow4 0x100) = .glob 0x100 := by decide +kernel
    rw [show (sopOf i ans n).loc = 0x100 from rfl, this] at h
    cases h
  agent := by
    show (0 : Nat) < 2 ^ 64
    decide
  known := rfl
  aligned := show 0x100 % 16 = 0 by decide
  memory := fun _ => ⟨rfl, by show physPoison _ 0x100 16 = false; rfl, by
    show rekeyed { State.reset with sops := _, mem := _ } 0x100 16 (allOnes 16) none = []
    rfl⟩
/-- A COUNT word of 4, a BARRIER word of phase 0 that expects one arrival, a REGION word of epoch 3, no word. -/
def countWord : Nat := (⟨4, 0, false⟩ : CountW).word
def regionWord : Nat := 4 * 2 ^ 124 + 3
theorem test_hyp_syncWords : ∀ i ∈ [Instr.semTry g0 fSy, .semWait g0 fSy, .barTest g0 fSy, .barWait g0 fSy, .acq g0 fSy],
    (∃ x, parseCount (wordRead (sWord countWord (sopOf i true 4)) 0x100 none) = some x ∧ 4 ≤ x.count ∧ x.count < 5)
    ∧ (∃ x, parseBar (wordRead (sWord barWord (sopOf i true 0)) 0x100 none) = some x ∧ x.phase = 0 % 16 ∧ x.phase ≠ 1 % 16)
    ∧ (∃ x, parseRegion (wordRead (sWord regionWord (sopOf i true 3)) 0x100 none) = some x ∧ (x + 2 ^ 32 - 3 % 2 ^ 32) % 2 ^ 32 < 2 ^ 31
      ∧ 2 ^ 31 ≤ (x + 2 ^ 32 - 4 % 2 ^ 32) % 2 ^ 32)
    ∧ parseCount (wordRead (sWord 0 (sopOf i true 0)) 0x100 none) = none ∧ parseBar (wordRead (sWord 0 (sopOf i true 0)) 0x100 none) = none
    ∧ parseRegion (wordRead (sWord 0 (sopOf i true 0)) 0x100 none) = none := by
  have a : ∀ i ans n, parseCount (wordRead (sWord countWord (sopOf i ans n)) 0x100 none) = some ⟨4, 0, false⟩ := fun i ans n => by
    have e : wordRead (sWord countWord (sopOf i ans n)) 0x100 none = wordRead (sWord countWord sop1) 0x100 none := rfl
    rw [e]
    decide +kernel
  have b : ∀ i ans n, parseBar (wordRead (sWord barWord (sopOf i ans n)) 0x100 none) = some ⟨0, false, 1, 1, 0, 0, 0⟩ := fun i ans n => by
    have e : wordRead (sWord barWord (sopOf i ans n)) 0x100 none = wordRead (sWord barWord sop1) 0x100 none := rfl
    rw [e]
    decide +kernel
  have c : ∀ i ans n, parseRegion (wordRead (sWord regionWord (sopOf i ans n)) 0x100 none) = some 3 := fun i ans n => by
    have e : wordRead (sWord regionWord (sopOf i ans n)) 0x100 none = wordRead (sWord regionWord sop1) 0x100 none := rfl
    rw [e]
    decide +kernel
  have d : ∀ i ans n, wordRead (sWord 0 (sopOf i ans n)) 0x100 none = 0 := fun i ans n => by
    have e : wordRead (sWord 0 (sopOf i ans n)) 0x100 none = wordRead (sWord 0 sop1) 0x100 none := rfl
    rw [e]
    decide +kernel
  intro i _
  refine ⟨⟨_, a i true 4, by decide, by decide⟩, ⟨_, b i true 0, by decide, by decide⟩, ⟨_, c i true 3, by decide, by decide⟩, ?_, ?_, ?_⟩ <;>
    rw [d i true 0] <;> decide +kernel

/-! Sectors of copies -/

/-- A check of `CanRead`. -/
def canReadB (s : State) (c : Ctx) (x : CopyCmd) (o : Nat) : Bool :=
  match srcByte s c x 0 o with
  | .glob va => (match trCopy s c .r va with
    | .ok t => s.gops.all (fun g => !(decide (g.agent = c.cid) && decide (g.id < x.id) && g.writes) || g.parts.all fun p => !p.touches t.pa 1)
      && !otherKey s t.key t.pa && !physPoison s t.pa 1 && !cutOff s t.pa
    | .error _ => false)
  | .spad k => !decide (k / 2 ^ 23 = tileOf c.cid) || !releasedTo s c (k % 2 ^ 23 / 2 ^ 18) x.id
  | _ => true
theorem canRead {s : State} {c : Ctx} {x : CopyCmd} {o : Nat} (h : canReadB s c x o = true) : CanRead s c x o := by
  unfold canReadB at h
  unfold CanRead
  cases e : srcByte s c x 0 o with
  | glob va =>
    simp only [e] at h ⊢
    cases k : trCopy s c .r va with
    | error _ => simp [k] at h
    | ok t =>
      simp only [k, Bool.and_eq_true, List.all_eq_true, Bool.not_eq_true'] at h
      refine ⟨t, rfl, ?_, h.1.1.2, h.1.2, h.2⟩
      intro g hg h1 h2 h3 p hp
      have := h.1.1.1 g hg
      simp only [h1, h2, h3, decide_true, Bool.and_self, Bool.not_true, Bool.false_or, List.all_eq_true, Bool.not_eq_true'] at this
      exact this p hp
  | spad k =>
    simp only [e] at h ⊢
    intro q
    simp only [q, decide_true, Bool.not_true, Bool.false_or, Bool.not_eq_true'] at h
    exact h
  | imm b => trivial
  | skip => trivial

/-- Two flat rows: from memory into the allocation, from the allocation into memory, and inside the allocation; a fill. -/
def cmdTo (src dst : Word) : CopyCmd :=
  { CopyCmd.blank (.cpyRow g0 ⟨63, 0, 0, 0, 0, 2 ^ 16⟩) with id := 4, state := 2, ops := [src, dst], total := 16 }
def hereW : Word := 0x4000000000000040
theorem test_hyp_copies : ∀ x ∈ [cmdTo 0 hereW, cmdTo hereW 0x4000000000001040, cmdTo hereW 0, cmdTo 0 0x1000], CopiesNow 0 0 7 (sCmd x 64) x := by
  have h : ∀ x ∈ [cmdTo 0 hereW, cmdTo hereW 0x4000000000001040, cmdTo hereW 0, cmdTo 0 0x1000], let s := sCmd x 64
      (look 0 (s.ctx 0).win.cmds = some x ∧ s.hasCtx 0 = true ∧ x.state = 2 ∧ 7 < x.total ∧ x.has 7 = false ∧ 7 < x.cursor + 256
        ∧ look 7 x.part = none ∧ (s.ctx 0).away = false ∧ (x.isList = false ∧ x.isTenStore = false ∧ x.tagged = false)
        ∧ replayFor s 0 = none ∧ (x.readsGlobal = true → (look 0 (s.tile (tileOf 0)).berths).getD 0 ≠ 0))
      ∧ ((List.range 32).all fun i => canReadB s (s.ctx 0) x (32 * 7 + i) && !overlaps s (s.ctx 0) x (dstByte s (s.ctx 0) x 0 (32 * 7 + i))) = true := by
    decide +kernel
  intro x hx
  have k := h x hx
  obtain ⟨⟨a, b, c, d, e, f, g, i, j, l, m⟩, n⟩ := k
  rw [List.all_eq_true] at n
  have n : ∀ i < 32, _ := fun i hi => Bool.and_eq_true _ _ ▸ n i (List.mem_range.mpr hi)
  refine ⟨a, b, c, d, e, f, g, i, j, ?_, l, m, fun i hi => canRead (n i hi).1, fun i hi => by simpa using (n i hi).2⟩
  intro g f h
  simp only [List.mem_cons, List.not_mem_nil, or_false] at hx
  rcases hx with rfl | rfl | rfl | rfl <;> cases h
def trGot (r : Except CErr Tr) : Tr :=
  match r with
  | .ok t => t
  | .error _ => ⟨0, none, 0, 0⟩
theorem trGot_ok {r : Except CErr Tr} {p : Tr → Bool} (h : (match r with
    | .ok t => p t
    | .error _ => false) = true) : r = .ok (trGot r) ∧ p (trGot r) = true := by
  cases r with
  | ok t => exact ⟨rfl, h⟩
  | error e => cases h
def sOut : State := sCmd (cmdTo hereW 0) 64
theorem trOut (i : Nat) (hi : i < 32) : let t := trGot (trCopy sOut (sOut.ctx 0) .w (32 * 7 + i))
    trCopy sOut (sOut.ctx 0) .w (32 * 7 + i) = .ok t ∧ twMode t.tagw ≠ 2 ∧ cutOff sOut (t.pa - t.pa % 16) = false
    ∧ look (t.pa / 32) sOut.skey = t.key ∧ t.pa = 32 * 7 + i := by
  have h : ∀ i < 32, (match trCopy sOut (sOut.ctx 0) .w (32 * 7 + i) with
      | .ok t => decide (twMode t.tagw ≠ 2 ∧ cutOff sOut (t.pa - t.pa % 16) = false ∧ look (t.pa / 32) sOut.skey = t.key ∧ t.pa = 32 * 7 + i)
      | .error _ => false) = true := by decide +kernel
  have k := trGot_ok (h i hi)
  exact ⟨k.1, of_decide_eq_true k.2⟩
theorem test_hyp_copyDest :
    (let x := cmdTo 0 hereW; let s := sCmd x 64
      parseLoc x.dstWord = .here 0x40 ∧ (s.ctx 0).cid = 0
      ∧ (let k (i : Nat) := spadKey (tileOf 0) ((s.ctx 0).spadOff (0x40 + (32 * 7 + i)));
        (∀ i < 32, ∀ j < 32, k i = k j → i = j) ∧ ∀ i < 32, spadReleased s (s.ctx 0) (k i) = false))
    ∧ (let x := cmdTo hereW 0; let s := sOut
      parseLoc x.dstWord = .glob 0
      ∧ ∃ w : Nat → Tr, (∀ i < 32, trCopy s (s.ctx 0) .w (0 + (32 * 7 + i)) = .ok (w i) ∧ twMode (w i).tagw ≠ 2
          ∧ cutOff s ((w i).pa - (w i).pa % 16) = false ∧ look ((w i).pa / 32) s.skey = (w i).key)
        ∧ ∀ i < 32, ∀ j < 32, (w i).pa = (w j).pa → i = j) := by
  refine ⟨by decide +kernel, by decide +kernel, fun i => trGot (trCopy sOut (sOut.ctx 0) .w (32 * 7 + i)), fun i hi => ?_, fun i hi j hj e => ?_⟩
  · rw [Nat.zero_add]
    exact ⟨(trOut i hi).1, (trOut i hi).2.1, (trOut i hi).2.2.1, (trOut i hi).2.2.2.1⟩
  · have a := (trOut i hi).2.2.2.2
    have b := (trOut j hj).2.2.2.2
    dsimp only at e
    omega

/-! Rows of a stream and saves -/

def sLast (x : CopyCmd) (more : Bool) : State :=
  onCtx fun c => { c with win := { Window.reset with
    tail := 1, cmds := [(0, x)], q := Window.reset.q.setIfInBounds 7 ⟨true, 0, 0, 0, 8,
      (7, ⟨6, 0, false, 8, 4, 0, none⟩) :: if more then [(6, ⟨6, 0, false, 8, 4, 0, none⟩)] else [], 8, 0⟩ } }
/-- The last row of a command that is done, of one that has stopped, a row of one that goes on, and one of a command that is gone. -/
theorem test_hyp_lastRow : ∀ x ∈ [({ cmdRow 2 with cursor := 16 }, false), ({ cmdRow 5 with cursor := 3 }, false), ({ cmdRow 2 with cursor := 3 }, false),
      ({ cmdRow 2 with cursor := 16 }, true), ({ cmdRow 2 with id := 9 }, false)],
    let s := sLast x.1 x.2
    let b := (s.ctx 0).win.q.toList.getD 7 QBind.none
    look 7 b.rowsIn = some ⟨6, 0, false, 8, 4, 0, none⟩ ∧ b.arr.getLsbD 7 = false ∧ b.valid = true ∧ (s.ctx 0).away = false
    ∧ (let d := { b with arr := b.arr ||| (1#8 <<< 7), rowsIn := put 7 (fixRow s (s.ctx 0) b 7 ⟨6, 0, false, 8, 4, 0, none⟩) b.rowsIn }
       let u := s.updCtx 0 fun y => { y with win := { y.win with q := y.win.q.setIfInBounds 7 d } }.readyFrom fun w => w = WaitOn.stream 7
       (u.ctx 0).win.rowInFlight 4 = x.2 ∧ (u.ctx 0).win.cmds.find? (fun x => x.2.id = 4) = if x.1.id = 4 then some (0, x.1) else none) := by
  decide +kernel

theorem test_hyp_saveFails : let s := sSaving true (2 ^ 55)
    (s.ctx 0).status = .saving ∧ saveDrained s (s.ctx 0) = true
    ∧ (let u := flushCore (withdrawSaved s 0) (hwOf 0 / 4); writeArea u (u.ctx 0) = none) := by decide +kernel
theorem test_hyp_saveTaken : let s := onCtx fun c => { c with status := .ready, atSwp := true, preempt := true }
    (s.ctx 0).preempt = true ∧ takeable s (s.ctx 0) = true ∧ (s.ctx 0).status ≠ .saving ∧ (s.ctx 0).fl = [] := by decide +kernel

end Sys2Proof.Tests

namespace Sys2Proof.Tests

open Sys2Proof Sys2Proof.Machine Sys2Proof.Claims

/-! ### Loads that went ahead, replays of audits, frames -/

/-- A load that was performed with its bundle's answered operation; none was. -/
theorem test_hyp_wentLoad :
    (let w : Went := ⟨.glob (gop (.loadScalar 7 8 false) 8), some (.scalar ⟨5, 24⟩, false), []⟩;
      let s := sMem 0xFFFFFFFFFFFFF8 fun c => full31 { c with wait := some ⟨5, some 1, 0, none, none, [w]⟩ };
      loadHyp (.ldgW64 g0 (fMem 0 0)) (fMem 0 0) s 8 8 0 24 false ∧ wentLoad s = some w)
    ∧ wentLoad (sMem 0xFFFFFFFFFFFFF8 full31) = none ∧ (fMem 0 0).mod = 0 ∧ ((fMem 0 6).mod != 0) = true :=
  ⟨⟨loads (by decide +kernel), by decide +kernel⟩, by decide +kernel, rfl, rfl⟩

/-- The context in the replay of an audit, and not. -/
def sReplayed : State := { sGroup with audits := [auditR (.read 0)] }
theorem test_hyp_replays : isReplay sReplayed sReplayed.cur.cid = true ∧ isReplay sGroup sGroup.cur.cid = false
    ∧ Ready (.hintSucc g0 ⟨0⟩) sReplayed ∧ Ready (.complete g0 ⟨1, 0, 0, 3⟩) sReplayed ∧ Ready (.complete g0 ⟨1, 0, 0, 3⟩) sGroup
    ∧ sGroup.cur.task = none ∧ sReplayed.cur.task = none ∧ sGroup.launch sGroup.cur.bind.launch = some launch1 :=
  ⟨by decide +kernel, by decide +kernel, ready (by decide +kernel), ready (by decide +kernel), ready (by decide +kernel), rfl, rfl,
    by decide +kernel⟩
/-- PHASE of a speculative task and outside. -/
theorem test_hyp_phase : Ready (.phase g0 ⟨15⟩) (inTask true (sSync id)) ∧ speculative (inTask true (sSync id)).cur = true
    ∧ Ready (.phase g0 ⟨15⟩) (sSync id) ∧ speculative (sSync id).cur = false :=
  ⟨ready (by decide +kernel), by decide +kernel, ready (by decide +kernel), by decide +kernel⟩
/-- RETT on a frame that can be read and on one whose number of entries is out of range. -/
def sBadFrame : State := { sTrap with mem := memWrite [] (tfBase sTrap.cur).toNat (List.replicate 64 0xFF) }
theorem test_hyp_frames :
    (∃ x, readFrame (staged (.rett g0 ⟨0⟩) sTrap) = .ok (some x))
    ∧ (Ready (.rett g0 ⟨0⟩) sBadFrame ∧ sBadFrame.cur.crs.intrap = true ∧ anyStorePending sBadFrame sBadFrame.cur.cid = false
      ∧ readFrame (staged (.rett g0 ⟨0⟩) sBadFrame) = .ok none) := by
  have h : (match readFrame (staged (.rett g0 ⟨0⟩) sTrap) with
    | .ok (some _) => true
    | _ => false) = true := test_hyp_context.2.2.2.2.2.2.2
  have k : (match readFrame (staged (.rett g0 ⟨0⟩) sBadFrame) with
    | .ok none => true
    | _ => false) = true := by decide +kernel
  refine ⟨?_, ready (by decide +kernel), by decide +kernel, by decide +kernel, ?_⟩
  · revert h
    cases readFrame (staged (.rett g0 ⟨0⟩) sTrap) with
    | error e => intro h; cases h
    | ok o =>
      cases o with
      | none => intro h; cases h
      | some x => intro _; exact ⟨x, rfl⟩
  · revert k
    cases readFrame (staged (.rett g0 ⟨0⟩) sBadFrame) with
    | error e => intro h; cases h
    | ok o =>
      cases o with
      | none => intro _; rfl
      | some x => intro h; cases h

end Sys2Proof.Tests

namespace Sys2Proof.Tests

open Sys2Proof Sys2Proof.Machine Sys2Proof.Claims

/-! ### The scheduler -/

/-- A loaded object of handle 3 with one kernel: two contexts of it and 16 blocks fill a core's accumulator. -/
def kern (acc spad : Nat) : Kernel := ⟨0, 0, 320, spad, acc, 64, true, 65536, [], [], 0, 0⟩
def obj3 (k : Kernel) : CodeObj := ⟨3, 0, 0, 0, 1, nativeLat, [k], false⟩
def launch3 : Launch := { launch1 with handle := 3, level := 0, nmem := 0 }
def tick8 : Ticket := ⟨8, 1, 0, none, 1, 0, none, [], 0, [], none⟩
/-- A launch of one group of two contexts that waits for a place, function 0 has tile 127 − 4 alone (die 7, site 11). -/
def sTicket (t : Ticket) : State :=
  let s := mapped { State.reset with objs := [obj3 (kern 16 32)], launches := [{ launch3 with issued := 0 }], tickets := [t] }
  s.setFn 0 { s.fn 0 with part := 1 <<< 123 }
theorem test_hyp_tickets :
    ((sTicket tick8).tickets.find? (fun x => x.id = 8) = some tick8 ∧ tick8.die = none ∧ servable (sTicket tick8) tick8 = true
      ∧ (List.range 8).find? (fun n => ticketFits (sTicket tick8) tick8 n) = some 7)
    ∧ (let t := { tick8 with die := some 7 }; (sTicket t).tickets.find? (fun x => x.id = 8) = some t ∧ t.die = some 7
      ∧ servable (sTicket t) t = true) := by decide +kernel
/-- A gang of two contexts apart on the last site of a die, whose first member is to be reserved. -/
def sGang (t : Ticket) : State :=
  let s := sTicket t
  { s with objs := [obj3 (kern 8 16)], launches := [{ launch3 with nmem := 2, kidx := [0, 0], gsz := [1, 1], issued := 0 }] }
theorem test_hyp_member : let t := { tick8 with die := some 7 }; let s := sGang t
    s.tickets.find? (fun x => x.id = 8) = some t ∧ servable s t = true ∧ t.dom = none ∧ restoreFirst s t = false ∧ replayFirst s t = false
    ∧ (∃ l, s.launch t.launch = some l ∧ t.groups.length + 1 < l.members ∧ gangDepth s l = 0
      ∧ (reserveMember s t l 7 t.groups.length).isSome = true) := by
  refine ⟨by decide +kernel, by decide +kernel, rfl, by decide +kernel, by decide +kernel, _, rfl, by decide +kernel, by decide +kernel,
    by decide +kernel⟩
/-- Every context of the tile belongs to a running group of a lower level. -/
def sVictim : State :=
  { sTicket tick8 with
    launches := [{ launch3 with issued := 0 }, { launch3 with id := 2 }], htime := 100000
    groups := [{ group1 ((List.range 16).map (· + 16 * 123)) [] [] with launch := 2, ticket := 5, tile := 123 }] }
theorem test_hyp_victims : sVictim.tickets.find? (fun x => x.id = 8) = some tick8 ∧ fitsSomewhere sVictim tick8 = false
    ∧ victims sVictim tick8 = [5] ∧ (∃ g ∈ sVictim.groups, g.ticket = 5 ∧ g.st = .running) := by
  decide +kernel

/-- A QUEUE word of depth 2 that holds two entries of ESZ `e`, and the edge entry of a normal predecessor. -/
def fullQueue (e : Nat) : Nat := (⟨6, false, e, 1, 0, 0, 1, 0⟩ : QueueW).word
def sQueues (cfg : BitVec 32) (e : Nat) : State :=
  { mapped State.reset with
    mem := memWrite [] 0xFF00 (leBytes 16 (fullQueue e)), lqs := [(15, ⟨0xFF00, cfg, 1, 0, []⟩)] }
theorem test_hyp_pop :
    (let s := enterFired (sQueues 0x8000000F 0); nextQueue s = some 15 ∧ (s.lq 15).isDev = false
      ∧ (peekEntry { s with lastLq := put (s.lq 15).level 15 s.lastLq } 15 (s.lq 15)).isSome = true)
    ∧ (let s := enterFired (sQueues 0xA000000F 2); nextQueue s = some 15 ∧ (s.lq 15).isDev = true ∧ devQueueOk s 0 (s.lq 15) = true
      ∧ (schedPop { s with lastLq := put (s.lq 15).level 15 s.lastLq } (15 / 16) (s.lq 15).base.toNat).isSome = true)
    ∧ (let s := { sQueues 0 0 with launches := [{ launch1 with node := some .parked, inq := [0xFF00] }] };
      s.launch 1 = some { launch1 with node := some .parked, inq := [0xFF00] } ∧ (popInputs 0 [0xFF00] s).isSome = true) := by
  refine ⟨⟨by decide +kernel, by decide +kernel, by decide +kernel⟩,
    ⟨by decide +kernel, by decide +kernel, by decide +kernel, by decide +kernel⟩, by decide +kernel, by decide +kernel⟩

/-- A launch entry at 0x1000 of object `h`: one group of two contexts, the record at 0x2000, a node descriptor at `graph`. -/
def sLaunch (h graph : Nat) : State :=
  let s := sTicket tick8
  { s with
    launches := [], tickets := [], lqs := [(15, ⟨0x1000, 0x8000000F, 1, 0, []⟩)]
    mem := memWrite (memWrite (memWrite [] 0x1000 (leBytes 8 h ++ zeros 8 ++ leBytes 4 1 ++ leBytes 4 1 ++ zeros 16 ++ leBytes 8 0x2000 ++ zeros 8
      ++ leBytes 8 graph)) 0x3000 (leBytes 8 0xFF00)) 0xFF00 (leBytes 16 (fullQueue 0)) }
theorem test_hyp_launchTaken : ∀ x ∈ [(3, 0, 0), (3, 0x3000, 0), (5, 0, 3)], let s := sLaunch x.1 x.2.1
    s.launches = [] ∧ nextQueue s = some 15 ∧ (s.lq 15).isDev = false
    ∧ (let u : State := { s with lastLq := put (s.lq 15).level 15 s.lastLq }
       let v := u.setLq 15 { s.lq 15 with head := (s.lq 15).head + 1 }
       (peekEntry u 15 (s.lq 15)).any fun b => let l := launchOf v (15 / 16) (s.lq 15).level b (s.lq 15).known
         breachOf v l b = x.2.2 && l.graph = x.2.1) = true := by decide +kernel
/-- Both verdicts of a node's entry: its inputs all succeeded, one did not. -/
theorem test_hyp_node : ∀ v ∈ [0, 2], let s := { sQueues 0 0 with launches := [{ launch1 with node := some .parked, inq := [0xFF00] }] }
    (let s := { s with mem := memWrite s.mem 0xFF50 (leBytes 8 v) };
     (popInputs 0 [0xFF00] s).any fun x => ((x.2.map fun e => bitsOf 0 2 (numAt e.bytes 0 8)).find? fun v => decide (2 ≤ v)) == if v = 2 then some 2 else none)
      = true := by decide +kernel
/-- A finished launch whose record can be written, with no edges and no other launches. -/
theorem test_hyp_record : let x := { launch1 with issued := 1, record := 0x2000 }
    let s := mapped { State.reset with launches := [x] }
    s.launch 1 = some x ∧ launchOver s x = true ∧ x.outq = [] ∧ x.earlyEdges = false
    ∧ (∀ y ∈ s.launches, y.preds = [] ∧ y.node ≠ some .watching ∧ (y.node ≠ some .queued ∨ y.issued ≠ y.n))
    ∧ (match devWrite s (devAgent x.fn) x.fn (x.record + 8)
        (recordTail x.user (x.tstart.getD 0) x.tend x.ngrp x.ntaint (x.first.getD (0, 0, 0)).2.2) with
      | .ok a => went (devWrite a.1 (devAgent x.fn) x.fn x.record
        (recordStatus (x.first.getD (0, 0, 0)).1 (x.first.getD (0, 0, 0)).2.1 x.verdict))
      | .error _ => false) = true := by decide +kernel

theorem test_hyp_groups :
    (let g := { group1 [0, 1] [] [] with st := .resident }; let s := { State.reset with groups := [g], launches := [launch1] };
      s.group 1 = some g ∧ s.launch 1 = some launch1
      ∧ ∀ x ∈ s.groups.filter fun x => x.ticket = 1 && x.launch = 1 && x.st = .resident,
        ∀ i < x.banks, ((s.tile x.tile).banks.toList.getD (x.bank + i) ⟨none, none, none⟩).owner = none)
    ∧ (let g := { group1 [0, 1] [] [] with releasing := [31] };
      let s := { State.reset with groups := [g] }.setTile { Tile.reset 0 with banks := Vector.replicate 32 ⟨some 1, some 0, none⟩ };
      ((s.tile 0).banks.toList.getD 31 ⟨none, none, none⟩).owner = some 1 ∧ s.group 1 = some g ∧ g.releasing.contains 31 = true
      ∧ bankBusy s g 31 = false)
    ∧ (let s := { State.reset with launches := [{ launch1 with issued := 1 }] };
      s.launch 1 = some { launch1 with issued := 1 } ∧ launchOver s { launch1 with issued := 1 } = true) := by decide +kernel

def audit1 (r : Option Nat) (sig : Word) (lack : Bool) : Audit := ⟨6, 1, 0, 1, [0], 122, 15, 65536, 0, [], sig, true, r, [16], 7, [], lack⟩
/-- A retired group's audit, whose replay finds room on tile 123; and replays that have run: equal signatures, others, a datum not held. -/
theorem test_hyp_audits :
    (let s := { sTicket tick8 with audits := [audit1 none 7 false], tickets := [] };
      s.audits.find? (fun y => y.id = 6) = some (audit1 none 7 false) ∧ settledAudit s (audit1 none 7 false) = true
      ∧ (audit1 none 7 false).replay = none ∧ (placeReplay s (audit1 none 7 false)).isSome = true)
    ∧ (∀ x ∈ [audit1 (some 1) 7 false, audit1 (some 1) 8 false, audit1 (some 1) 7 true],
      let s := { State.reset with audits := [x], groups := [group1 [16] [] []], others := [{ Ctx.fresh 16 with status := .retired }] };
      s.audits.find? (fun y => y.id = 6) = some x ∧ x.replay = some 1 ∧ s.group 1 = some (group1 [16] [] [])
      ∧ replayDone s x (group1 [16] [] []) = true)
    ∧ ((audit1 (some 1) 7 false).lack = false ∧ (audit1 (some 1) 7 false).sig = (audit1 (some 1) 7 false).sig2)
    ∧ (audit1 (some 1) 8 false).sig ≠ (audit1 (some 1) 8 false).sig2 ∧ (audit1 (some 1) 7 true).lack = true := by decide +kernel

/-! ### Task domains -/

def sDom (x : Dom) : State := { State.reset with doms := [x] }
theorem test_hyp_taskEvents :
    (let u := { task1 with st := .queued, ctx := none }; let x := dom1 [u]; let s := sDom x;
      s.dom 1 = some x ∧ x.task 1 = some u ∧ x.resident = true ∧ u.st = .queued ∧ (x.nextOn u.tile).map Task.seq = some 1
      ∧ freeTaskOn s x u.tile = some 0 ∧ x.isFront 1 = true ∧ x.linesOn u.tile + 64 ≤ 8192)
    ∧ (let t := { task1 with st := .finished, ctx := none }; let x := dom1 [t];
      (sDom x).dom 1 = some x ∧ x.frontier = some t ∧ t.st = .finished ∧ ∀ g ∈ (sDom x).gops, g.task = some (1, t.seq) → g.writes = false)
    ∧ ((sDom (dom1 [])).dom 1 = some (dom1 []) ∧ (dom1 []).resident = true ∧ (dom1 []).tasks = []
      ∧ carryDone (sDom (dom1 [])) (dom1 []).ws = true) := by decide +kernel

/-- A mailbox command of function 0. -/
def mail (op arg arg2 : Nat) (s : State) : State :=
  s.setFn 0 { s.fn 0 with mail := ⟨0, some ⟨op, arg, arg2, 0, zeros 256⟩, false, 0⟩ }
/-- A descriptor at 0x1000: tile 123, object 3, kernel 0, one context, one seed at 0, the record at 0x2000, the task store at 0x3000. -/
def descriptor : List Byte :=
  leBytes 16 (2 ^ 123) ++ leBytes 8 3 ++ [0, 1] ++ zeros 2 ++ leBytes 4 1 ++ leBytes 8 0 ++ leBytes 8 0x2000 ++ leBytes 8 0x3000 ++ leBytes 4 1
    ++ leBytes 4 0
def sOpen : State :=
  let s := mail 3 0x1000 0 (sTicket tick8)
  { s with objs := [obj3 { kern 0 0 with ntask := 1 }], mem := memWrite [] 0x1000 descriptor, launches := [], tickets := [] }
theorem test_hyp_domainOpen : mailFor sOpen 0 3 = some ⟨3, 0x1000, 0, 0, zeros 256⟩ ∧ (∀ y ∈ sOpen.doms, y.vf = 0 → y.resident = true)
    ∧ (∃ x, domainChecks sOpen 0 0x1000 = .ok x)
    ∧ mailFor (mail 3 0x1001 0 sOpen) 0 3 = some ⟨3, 0x1001, 0, 0, zeros 256⟩ ∧ ∃ k, domainChecks (mail 3 0x1001 0 sOpen) 0 0x1001 = .error k := by
  have h : went (domainChecks sOpen 0 0x1000) = true := by decide +kernel
  have k : went (domainChecks (mail 3 0x1001 0 sOpen) 0 0x1001) = false := by decide +kernel
  refine ⟨by decide +kernel, by decide +kernel, went_ok h, by decide +kernel, ?_⟩
  revert k
  cases domainChecks (mail 3 0x1001 0 sOpen) 0 0x1001 with
  | ok x => intro k; cases k
  | error e => intro _; exact ⟨e, rfl⟩

/-! ### The mailbox and the registers -/

theorem test_hyp_doorbell : (0 : Nat) ≤ 64 ∧ ((mapped State.reset).fn 0).flr = false ∧ ((mapped State.reset).fn 0).mail.cmd = none
    ∧ ((mapped State.reset).fn 0).mail.addr.toNat % 64 = 0
    ∧ ∃ b, devRead (mapped State.reset) (devAgent 0) 0 ((mapped State.reset).fn 0).mail.addr.toNat 256 = .ok (b, false) := by
  have h : (match devRead (mapped State.reset) (devAgent 0) 0 ((mapped State.reset).fn 0).mail.addr.toNat 256 with
      | .ok r => !r.2
      | .error _ => false) = true := by decide +kernel
  refine ⟨by decide, by decide +kernel, by decide +kernel, by decide +kernel, ?_⟩
  revert h
  cases devRead (mapped State.reset) (devAgent 0) 0 ((mapped State.reset).fn 0).mail.addr.toNat 256 with
  | error e => intro h; cases h
  | ok r =>
    intro h
    have h : r.2 = false := by simpa using h
    exact ⟨r.1, by rw [← h]⟩
theorem test_hyp_mail : ∀ x ∈ [(1, 0x40, 0), (5, 0, 123), (6, 0, 0x40), (0x10, 0, 8191), (0x11, 0, 8191), (0x12, 0, 63), (0x13, 0, 123), (0x14, 0, 63)],
    mailFor (mail x.1 x.2.1 x.2.2 (mapped State.reset)) 0 x.1 = some ⟨x.1, x.2.1, x.2.2, 0, zeros 256⟩ := by decide +kernel
theorem test_hyp_loadObject : ∃ r b, mailRead (mail 1 0x40 0 (mapped State.reset)) 0 0x40 24 = some r ∧ numAt r 0 8 % 64 = 0
    ∧ numAt r 8 8 % 64 = 0 ∧ numAt r 16 8 % 64 = 0 ∧ readObj (mail 1 0x40 0 (mapped State.reset)) 0 (numAt r 0 8) = some b := by
  have h : mailRead (mail 1 0x40 0 (mapped State.reset)) 0 0x40 24 = some (zeros 24) := by decide +kernel
  have k : (readObj (mail 1 0x40 0 (mapped State.reset)) 0 (numAt (zeros 24) 0 8)).isSome = true := by decide +kernel
  obtain ⟨b, k⟩ := isSome_some k
  exact ⟨_, b, h, by decide +kernel, by decide +kernel, by decide +kernel, k⟩
theorem test_hyp_mailObjects :
    (let s := { mail 2 0 3 State.reset with objs := [obj3 (kern 0 0)] };
      mailFor s 0 2 = some ⟨2, 0, 3, 0, zeros 256⟩
      ∧ s.objs.find? (fun o => o.handle = 3 && o.fn = 0 && !o.unloading) = some (obj3 (kern 0 0)))
    ∧ (∀ n ∈ [NodeSt.held, .heldEarly], let l := { launch1 with node := some n, graph := 0x40 };
      let s := { mail 4 0x40 1 State.reset with launches := [l] };
      mailFor s 0 4 = some ⟨4, 0x40, 1, 0, zeros 256⟩ ∧ s.launches.find? (fun l => l.heldAt 0 0x40) = some l) := by decide +kernel
theorem test_hyp_mailWrites :
    (∃ t w, devWrite (mail 5 0 123 (mapped State.reset)) (devAgent 0) 0 0
      (((mail 5 0 123 (mapped State.reset)).tile 123).svc.recs.flatMap (marginBytes 123)) = .ok (t, w))
    ∧ (∃ n t w, mailRead (mail 6 0 0x40 (mapped State.reset)) 0 0 32 = some n
      ∧ devWrite (mail 6 0 0x40 (mapped State.reset)) (devAgent 0) 0 0x40
        ((List.range 1024).map (Config.quoteByte (quoteInfo (mail 6 0 0x40 (mapped State.reset)) n))
          ++ (zeros 16 ++ (List.range 5357).map (Config.quoteSign ((List.range 1024).map
            (Config.quoteByte (quoteInfo (mail 6 0 0x40 (mapped State.reset)) n)))) ++ zeros 3)) = .ok (t, w)) := by
  have a : went (devWrite (mail 5 0 123 (mapped State.reset)) (devAgent 0) 0 0
      (((mail 5 0 123 (mapped State.reset)).tile 123).svc.recs.flatMap (marginBytes 123))) = true := by decide +kernel
  have b : mailRead (mail 6 0 0x40 (mapped State.reset)) 0 0 32 = some (zeros 32) := by decide +kernel
  have c : went (devWrite (mail 6 0 0x40 (mapped State.reset)) (devAgent 0) 0 0x40
        ((List.range 1024).map (Config.quoteByte (quoteInfo (mail 6 0 0x40 (mapped State.reset)) (zeros 32)))
          ++ (zeros 16 ++ (List.range 5357).map (Config.quoteSign ((List.range 1024).map
            (Config.quoteByte (quoteInfo (mail 6 0 0x40 (mapped State.reset)) (zeros 32))))) ++ zeros 3))) = true := by decide +kernel
  obtain ⟨⟨t, w⟩, a⟩ := went_ok a
  obtain ⟨⟨t', w'⟩, c⟩ := went_ok c
  exact ⟨⟨t, w, a⟩, _, t', w', b, c⟩
theorem test_hyp_registers : (∀ fn ∈ [0, 64], fnAnswers State.reset fn = true ∧ oldAccess State.reset fn = false) ∧ tileIdOk 124 = true
    ∧ (∃ s, fnAnswers s 0 = true ∧ oldAccess s 0 = true) :=
  ⟨by decide +kernel, by decide, { State.reset with gops := [gop gStore 8], uid := 9 }.setFn 0 { Fn.reset 0 with tmark := 9 }, by decide +kernel,
    by decide +kernel⟩
/-- An access to the low half, the high half and the whole of a register, of each window. -/
theorem test_hyp_regAccess : ∀ o ∈ [0, 0x8, 0x100, 0x110, 0x200, 0xFF8, 0x6000, 0x6010, 0x6100, 0x7000, 0x7020, 0x1D000, 0x1D038, 0x1E000, 0x1F008, 0x1F100],
    ∀ x ∈ [(8, 0), (4, 0), (4, 4)], ∀ b ∈ [true, false], let r : RegAccess := ⟨0, b, o + x.2, x.1, 0xFFFFFFFFFFFFFFFF⟩
      (r.size = 4 ∨ r.size = 8) ∧ r.off % r.size = 0 ∧ r.off / 8 * 8 = o ∧ (r.off % 8 = x.2) := by decide +kernel
theorem test_hyp_tail : (let n : LaunchQ := { State.reset.lq 15 with tail := (0 : Word).setWidth 32 }; n.overrun = false)
    ∧ (let n : LaunchQ := { (sQueues 0x8000000F 0).lq 15 with tail := (0xFFFFFFFF : Word).setWidth 32 }; n.overrun = true)
    ∧ (0x0 : Word).getLsbD 31 = false := by decide +kernel
theorem test_hyp_resets : State.reset.dev.devidSet = false ∧ ({ Dev.reset with devidSet := true } : Dev).devidSet = true
    ∧ (0x80000000 : Word).getLsbD 31 = true ∧ (0x80000000 : Word).toNat % 2 ^ 24 = 0
    ∧ (0x7FFFFFFF : Word).getLsbD 31 = false ∧ (0x80000001 : Word).toNat % 2 ^ 24 ≠ 0 := by decide +kernel

/-! ### Supervision, power, links -/

def onSvc (f : Svc → Svc) : State := State.reset.setTile { Tile.reset 0 with svc := f (Svc.reset 0) }
theorem test_hyp_supervision :
    (∀ e ∈ [TileSt.enabled, .draining], let s := onSvc fun v => { v with st := e };
      ((s.tile 0).svc.st = .enabled ∨ (s.tile 0).svc.st = .draining) ∧ s.tickets = [] ∧ s.audits = [] ∧ s.doms = [])
    ∧ 105 ≤ ((onSvc fun v => { v with up := ⟨0, 105⟩ }).tile 0).svc.up.replays
    ∧ (∀ c ∈ [none, some (2 ^ 28)], let v := ((onSvc fun v => { v with down := ⟨2 ^ 26, 67⟩, cool := c }).tile 0).svc;
      2 ^ 26 ≤ v.down.sealed ∧ v.down.replays ≤ 67 ∧ (v.cool = none ∨ v.cool = some (2 ^ 28)) ∧ binStart.toList.getD v.bin 0 - 40 ≤ v.mvNow - 5)
    ∧ (let s := onSvc fun v => { v with st := .draining }; (s.tile 0).svc.st = .draining ∧ workOn s 0 = false) := by decide +kernel
def sIdle (p : PowerSt) (n : Nat) : State :=
  { onSvc fun v => { v with pst := p } with htime := n, fns := [(0, { Fn.reset 0 with ltol := 0xFFFFFFFF })] }
/-- The same with a context that waits for a command until a time far off. -/
def sWaiting : State :=
  { sIdle .docked 1000000 with
    cur := { Ctx.fresh 0 with status := .blocked .sleep, sleepTill := some (2 ^ 60) }, fns := [(0, { Fn.reset 0 with ltol := 0xFFFFFFFF })] }
theorem test_hyp_powerStates :
    (let s := sIdle .run 0; let t := s.setTile { s.tile 0 with cyc := 64 };
      (t.tile 0).svc.pst = .run ∧ tileIdle t 0 = true ∧ exitNs .idle ≤ toleranceOf t 0 ∧ (t.tile 0).svc.sinceCyc + 64 ≤ (t.tile 0).cyc)
    ∧ (let s := sIdle .idle 10000;
      (s.tile 0).svc.pst = .idle ∧ tileIdle s 0 = true ∧ exitNs .docked ≤ toleranceOf s 0 ∧ (s.tile 0).svc.since + 10000 ≤ s.htime)
    ∧ (∀ x ∈ [(sIdle .docked 1000000, true), (sWaiting, false)], let s := x.1;
      (s.tile 0).svc.pst = .docked ∧ tileIdle s 0 = true ∧ exitNs .drydock ≤ toleranceOf s 0 ∧ (s.tile 0).svc.since + 1000000 ≤ s.htime
      ∧ decide (residentOn s 0 = []) = x.2)
    ∧ (∃ s, wakeDue s 0 = true ∧ ((wakeTile s 0).tile 0).svc.dry = [])
    ∧ (let s := onSvc fun v => { v with dry := [0] };
      wakeDue s 0 = false ∧ (s.tile 0).svc.pst = .run ∧ (s.tile 0).svc.dry ≠ []) := by
  refine ⟨by decide +kernel, by decide +kernel, by decide +kernel, ?_, by decide +kernel⟩
  exact ⟨{ sIdle .docked 9 with cur := { Ctx.fresh 0 with status := .ready } }, by decide +kernel, by decide +kernel⟩
theorem test_hyp_power :
    (let p := ((0 : Nat) :: State.reset.dev.power).take 10; State.reset.dev.thermal = false ∧ p.sum ≤ State.reset.rbcap * p.length)
    ∧ (∀ b ∈ [true, false], let s := onSvc fun v => { v with boost := if b then some 5 else none };
      let p := ((2 ^ 32 : Nat) :: s.dev.power).take 10;
      s.rbcap * p.length < p.sum ∧ s.dev.thermal = false ∧ (s.live.any fun t => (s.tile t).svc.boost.isSome) = b)
    ∧ ({ State.reset with dev := { Dev.reset with thermal := true } } : State).dev.thermal = true
    ∧ ((onSvc fun v => { v with boost := some 0 }).tile 0).svc.boost = some 0 ∧ 0 ≤ (onSvc fun v => { v with boost := some 0 }).htime
    ∧ (let m : BudgetMsg := ⟨true, 0, 3, 60, 6400, 1⟩;
      m.out = true ∧ m.src = State.reset.dev.devid ∧ m.dst ≠ State.reset.dev.devid
      ∧ m.watts ≤ 4 * State.reset.dev.rbfloor + State.reset.dev.received State.reset.htime - State.reset.dev.given State.reset.htime)
    ∧ (∀ q, look 3 State.reset.dev.sentSeq = some q → q < 60)
    ∧ (let m : BudgetMsg := ⟨false, 3, 0, 1, 6400, 51⟩;
      m.out = false ∧ m.dst = State.reset.dev.devid ∧ m.src ≠ State.reset.dev.devid ∧ State.reset.htime + 50 < m.exp)
    ∧ (∀ q, look 3 State.reset.dev.lastSeq = some q → q < 1)
    ∧ (∀ o ∈ [true, false], let s := { State.reset with dev := { Dev.reset with shares := [⟨o, 3, 1, 50⟩] }, htime := 100 };
      s.dev.shares[0]? = some ⟨o, 3, 1, 50⟩ ∧ (if o then 50 + 50 ≤ s.htime else 50 ≤ s.htime + 50)) := by
  refine ⟨by decide +kernel, by decide +kernel, rfl, by decide +kernel, by decide +kernel, by decide +kernel, ?_, by decide +kernel, ?_,
    by decide +kernel⟩
  · intro q h
    cases h
  · intro q h
    cases h
/-- The last sector and the last row; one error below the threshold and at it; a log that is not open. -/
theorem test_hyp_links : ((2 ^ 30 * 384 - 32) % 32 = 0 ∧ (2 ^ 30 * 384 - 32) + 32 ≤ 2 ^ 30 * 384)
    ∧ rlogOpen State.reset.dev = false ∧ State.reset.dev.rlogWait.length < 4096 ∧ State.reset.dev.repairs.length < 4096
    ∧ (∃ s : State, 4096 ≤ s.dev.repairs.length)
    ∧ (let e := look (4 * (2 ^ 30 * 384 - 32) + 3) State.reset.dev.errs;
      e.getD 0 + 15 < State.reset.dev.qthresh ∧ State.reset.dev.qthresh ≤ e.getD 0 + 16)
    ∧ (∀ r ∈ State.reset.dev.quar, r.pa ≠ 0 ∨ r.kind ≠ 3)
    ∧ (State.reset.port 11).st = .down
    ∧ (let s := { State.reset with dev := { Dev.reset with devidSet := true } }; (s.port 11).st = .down ∧ s.dev.devidSet = true)
    ∧ (∀ p ∈ [PortSt.up, .degraded, .training], (((State.reset.setPort 11 ⟨p, 0, none⟩)).port 11).st = p)
    ∧ (∀ b ∈ [true, false], ∃ u : UcieDown, u.stop = b) := by
  refine ⟨by decide +kernel, by decide +kernel, by decide +kernel, by decide +kernel,
    ⟨{ State.reset with dev := { Dev.reset with repairs := List.replicate 4096 ⟨0, 0, 0, 0, 0⟩ } }, ?_⟩,
    by decide +kernel, by decide +kernel, by decide +kernel, by decide +kernel, by decide +kernel, ?_⟩
  · show 4096 ≤ (List.replicate 4096 _).length
    exact Nat.le_of_eq (List.length_replicate).symm
  · intro b _
    exact ⟨⟨b, []⟩, rfl⟩

end Sys2Proof.Tests

namespace Sys2Proof.Tests

open Sys2Proof Sys2Proof.Machine Sys2Proof.Claims

/-! ### The machine as a whole -/

/-- What a turn of core 0 finds before its bundle, and the bundle itself. -/
def foundB (s : State) (n : Nat) : Bool :=
  let s1 : State := { s with turns := [] }
  let u := chooseCtx (tileHears s1 0) 0 0
  decide (s.turns = [.issue 0]) && coreLive s1 0 && coreFirst s1 0 && decide (corePick s1 0 = some 0) && (dueNow u u.cur).isEmpty && u.cur.reinj.isNone
    && !trapDue u u.cur && !(u.cur.preempt && takeable u u.cur) && (match fetchBytes u with
      | .bytes l => (match decode l with
        | .ok ((ctl, ops), _) => decide (ops.length = n) && !repDone (bundleUp u.cur ctl)
        | .error _ => false)
      | _ => false)
theorem found {s : State} {n : Nat} (h : foundB s n = true) : ∃ l ctl ops rest,
    s.turns = [.issue 0] ∧ coreLive { s with turns := [] } 0 = true ∧ coreFirst { s with turns := [] } 0 = true ∧ corePick { s with turns := [] } 0 = some 0
    ∧ dueNow (chooseCtx (tileHears { s with turns := [] } 0) 0 0) (chooseCtx (tileHears { s with turns := [] } 0) 0 0).cur = [] ∧ (chooseCtx (tileHears { s with turns := [] } 0) 0 0).cur.reinj = none
    ∧ trapDue (chooseCtx (tileHears { s with turns := [] } 0) 0 0) (chooseCtx (tileHears { s with turns := [] } 0) 0 0).cur = false
    ∧ ((chooseCtx (tileHears { s with turns := [] } 0) 0 0).cur.preempt
      && takeable (chooseCtx (tileHears { s with turns := [] } 0) 0 0) (chooseCtx (tileHears { s with turns := [] } 0) 0 0).cur) = false ∧ fetchBytes (chooseCtx (tileHears { s with turns := [] } 0) 0 0) = .bytes l
    ∧ decode l = .ok ((ctl, ops), rest) ∧ repDone (bundleUp (chooseCtx (tileHears { s with turns := [] } 0) 0 0).cur ctl) = false ∧ ops.length = n := by
  simp only [foundB, Bool.and_eq_true, decide_eq_true_eq, List.isEmpty_iff, Option.isNone_iff_eq_none, Bool.not_eq_true'] at h
  obtain ⟨⟨⟨⟨⟨⟨⟨⟨h1, h2⟩, h0⟩, h3⟩, h4⟩, h5⟩, h6⟩, h7⟩, h8⟩ := h
  revert h8
  cases hf : fetchBytes (chooseCtx (tileHears { s with turns := [] } 0) 0 0) with
  | fault k => intro h; cases h
  | miss p => intro h; cases h
  | bytes l =>
    cases hd : decode l with
    | error e => intro h; simp [hd] at h
    | ok r =>
      intro h
      obtain ⟨⟨ctl, ops⟩, rest⟩ := r
      simp only [hd, Bool.and_eq_true, decide_eq_true_eq, Bool.not_eq_true'] at h
      exact ⟨l, ctl, ops, rest, h1, h2, h0, h3, h4, h5, h6, h7, rfl, hd, h.2, h.1⟩
/-- The empty bundle, one operation, one in every slot; and an event's turn. -/
theorem test_hyp_step :
    (∀ x ∈ [(0, 0), (slotAt 0 0x01 0 0, 1), (slotAt 0 0x01 0 0 + slotAt 1 0x01 0 0 + slotAt 7 0x31 0 0, 3)],
      foundB (State.reset.withFetchWord 512 x.1) x.2 = true)
    ∧ (let s := { State.reset with turns := [.event (.timeSync true)] };
      s.turns = [.event (.timeSync true)] ∧ isEvent (.timeSync true) = true ∧ s.dev.stopped = false) :=
  ⟨by decide +kernel, by decide +kernel⟩
/-- A stopped device: its reset's turn, and any other. -/
theorem test_hyp_stopped : (let s := { State.reset with turns := [.event (.deviceReset ⟨none, []⟩)] }; isEvent (.deviceReset ⟨none, []⟩) = true ∧ s.syncRegs = [])
    ∧ (let s := { State.reset with turns := [.issue 0], dev := { Dev.reset with stopped := true } };
      s.turns = [.issue 0] ∧ s.dev.stopped = true ∧ ∀ b, Turn.issue 0 ≠ .event (.deviceReset b)) := by
  refine ⟨⟨rfl, rfl⟩, rfl, rfl, ?_⟩
  intro b h
  cases h

/-- The invariant of the memories has a state with a step: the one after reset. -/
theorem test_hyp_memories : State.reset.memOk = true ∧ ∃ t, step State.reset = .next t := by
  refine ⟨by decide +kernel, ?_⟩
  have h : (match step State.reset with
    | .next _ => true
    | _ => false) = true := by decide +kernel
  revert h
  cases step State.reset with
  | next t => intro _; exact ⟨t, rfl⟩
  | fault f => intro h; cases h
  | refused r => intro h; cases h

/-- A context with a handler and a save area of its own. -/
def sHandler : State := mapped (onCtx fun c => { c with crs := { c.crs with tvec := 0x40, sabase := 0x40000 } })
theorem test_hyp_trapEntry : speculative sHandler.cur = false ∧ sHandler.cur.crs.tvec ≠ 0 ∧ sHandler.cur.crs.intrap = false
    ∧ ∃ s1, let u := leaveBarrier (withdraw sHandler sHandler.cur.cid) sHandler.cur.cid
      let base := (tfBase sHandler.cur).toNat
      let frame := frameBytes ⟨sHandler.cur.crs.repi, 0, 0, 0x40, sHandler.cur.regs.lat.toList, []⟩
      ctxWrite (warmW u sHandler.cur.cid sHandler.cur.bind.vf base frame.length) sHandler.cur.cid sHandler.cur.bind.vf base frame = .ok s1 := by
  have h : went (let u := leaveBarrier (withdraw sHandler sHandler.cur.cid) sHandler.cur.cid
      let base := (tfBase sHandler.cur).toNat
      let frame := frameBytes ⟨sHandler.cur.crs.repi, 0, 0, 0x40, sHandler.cur.regs.lat.toList, []⟩
      ctxWrite (warmW u sHandler.cur.cid sHandler.cur.bind.vf base frame.length) sHandler.cur.cid sHandler.cur.bind.vf base frame) = true := by
    decide +kernel
  exact ⟨by decide +kernel, by decide +kernel, by decide +kernel, went_ok h⟩

/-- A predicate that does not let execute, on P1 = 0 and on the inverse of P0. -/
theorem test_hyp_skipped : ∀ g ∈ [(⟨1, false⟩ : Guard), ⟨0, true⟩],
    let i := Instr.cpyRow g ⟨63, 0, 0, 0, 0, 0⟩; let s := State.reset
    (slotOf i).isSome = true ∧ declared s i = true ∧ executes s.cur i = false ∧ ctlRep s.cur.ctl = false ∧ ctlSwp s.cur.ctl = false
    ∧ s.cur.crs.repi = 0 ∧ s.cur.fl.length ≤ 16 ∧ (∀ e ∈ s.cur.fl, e.overdue s.cur = false) ∧ asleep s = false := by decide +kernel

/-- Addresses beyond 2^56 and misaligned ones, for every width. -/
theorem test_hyp_addressTraps :
    (∀ a ∈ [(0xFFFFFFFFFFFF01 : Nat), 0xFF00000000000000],
      let s := sMem (BitVec.ofNat 64 a) full31
      (readyB (.ldgRow g0 (fMem 0 0)) s && readyB (.ldgW32 g0 (fMem 0 0)) s && readyB (.ldgW64 g0 (fMem 0 0)) s
        && readyB (.ldgTag g0 (fMem 0 0)) s && readyB (.ldgTag g0 (fMem 0 6)) s && readyB (.stgRow g0 (fMem 6 0)) s
        && readyB (.stgW32 g0 (fMem 354 0)) s && readyB (.stgW64 g0 (fMem 354 0)) s
        && gives (rdRowSrc (staged (.stgRow g0 (fMem 6 0)) s) 27 0 6) (rowT 6)
        && gives (rdScalarSrc (staged (.stgW32 g0 (fMem 354 0)) s) 0 354) ⟨5, 24⟩
        && gives (rdScalarSrc (staged (.stgW64 g0 (fMem 354 0)) s) 0 354) ⟨5, 24⟩) = true
      ∧ s.cur.ldq.length < 32 ∧ address s (fMem 0 0) true = BitVec.ofNat 64 a)
    ∧ bitsOf 56 8 (0xFF00000000000000 : Nat) ≠ 0 ∧ bitsOf 56 8 (0xFFFFFFFFFFFF01 : Nat) = 0 ∧ (0xFFFFFFFFFFFF01 : Nat) % 4 ≠ 0 := by
  decide +kernel

/-- A row beyond the declared ones; every blocking operation and every one of a matrix or a copy in a task. -/
theorem test_hyp_turnedAway :
    (let s := onCtx fun c => { c with bind := { c.bind with rows := 4 } }; let i := Instr.vadd g0 false ⟨4, false, 0, 0, 0, 0, 0⟩;
      (slotOf i).isSome = true ∧ declared s i = false ∧ asleep s = false)
    ∧ (let s := inTask true (sPipe (pipe7 1 [])); s.cur.task.isSome = true
      ∧ (∀ mk ∈ [Instr.semInit, .semPost, .semWait, .barInit, .barArrive, .barExpect, .barWait, .moor, .unmoor, .acq, .rel, .pipePush, .pipePop,
          .pipePopTry, .qPush, .qPop, .complete], readyB (mk g0 ⟨1, 2, 0, 0⟩) s = true)
      ∧ (∀ mk ∈ [Instr.mmaBf16, .mmaCb4, .mmaPlane, .mgath, .mldb, .cbload, .accZero, .accRd, .accWr, .cpyTen, .cpyRow, .cpyGath, .cpyScat, .cpySpad,
          .cpyRed, .cpyFill, .cpyBind, .cpyBindOff], readyB (mk g0 ⟨63, 0, 0, 0, 0, 0⟩) s = true)
      ∧ (∀ mk ∈ [Instr.lease, .leaseTry, .unlease, .chainBegin, .chainEnd, .cpyCancel, .cpyCancelAll, .tmap, .berthSet, .gbar, .fence, .tkwait, .tkclr,
          .bankRel, .hintSucc, .waitvis, .sleep, .endCtx], readyB (mk g0 ⟨0⟩) s = true)) := by decide +kernel

end Sys2Proof.Tests

namespace Sys2Proof.Tests

open Sys2Proof Sys2Proof.Machine Sys2Proof.Claims

/-! ### Selectors, visibility, bundles that repeat, switch or hold several operations -/

/-- Whether an operation traps, and with what. -/
def trapsB {α : Type} (r : Op α) (p : Cause → Bool) : Bool :=
  match r with
  | .error (.trap k) => p k
  | _ => false
theorem traps {α : Type} {r : Op α} {p : Cause → Bool} (h : trapsB r p = true) : ∃ k, r = .error (.trap k) ∧ p k = true := by
  cases r with
  | ok x => cases h
  | error e =>
    cases e with
    | trap k => exact ⟨k, rfl, h⟩
    | hold k s => cases h
    | fault f => cases h
    | refused r => cases h

/-- The stream register Q7, bound or not, its head arrived or not, its ring the allocation's first bytes; an LDQ; a latch of slot S. -/
def sQ (valid arr : Bool) (l : List LdEntry) (lat : Latch) : State :=
  onCtx fun c => setS [(1, 9)] { c with
    ldq := l
    regs := { c.regs with rows := [(319, rowT 6)], lat := c.regs.lat.setIfInBounds 11 lat }
    win := { Window.reset with q := Window.reset.q.setIfInBounds 7 ⟨valid, if arr then 0x80 else 0, 0, 15, 8, [(7, ⟨6, 0, false, 8, 4, 0, none⟩)], 8, 7⟩ } }
def iMov : Instr := .vmov g0 false ⟨0, false, 319, 0, 0, 0, 0⟩
/-- What the selectors find: an unbound Q7, an arrived head and none, an empty LDQ, a head that has not come, a row, a scalar, and latches of
each kind. -/
theorem test_hyp_selectors :
    (∀ x ∈ [sQ false false [] .invalid, sQ true false [⟨7, true, none, false, false⟩] (.row (rowT 3)),
        sQ true true [⟨7, true, some (.row (rowT 3)), true, false⟩] (.scalar ⟨5, 24⟩),
        sQ true true [⟨7, false, some (.scalar ⟨5, 24⟩), true, false⟩] (.mask 5)], Ready iMov x)
    ∧ (sQ false false [] .invalid).cur.win.q.toList[7]? = some ⟨false, 0, 0, 15, 8, [(7, ⟨6, 0, false, 8, 4, 0, none⟩)], 8, 7⟩
    ∧ (let b : QBind := ⟨true, 0x80, 0, 15, 8, [(7, ⟨6, 0, false, 8, 4, 0, none⟩)], 8, 7⟩;
      (sQ true true [] .invalid).cur.win.q.toList[7]? = some b ∧ b.arr.getLsbD (b.rd % 8) = true ∧ look (b.rd % 8) b.rowsIn = some ⟨6, 0, false, 8, 4, 0, none⟩)
    ∧ (let b : QBind := ⟨true, 0, 0, 15, 8, [(7, ⟨6, 0, false, 8, 4, 0, none⟩)], 8, 7⟩;
      (sQ true false [] .invalid).cur.win.q.toList[7]? = some b ∧ b.arr.getLsbD (b.rd % 8) = false)
    ∧ (sQ false false [] .invalid).cur.regs.latch 11 = .invalid ∧ (sQ false false [] (.row (rowT 3))).cur.regs.latch 11 = .row (rowT 3)
    ∧ (sQ false false [] (.mask 5)).cur.regs.latch (340 - 329) = .mask 5 := by
  refine ⟨each (p := readyB iMov) (by decide +kernel) fun _ => ready, ?_⟩
  decide +kernel
/-- Each kind of operand at a position: row 319, S1, a scalar of the LDQ, a row of it, a mask in a latch. -/
theorem test_hyp_positions :
    (let s := sQ true true [⟨7, true, some (.row (rowT 3)), true, false⟩] (.mask 5);
      Ready iMov s ∧ rdSel (staged iMov s) (inBit false) 0 319 = .ok (.row (rowT 6)) ∧ rdSel (staged iMov s) 99 0 328 = .ok (.row (rowT 3))
      ∧ rdSel (staged iMov s) (inBit false) 0 353 = .ok (.scalar ⟨9, 24⟩) ∧ rdSel (staged iMov s) (inBit false) 0 340 = .ok (.mask 5))
    ∧ (let s := sQ true true [⟨7, false, some (.scalar ⟨5, 24⟩), true, false⟩] .invalid;
      Ready iMov s ∧ rdSel (staged iMov s) (inBit true) 0 328 = .ok (.scalar ⟨5, 24⟩) ∧ rdSel (staged iMov s) 99 0 328 = .ok (.scalar ⟨5, 24⟩)
      ∧ rdSel (staged iMov s) 99 0 353 = .ok (.scalar ⟨9, 24⟩) ∧ rdSel (staged iMov s) 27 0 319 = .ok (.row (rowT 6))) :=
  ⟨⟨ready (by decide +kernel), gives_eq (by decide +kernel), gives_eq (by decide +kernel), gives_eq (by decide +kernel), gives_eq (by decide +kernel)⟩,
    ⟨ready (by decide +kernel), gives_eq (by decide +kernel), gives_eq (by decide +kernel), gives_eq (by decide +kernel), gives_eq (by decide +kernel)⟩⟩
/-- QSEL on each position, and none. -/
theorem test_hyp_qsel : (∀ n ∈ [1, 2, 3], qselOf { f10 with ext := BitVec.ofNat 19 (n * 2 ^ 17) } = n) ∧ qselOf f10 = 0
    ∧ (sQ true true [] .invalid).cur.ldq = []
    ∧ (∃ e l, (sQ true true [⟨7, false, some (.scalar ⟨5, 24⟩), true, false⟩] .invalid).cur.ldq = e :: l ∧ e.returned = true
      ∧ e.val = some (.scalar ⟨5, 24⟩))
    ∧ (∃ e l, (sQ true true [⟨7, true, some (.row (rowT 3)), true, false⟩] .invalid).cur.ldq = e :: l ∧ e.returned = true
      ∧ e.val = some (.row (rowT 3))) :=
  ⟨by decide +kernel, by decide +kernel, rfl, ⟨_, _, rfl, rfl, rfl⟩, ⟨_, _, rfl, rfl, rfl⟩⟩
/-- What pops: the highest stream register, the LDQ by a selector and by QSEL. -/
theorem test_hyp_pops : 7 ∈ popsStream (.vmov g0 false ⟨0, false, 327, 0, 0, 0, 0⟩) ∧ 0 ∉ popsStream (.vmov g0 false ⟨0, false, 327, 0, 0, 0, 0⟩)
    ∧ popsLdq (.vmov g0 false ⟨0, false, 328, 0, 0, 0, 0⟩) = true ∧ popsLdq (.add g0 { f10 with ext := 0x20000 }) = true := by decide +kernel

/-- A result of each kind with a second one behind it that leaves its register. -/
def flightOf (slot seq due : Nat) (res : List Write) (latch : Latch) (fl : Flags) (below : Option Nat) (mode : Nat) : Flight :=
  { dueFl with slot := slot, seq := seq, due := due, ready := due, res := res, latch := latch, flags := fl, below := below, mode := mode }
def sDue (l : List Flight) : State := onCtx fun c => { c with pt := 10, fl := l }
theorem test_hyp_visible : ∀ w ∈ [Write.row 319 (rowT 6), .scalar 31 ⟨5, 24⟩, .pred 7 true, .mask 7 5], ∀ v ∈ [Write.row 0 (rowT 3), .scalar 0 ⟨5, 24⟩, .pred 1 true, .mask 1 5],
    let a := flightOf 1 4 10 [w] .invalid 0 none 0
    let b := flightOf 7 5 10 [v] .invalid 0 (some 127) 1
    let s := sDue [a, b]
    dueNow s s.cur = [] ++ a :: [b] ∧ (∀ x ∈ [] ++ a :: [b], x.isBelow = false) ∧ a.res = [w] ∧ decide (v ∈ b.res) = true ∧ decide (w ∈ b.res) = false := by
  decide +kernel
theorem test_hyp_visibleAlone :
    (∀ e ∈ [flightOf 4 5 10 [] (.row (rowT 6)) 0 none 0, flightOf 7 5 10 [.pred 1 true] .invalid 31 (some 127) 1, flightOf 0 5 9 [] (.scalar ⟨5, 24⟩) 16 (some 0) 1],
      let s := sDue [e]; dueNow s s.cur = [e] ∧ e.isBelow = false ∧ e.passed = 0
      ∧ (∃ st, s.cur.crs.sticky.toList[e.slot]? = some st ∧ st.toNat / 2 ^ 39 = 0) ∧ ∃ r, s.cur.crs.sigrec.toList[e.slot]? = some r)
    ∧ latchBase 4 = some 9 := by
  refine ⟨?_, rfl⟩
  intro e he
  have h : ∀ e ∈ [flightOf 4 5 10 [] (.row (rowT 6)) 0 none 0, flightOf 7 5 10 [.pred 1 true] .invalid 31 (some 127) 1, flightOf 0 5 9 [] (.scalar ⟨5, 24⟩) 16 (some 0) 1],
      let s := sDue [e]; dueNow s s.cur = [e] ∧ e.isBelow = false ∧ e.passed = 0 ∧ s.cur.crs.sticky.toList[e.slot]? = some 0
        ∧ s.cur.crs.sigrec.toList[e.slot]? = some 0 := by decide +kernel
  obtain ⟨a, b, c, d, f⟩ := h e he
  exact ⟨a, b, c, ⟨0, d, by decide⟩, ⟨0, f⟩⟩
/-- A sticky register whose offset has been recorded. -/
theorem test_hyp_stickyHeld : let c := (onCtx fun c => { c with crs := { c.crs with sticky := c.crs.sticky.setIfInBounds 7 0x8000000000 } }).cur
    c.crs.sticky.toList[7]? = some 0x8000000000 ∧ (0x8000000000 : Word).getLsbD 39 = true := by decide +kernel
/-- The floor check off in each way, and on for each precision. -/
def crs0 (f : Nat) (h : Bool) : Ctx := { State.reset.cur with crs := { State.reset.cur.crs with sigfloor := BitVec.ofNat 32 f, intrap := h } }
theorem test_hyp_floor : (crs0 0x2081F true).crs.intrap = true ∧ bitsOf 16 2 (crs0 0x0081F false).crs.sigfloor.toNat = 0
    ∧ (crs0 0x20818 false).crs.intrap = false ∧ bitsOf 16 2 (crs0 0x20818 false).crs.sigfloor.toNat ≠ 0
    ∧ bitsOf 0 5 (crs0 0x20818 false).crs.sigfloor.toNat = 24 ∧ bitsOf 8 4 (crs0 0x20818 false).crs.sigfloor.toNat = 8 := by decide +kernel
/-- A withheld row, a scalar, and a transient behind a result that is visible. -/
theorem test_hyp_withheld : ∀ e ∈ [flightOf 1 5 10 [.row 319 (rowT 6)] (.row (rowT 6)) 0 (some 127) 2, flightOf 0 5 10 [.scalar 31 ⟨5, 24⟩] (.scalar ⟨5, 24⟩) 0 (some 0) 2,
      flightOf 2 5 10 [] (.row (rowT 6)) 0 (some 3) 2],
    let a := flightOf 0 4 9 [.scalar 30 ⟨5, 24⟩] .invalid 0 none 2
    let b := flightOf 4 5 10 [.row 5 (rowT 6)] .invalid 0 (some 3) 2
    let s := sDue [a, e, b]
    e.mode = 2 ∧ e.below.isSome = true
    ∧ (∃ l1 l2, dueNow s s.cur = l1 ++ e :: l2 ∧ (∀ x ∈ l1, x.isBelow = true → e.seen < x.seen) ∧ ∀ x ∈ l2, x.isBelow = true → e.seen ≤ x.seen) := by
  intro e he
  have h : ∀ e ∈ [flightOf 1 5 10 [.row 319 (rowT 6)] (.row (rowT 6)) 0 (some 127) 2, flightOf 0 5 10 [.scalar 31 ⟨5, 24⟩] (.scalar ⟨5, 24⟩) 0 (some 0) 2,
      flightOf 2 5 10 [] (.row (rowT 6)) 0 (some 3) 2],
      let a := flightOf 0 4 9 [.scalar 30 ⟨5, 24⟩] .invalid 0 none 2
      let b := flightOf 4 5 10 [.row 5 (rowT 6)] .invalid 0 (some 3) 2
      let s := sDue [a, e, b]
      e.mode = 2 ∧ e.below.isSome = true ∧ dueNow s s.cur = [a] ++ e :: [b] ∧ (∀ x ∈ [a], x.isBelow = true → e.seen < x.seen)
        ∧ ∀ x ∈ [b], x.isBelow = true → e.seen ≤ x.seen := by decide +kernel
  obtain ⟨a, b, c, d, f⟩ := h e he
  exact ⟨a, b, _, _, c, d, f⟩

/-- A bundle under a control word, with S1 and the iteration. -/
def sCtl (ctl : Nat) (s1 : Word) (repi : Nat) : State :=
  onCtx fun c => setS [(1, s1)] { c with
    ctl := BitVec.ofNat 32 ctl, regs := { c.regs with rows := [(6, rowT 6)] }, crs := { c.crs with repi := BitVec.ofNat 16 repi } }
def comesB (ops : List Instr) (s : State) : Bool :=
  !asleep s && ops.all (fun i => declared s i) && decide (s.cur.fl.length ≤ 16) && s.cur.fl.all fun e => !e.overdue s.cur
theorem comes {ops : List Instr} {s : State} (h : comesB ops s = true) : ComesUp ops s := by
  simp only [comesB, Bool.and_eq_true, Bool.not_eq_true', List.all_eq_true, decide_eq_true_eq] at h
  exact ⟨h.1.1.1, h.1.1.2, h.1.2, h.2⟩
/-- A count of 65,536 in S1; a count of 0 in the word and in S0, with a switch point and without. -/
theorem test_hyp_repeatCount :
    (let s := sCtl 0x70 65536 0; ComesUp [iMov] s ∧ ctlRep s.cur.ctl = true ∧ s.cur.iss.count = 0 ∧ ctlCsrc s.cur.ctl = true
      ∧ 65535 < (s.cur.regs.scalar ((ctlCnt s.cur.ctl).setWidth 5)).val.toNat)
    ∧ (∀ w ∈ [0x10, 0x11, 0x30, 0x31], let s := sCtl w 9 0; ComesUp [iMov] s ∧ ctlRep s.cur.ctl = true ∧ s.cur.iss.count = 0 ∧ s.cur.crs.repi = 0
      ∧ (if ctlCsrc s.cur.ctl then (s.cur.regs.scalar ((ctlCnt s.cur.ctl).setWidth 5)).val.toNat else (ctlCnt s.cur.ctl).toNat) = 0) :=
  ⟨⟨comes (by decide +kernel), by decide +kernel⟩, each (p := fun w => comesB [iMov] (sCtl w 9 0) && decide (let s := sCtl w 9 0;
      ctlRep s.cur.ctl = true ∧ s.cur.iss.count = 0 ∧ s.cur.crs.repi = 0
      ∧ (if ctlCsrc s.cur.ctl then (s.cur.regs.scalar ((ctlCnt s.cur.ctl).setWidth 5)).val.toNat else (ctlCnt s.cur.ctl).toNat) = 0)) (by decide +kernel)
      fun _ h => by
        simp only [Bool.and_eq_true] at h
        exact ⟨comes h.1, of_decide_eq_true h.2⟩⟩
def opensB (i : Instr) (s : State) : Bool :=
  declared s i && executes s.cur i && decide (s.cur.fl.length ≤ 16) && s.cur.fl.all (fun e => !e.overdue s.cur) && !asleep s
    && (popHold (opened s) i).isNone && s.cur.lat.toList.all fun n => decide (1 ≤ n)
theorem opens {i : Instr} {s : State} (h : opensB i s = true) : Opens i s := by
  simp only [opensB, Bool.and_eq_true, Bool.not_eq_true', List.all_eq_true, decide_eq_true_eq, Option.isNone_iff_eq_none] at h
  exact ⟨h.1.1.1.1.1.1, h.1.1.1.1.1.2, h.1.1.1.1.2, h.1.1.1.2, h.1.1.2, h.1.2, h.2⟩
/-- Four iterations, stride 1 and −1 on source and destination of slot A: one that goes on, the last one, and a destination outside. -/
def repWord (stride : Nat) : Nat := 0x10 + 4 * 64 + stride * 2 ^ 14 + 2 ^ 22 + 2 ^ 23
theorem test_hyp_iterations :
    (∀ n ∈ [1, 3], let s := sCtl (repWord 1) 9 n; let f : VF := ⟨8, false, 6, 0, 0, 0, 0⟩;
      Opens (.vmov g0 false f) s ∧ ctlRep s.cur.ctl = true ∧ ctlSwp s.cur.ctl = false ∧ repCount s.cur = some 4 ∧ s.cur.crs.repi.toNat < 4
      ∧ effRow s (dstBit false) 8 = .ok (8 + n) ∧ effRow s (inBit false) 6 = .ok (6 + n)
      ∧ (s.cur.bind.rows : Int) ≤ 319 + s.cur.crs.repi.toNat * ctlStride s.cur.ctl)
    ∧ (let s := sCtl (repWord 255) 9 1; let f : VF := ⟨0, false, 6, 0, 0, 0, 0⟩;
      Opens (.vmov g0 false f) s ∧ ctlRep s.cur.ctl = true ∧ repCount s.cur = some 4 ∧ effRow s (dstBit false) 0 = trapOp 0x05 0
      ∧ (0 : Int) + s.cur.crs.repi.toNat * ctlStride s.cur.ctl < 0) := by
  refine ⟨each (p := fun n => opensB (.vmov g0 false ⟨8, false, 6, 0, 0, 0, 0⟩) (sCtl (repWord 1) 9 n)
      && gives (effRow (sCtl (repWord 1) 9 n) (dstBit false) 8) (8 + n) && gives (effRow (sCtl (repWord 1) 9 n) (inBit false) 6) (6 + n)
      && decide (let s := sCtl (repWord 1) 9 n; ctlRep s.cur.ctl = true ∧ ctlSwp s.cur.ctl = false ∧ repCount s.cur = some 4 ∧ s.cur.crs.repi.toNat < 4
        ∧ (s.cur.bind.rows : Int) ≤ 319 + s.cur.crs.repi.toNat * ctlStride s.cur.ctl)) (by decide +kernel) fun n h => ?_, ?_⟩
  · simp only [Bool.and_eq_true] at h
    obtain ⟨a, b, c, d, e⟩ := of_decide_eq_true h.2
    exact ⟨opens h.1.1.1, a, b, c, d, gives_eq h.1.1.2, gives_eq h.1.2, e⟩
  · refine ⟨opens (by decide +kernel), by decide +kernel, by decide +kernel, ?_, by decide +kernel⟩
    simp only [effRow]
    rw [if_pos (by decide +kernel), if_pos (by decide +kernel)]
/-- Under SWP: an operation that completes; YIELD, alone, and in a task. -/
theorem test_hyp_switchPoint :
    (let s := sCtl 1 9 0; Opens iMov s ∧ ctlRep s.cur.ctl = false ∧ ctlSwp s.cur.ctl = true ∧ s.cur.crs.repi = 0 ∧ (slotOf iMov).isSome = true
      ∧ ∃ u, slotRun iMov (staged iMov s) = .ok u ∧ u.cur.iss.after = .none ∧ u.cur.ctl = s.cur.ctl)
    ∧ (let s := sCtl 1 9 0; Opens (.yield g0 ⟨0⟩) s ∧ s.cur.task = none)
    ∧ (let s := inTask true (sCtl 1 9 0); Opens (.yield g0 ⟨0⟩) s ∧ s.cur.task.isSome = true ∧ ctlRep s.cur.ctl = false ∧ s.cur.crs.repi = 0) := by
  refine ⟨⟨opens (by decide +kernel), by decide +kernel, by decide +kernel, by decide +kernel, by decide +kernel, ?_⟩,
    ⟨opens (by decide +kernel), rfl⟩, ⟨opens (by decide +kernel), by decide +kernel, by decide +kernel, by decide +kernel⟩⟩
  have h : (match slotRun iMov (staged iMov (sCtl 1 9 0)) with
    | .ok u => decide (u.cur.iss.after = .none ∧ u.cur.ctl = (sCtl 1 9 0).cur.ctl)
    | .error _ => false) = true := by decide +kernel
  revert h
  cases slotRun iMov (staged iMov (sCtl 1 9 0)) with
  | ok u => intro h; exact ⟨u, rfl, of_decide_eq_true h⟩
  | error e => intro h; cases h

/-- Two operations: the first traps, the second does, neither; a transfer beside. -/
theorem test_hyp_twoOperations : let s := sQ false false [] .invalid
    (∀ i ∈ [Instr.addi g0 ⟨3, 1, 5⟩, iMov, .vmov g0 true ⟨1, false, 319, 0, 0, 0, 0⟩, .vmov g0 true ⟨1, false, 340, 0, 0, 0, 0⟩, .bri g0 f10,
      .ldgW32 g0 (fMem 0 0)], Ready i s)
    ∧ (∃ k, slotRun (.vmov g0 true ⟨1, false, 340, 0, 0, 0, 0⟩) (staged (.vmov g0 true ⟨1, false, 340, 0, 0, 0, 0⟩) s) = .error (.trap k) ∧ k.cls ≠ 0x23)
    ∧ (∃ k, slotRun (.bri g0 f10) (staged (.bri g0 f10) s) = .error (.trap k) ∧ k.cls ≠ 0x23)
    ∧ (∀ i ∈ [Instr.addi g0 ⟨3, 1, 5⟩, iMov], ∃ u, slotRun i (staged i s) = .ok u) := by
  refine ⟨each (p := fun i => readyB i (sQ false false [] .invalid)) (by decide +kernel) fun _ => ready, ?_, ?_,
    each (p := fun i => isOk (slotRun i (staged i (sQ false false [] .invalid)))) (by decide +kernel) fun _ => isOk_ok⟩
  · obtain ⟨k, a, b⟩ := traps (r := slotRun (.vmov g0 true ⟨1, false, 340, 0, 0, 0, 0⟩) (staged (.vmov g0 true ⟨1, false, 340, 0, 0, 0, 0⟩) (sQ false false [] .invalid)))
      (p := fun k => decide (k.cls ≠ 0x23)) (by decide +kernel)
    exact ⟨k, a, of_decide_eq_true b⟩
  · obtain ⟨k, a, b⟩ := traps (r := slotRun (.bri g0 f10) (staged (.bri g0 f10) (sQ false false [] .invalid)))
      (p := fun k => decide (k.cls ≠ 0x23)) (by decide +kernel)
    exact ⟨k, a, of_decide_eq_true b⟩
/-- Seventeen results in flight; an overdue result on the source, on the destination, on the latch, and beside. -/
def overdueFl (slot : Nat) (res : List Write) (latch : Latch) : Flight := { flightOf slot 4 5 res latch 0 none 0 with ready := 20 }
theorem test_hyp_holds :
    (let s := sDue (List.replicate 17 (flightOf 0 4 99 [] .invalid 0 none 0)); asleep s = false ∧ declared s iMov = true ∧ 16 < s.cur.fl.length)
    ∧ (∀ e ∈ [overdueFl 2 [.scalar 1 ⟨5, 24⟩] .invalid, overdueFl 2 [.scalar 3 ⟨5, 24⟩] .invalid, overdueFl 0 [] (.scalar ⟨5, 24⟩), overdueFl 2 [.row 3 (rowT 6)] (.row (rowT 6))],
      let s := sDue [e]; let i := Instr.addi g0 ⟨3, 1, 5⟩;
      declared s i = true ∧ executes s.cur i = true ∧ asleep s = false ∧ s.cur.fl.length ≤ 16 ∧ ctlRep s.cur.ctl = false ∧ s.cur.crs.repi = 0
      ∧ ctlSwp s.cur.ctl = false ∧ e.overdue s.cur = true) := by
  decide +kernel

/-- The bounds of the queues hold after reset, which has a step. -/
theorem test_hyp_queues : queuesBounded State.reset ∧ ∃ t, step State.reset = .next t :=
  ⟨by
    intro c hc
    have h : ∀ c ∈ State.reset.cur :: State.reset.others, c.ldq.length ≤ 32 ∧ c.win.head < 32 ∧ c.win.tail < 32 := by decide +kernel
    exact h c hc, test_hyp_memories.2⟩

end Sys2Proof.Tests

namespace Sys2Proof.Tests

open Sys2Proof Sys2Proof.Machine Sys2Proof.Claims

/-! ### The completion of the forms that act around a context: what the other witnesses do not yet show -/

theorem test_hyp_contextForms :
    (let s := onCtx fun c => { c with fl := [dueFl] }; firstBelow (dueNow s (s.ctx 0)) = none)
    ∧ ((onCtx fun c => { c with status := .running, pends := [kTrap] }).ctx 0).pends = [kTrap]
    ∧ (let s := onCtx fun c => { c with status := .blocked (.tokens (1 <<< 63)) }; s.hasCtx 0 = true)
    ∧ (let s := onCtx fun c => { c with status := .blocked .sleep, sleepTill := some 0 };
      s.hasCtx 0 = true ∧ (s.ctx 0).sleepTill = some 0 ∧ (s.ctx 0).status = .blocked .sleep)
    ∧ (let s := onCtx fun c => { c with status := .ready }; s.hasCtx 0 = true)
    ∧ sSaved.tickets = [] ∧ ((gangGroups sSaved { group1 [0] [] [] with st := .saved }).filter fun x => x.st = .saved) ≠ [] := by decide +kernel

/-- A row that arrives while another of its command is on its way, and the last one of a command. -/
def sRows (rest : List (Nat × RingRow)) (cur : Nat) : State :=
  onCtx fun c => { c with win := { Window.reset with
    tail := 1, cmds := [(0, { cmdRow 2 with cursor := cur })]
    q := Window.reset.q.setIfInBounds 7 ⟨true, 0, 0, 0, 8, (7, ⟨6, 0, false, 8, 4, 0, none⟩) :: rest, 8, 0⟩ } }
theorem test_hyp_rows : ∀ x ∈ [([(6, (⟨6, 0, false, 8, 4, 0, none⟩ : RingRow))], 8, true), ([], 16, false)], let s := sRows x.1 x.2.1
    let b := (s.ctx 0).win.q.toList.getD 7 QBind.none
    let r : RingRow := ⟨6, 0, false, 8, 4, 0, none⟩
    let d := { b with arr := b.arr ||| (1#8 <<< 7), rowsIn := put 7 (fixRow s (s.ctx 0) b 7 r) b.rowsIn }
    let u := s.updCtx 0 fun y => { y with win := { y.win with q := y.win.q.setIfInBounds 7 d } }.readyFrom fun w => w = WaitOn.stream 7
    look 7 b.rowsIn = some r ∧ b.arr.getLsbD 7 = false ∧ b.valid = true ∧ (s.ctx 0).away = false
    ∧ (u.ctx 0).win.rowInFlight 4 = x.2.2
    ∧ (u.ctx 0).win.cmds.find? (fun x => x.2.id = 4) = some (0, { cmdRow 2 with cursor := x.2.1 })
    ∧ (x.2.2 = false → ({ cmdRow 2 with cursor := x.2.1 } : CopyCmd).cursor = ({ cmdRow 2 with cursor := x.2.1 } : CopyCmd).total) := by
  decide +kernel
theorem test_hyp_engineForms : sPost.syncRegs = [] ∧ (cmdRow 2).isScat = false
    ∧ (let s := onCtx (fun c => { c with wait := some ⟨5, none, 0, none, none, []⟩ }); s.hasCtx 0 = true) := by decide +kernel

theorem test_hyp_arrayForms :
    (let o := arrOp (.mmaBf16 g0 (fMma 0)) [0, 0, 0x101F] []; let d := descOf (o.ops.getD 2 0); o.steps.length + 1 ≠ d.mb * d.nb * d.kb)
    ∧ (∀ i ∈ [Instr.mgath g0 ⟨63, 0, 0, 0, 0, 2⟩, .mldb g0 ⟨63, 0, 0, 0, 0, 1⟩],
      let o := arrOp i [0, 0] [rowT tagI16]; let s := sQueue o (some (chain1 false)) [⟨9, false, 0, 0, 0⟩];
      (s.tile 0).arr.find? (fun o => o.id = 9) = some o ∧ lateIn s (s.tile 0) = false ∧ ∃ l ∈ (s.tile 0).gatherLat ++ (s.tile 0).bLat, l.id = 9)
    ∧ (let o := arrOp (.accZero g0 ⟨63, 0, 0, 0, 0, 0x1FFFE0⟩) [] []; let s := sQueue o none [];
      o.steps = [] ∧ (s.tile 0).chain = none ∧ arrBlocked (s.tile 0) o o.blocks = false)
    ∧ (let s := sArr 0 (sLease (some 0) none) (some { chain1 false with ending := true }) [];
      (s.tile 0).arr = [] ∧ (s.tile 0).cyc < (chain1 false).start + (s.ctx (chain1 false).owner).bind.chainMax)
    ∧ State.reset.hasCtx (chain1 false).owner = true := by decide +kernel

theorem test_hyp_schedulerForms :
    (let s := { sQueues 0 0 with launches := [{ launch1 with node := some .parked, inq := [0xFF00] }] };
      match popInputs 0 [0xFF00] s with
      | some r => ∀ e ∈ r.2, bitsOf 0 2 (numAt e.bytes 0 8) < 2
      | none => False)
    ∧ (sTicket tick8).launch 1 = some { launch3 with issued := 0 } := by
  refine ⟨?_, by decide +kernel⟩
  have h : (match popInputs 0 [0xFF00] { sQueues 0 0 with launches := [{ launch1 with node := some .parked, inq := [0xFF00] }] } with
    | some r => decide (∀ e ∈ r.2, bitsOf 0 2 (numAt e.bytes 0 8) < 2)
    | none => false) = true := by decide +kernel
  revert h
  dsimp only
  cases popInputs 0 [0xFF00] { sQueues 0 0 with launches := [{ launch1 with node := some .parked, inq := [0xFF00] }] } with
  | none => intro h; cases h
  | some r => intro h; exact of_decide_eq_true h

end Sys2Proof.Tests

namespace Sys2Proof.Tests

open Sys2Proof Sys2Proof.Machine Sys2Proof.Claims

/-! ### Decoding: words from the spec's worked examples -/

/-- What a slot value decodes to in slot `n`, alone in its bundle. -/
def inSlot (n value : Nat) : Option Instr := decodeTableWord 512 (value * 2 ^ (32 + 60 * n))

/-- 03: one value, an operation in slot S and another in slot A, illegal in slot M; 06: BRSIG S7, #12. -/
theorem test_decode_scalar : inSlot 0 0x015184400000000 = some (.add ⟨2, true⟩ ⟨3, 1, 2, 0, 0, 0, 0, 0⟩)
    ∧ inSlot 1 0x015184400000000 = some (.vadd ⟨2, true⟩ false ⟨97, false, 128, 0, 0, 0, 0⟩)
    ∧ inSlot 3 0x015184400000000 = none ∧ inSlot 0 0x1C5184400000000 = none
    ∧ inSlot 0 0x6203B00FFFFFFFD = some (.brsig g0 ⟨7, 12, 0, 0, 0xFFFFFFFD⟩) := by decide +kernel
/-- 02: VFADD.F32 V128, V0, V64; 07: (!P1) VFFMA.BF16.RZ V10, V2, S3, ~B1, K2. -/
theorem test_decode_vector : inSlot 1 0x480200000800000 = some (.vfadd g0 false ⟨128, false, 0, 64, 0, 0, 0⟩)
    ∧ inSlot 1 0x4B3028012C6A7A5 = some (.vffma ⟨1, true⟩ false ⟨10, false, 2, 355, 335, 2, 5⟩) := by decide +kernel
/-- 02: the control word of a bundle of four iterations, its slot A alone. -/
theorem test_decode_control : (decodeBundle (BitVec.ofNat 512 (0x00C40111 + 0x480200000800000 * 2 ^ 92))).toOption
    = some (0x00C40111, [.vfadd g0 false ⟨128, false, 0, 64, 0, 0, 0⟩]) := by decide +kernel
/-- 10: CHAIN.BEGIN #0x00F0, MMA.BF16 TK9, S4, S5, S6 after TK3. -/
theorem test_decode_matrix : inSlot 3 0x08000F000000000 = some (.chainBegin g0 ⟨0x00F000000000⟩)
    ∧ inSlot 3 0x100243000842980 = some (.mmaBf16 g0 ⟨9, 3, 0, 0, 4, 0x42980⟩) := by decide +kernel
/-- 08: LDG.ROW.F32 [S4+S5+0x100]. -/
theorem test_decode_memory : inSlot 4 0x080000850001006 = some (.ldgRow g0 ⟨0, 4, 5, 0x100, 6⟩) := by decide +kernel
/-- R214: STS.W64 [S3], S6, the data selector 358. -/
theorem test_decode_stores : inSlot 5 (0x030 * 2 ^ 48 + 358 * 2 ^ 38 + 3 * 2 ^ 33) = some (.stsW64 g0 ⟨358, 3, 0, 0, 0⟩) := by decide +kernel
/-- 09: CPY.TEN.LD TK5, M2, S8, S12, S13 after TK1, TK2. -/
theorem test_decode_copy : inSlot 6 0x010141080C90C68 = some (.cpyTen g0 ⟨5, 1, 2, 0, 6, 0x90C68⟩) := by decide +kernel
/-- 11, 12: SEM.WAIT S4, #2; BAR.ARRIVE S6, S7; TKWAIT TK3, TK5; MOOR.TILE MT2, S4, S5, #4096; FENCE.REL.PKG. -/
theorem test_decode_sync : inSlot 7 0x030200000000002 = some (.semWait g0 ⟨4, 0, 0, 2⟩)
    ∧ inSlot 7 0x09031C000010000 = some (.barArrive g0 ⟨6, 7, 0, 0x10000⟩) ∧ inSlot 7 0x180000000280000 = some (.tkwait g0 ⟨0x280000⟩)
    ∧ inSlot 7 0x10021412000003F = some (.moor g0 ⟨4, 5, 0, 0x12000003F⟩)
    ∧ inSlot 7 0x140900000000000 = some (.fence g0 ⟨0x900000000000⟩) := by decide +kernel
/-- 14 to 17: PIPE.PUSH; PHASE #3; COMPLETE S5, #2; Q.PUSH S4, V9, P2; Q.POP.TRY.F32 P3, V12, S4; SPAWN.TS S4, S5, S6, #2. -/
theorem test_decode_groups : inSlot 7 0x200000185000000 = some (.pipePush g0 ⟨0, 0, 0, 0x185000000⟩)
    ∧ inSlot 7 0x3C0000000000003 = some (.phase g0 ⟨3⟩) ∧ inSlot 7 0x3B0280000000002 = some (.complete g0 ⟨5, 0, 0, 2⟩)
    ∧ inSlot 7 0x280201012000000 = some (.qPush g0 ⟨4, 0, 2, 0x12000000⟩)
    ∧ inSlot 7 0x290201819600000 = some (.qPopTry g0 ⟨4, 0, 3, 0x19600000⟩)
    ∧ inSlot 7 0x300214180900000 = some (.spawn g0 ⟨4, 5, 0, 0x180900000⟩) := by decide +kernel

/-! ### Well-formedness refuses -/

/-- An operation of each check with every operand bit set. -/
theorem test_illFormed :
    (∀ mk ∈ [Instr.add, .mulh, .shl, .clz, .sel, .lea, .cmp, .pand, .pnot, .sfadd, .sffma, .sfsqrt, .sfcmp, .sfcvtI32, .bri,
      .ret, .cread, .cwrite],
      wfInstr (mk g0 ⟨0x1F, 0x1F, 0x1F, 0x1F, 0x7, 0x7, 0x7, 0x7FFFF⟩) = false)
    ∧ (∀ mk ∈ [Instr.movi, .movhi],
      wfInstr (mk g0 ⟨0x1F, 0x1F, 0x3FFFFFFFFF⟩) = false)
    ∧ (∀ mk ∈ [Instr.br, .brp, .brsig, .loop],
      wfInstr (mk g0 ⟨0x1F, 0x1F, 0x7, 0x7, 0xFFFFFFFF⟩) = false)
    ∧ (∀ mk ∈ [Instr.vadd, .vmulh, .vmad, .vand, .vnot, .vshl, .vcmp, .vsel, .vpopc, .vfadd, .vffma, .vfmin, .vfabs, .vfcmp,
      .vrcp, .vcvt, .vcbdec, .vplane, .vunplane, .vpadd, .vpand, .vpcnt, .vrsum, .vrmax, .vrsigmin, .vbcast, .vext, .vins,
      .vperm, .vshiftl, .viota, .vmov, .vfill, .vsig, .vsigset, .vfmt, .kand, .knot, .kpopc],
      wfInstr (mk g0 false ⟨0x3FF, true, 0x3FF, 0x3FF, 0x3FF, 0x7, 0xF⟩) = false)
    ∧ (∀ mk ∈ [Instr.lease, .leaseTry, .chainBegin, .cpyPoll, .cpyPollWin, .cpyCancel, .cpyCancelAll, .tmap, .berthSet, .fence,
      .tkwait, .bankRel, .phase, .trap, .sleep],
      wfInstr (mk g0 ⟨0xFFFFFFFFFFFF⟩) = false)
    ∧ (∀ mk ∈ [Instr.mmaBf16, .mmaCb4, .mmaPlane, .mgath, .mldb, .cbload, .accZero, .accRd, .accWr, .cpyTen, .cpyGath,
      .cpyScat, .cpyBind, .cpyBindOff],
      wfInstr (mk g0 ⟨0x3F, 0x3F, 0x3F, 0x3F, 0x7, 0x1FFFFF⟩) = false)
    ∧ (∀ mk ∈ [Instr.ldsRow, .ldsW32, .ldsW64, .ldgRow, .ldgW32, .ldgW64, .ldgTag, .ldqDrop, .stsRow, .stsW32, .stgTag,
      .atomAdd, .atomMin, .atomFadd, .satom],
      wfInstr (mk g0 ⟨0x3FF, 0x1F, 0x1F, 0xFFFFFF, 0xF⟩) = false)
    ∧ (∀ mk ∈ [Instr.semInit, .semPost, .semTry, .barArrive, .barTest, .moor, .unmoor, .acq, .rel, .pipePush, .pipePop,
      .pipePopTry, .qPush, .qPop, .qPopTry, .qPeek, .qInfo, .spawn, .tsGet, .complete],
      wfInstr (mk g0 ⟨0x1F, 0x1F, 0x7, 0x7FFFFFFFF⟩) = false)
    ∧ wfInstr (.cpyRed g0 ⟨0, 1, 0, 0, 0, 0⟩) = false ∧ wfInstr (.nop 0xFFFFFFFF) = false := by decide +kernel

/-! ### Results, from the spec's worked examples -/

/-- The results of a bundle of one operation, with their flags. -/
def results (i : Instr) (s : State) : List (List Write × Flags) := (after (exec i s) s).cur.fl.map fun e => (e.res, e.flags)
/-- Scalars 1 and 2 with counts. -/
def sCnt (a b : Scalar) : State := onCtx fun c => { c with regs := (c.regs.setScalar 1 a).setScalar 2 b }

/-- 06: MOVI S6, #-0x18_7654_3211 and MOVHI S6, S6, #0x4_8D15 build 0x0123_4567_89AB_CDEF. -/
theorem test_movi_movhi : results (.movi g0 ⟨6, 0, 0x2789ABCDEF⟩) State.reset = [([.scalar 6 ⟨0xFFFFFFE789ABCDEF, 24⟩], 0)]
    ∧ results (.movhi g0 ⟨6, 1, 0x48D15⟩) (withS [(1, 0xFFFFFFE789ABCDEF)]) = [([.scalar 6 ⟨0x0123456789ABCDEF, 24⟩], 0)] := by decide +kernel
/-- 06: 2^24 + 1 to binary32, to nearest and up. -/
theorem test_sfcvt : results (.sfcvtF32 g0 ⟨3, 1, 0, 0, 0, 0, 0, 8⟩) (withS [(1, 16777217)]) = [([.scalar 3 ⟨0x4B800000, 24⟩], flNX)]
    ∧ results (.sfcvtF32 g0 ⟨3, 1, 0, 0, 0, 0, 0, 11⟩) (withS [(1, 16777217)]) = [([.scalar 3 ⟨0x4B800001, 24⟩], flNX)] := by decide +kernel
/-- 05: the variance of 3.0 and 5.0 with counts 20: their sum 8.0 counts 21, 3.0 squared 9.0 counts 19, 17.0 − 16.0 counts 16. -/
theorem test_sfadd_count : results (.sfadd g0 f12) (sCnt ⟨0x40400000, 20⟩ ⟨0x40A00000, 20⟩) = [([.scalar 3 ⟨0x41000000, 21⟩], 0)] := by
  decide +kernel
theorem test_sfmul_count : results (.sfmul g0 ⟨3, 1, 1, 0, 0, 0, 0, 0⟩) (sCnt ⟨0x40400000, 20⟩ ⟨0, 24⟩) = [([.scalar 3 ⟨0x41100000, 19⟩], 0)] := by
  decide +kernel
theorem test_sfsub_count : results (.sfsub g0 f12) (sCnt ⟨0x41880000, 20⟩ ⟨0x41800000, 20⟩) = [([.scalar 3 ⟨0x3F800000, 16⟩], 0)] := by
  decide +kernel
/-- R142: .I32 wraps with the sign extended, .N32.SAT clamps with OF. -/
theorem test_add_types : results (.add g0 (fExt 2)) (withS [(1, 0x7FFFFFFF), (2, 1)]) = [([.scalar 3 ⟨0xFFFFFFFF80000000, 24⟩], 0)]
    ∧ results (.add g0 (fExt 11)) (withS [(1, 0xFFFFFFFF), (2, 1)]) = [([.scalar 3 ⟨0xFFFFFFFF, 24⟩], flOF)] := by decide +kernel
/-- R144: −2^63 ÷ −1, and a division by zero. -/
theorem test_div : results (.div g0 f12) sS = [([.scalar 3 ⟨0x8000000000000000, 24⟩], 0)]
    ∧ results (.div g0 f10) sS = [([.scalar 3 ⟨0xFFFFFFFFFFFFFFFF, 24⟩], flDZ)] := by decide +kernel
/-- 06: a BRSIG at 0x1_0400 with count 9 below 12 goes to 0x1_0340; with count 12 on to 0x1_0440. -/
theorem test_brsig : let i := Instr.brsig g0 ⟨1, 12, 0, 0, 0xFFFFFFFD⟩
    (after (exec i { sCnt ⟨0, 9⟩ ⟨0, 24⟩ with cur := { (sCnt ⟨0, 9⟩ ⟨0, 24⟩).cur with pc := 0x10400 } }) State.reset).cur.pc = 0x10340
    ∧ (after (exec i { sCnt ⟨0, 12⟩ ⟨0, 24⟩ with cur := { (sCnt ⟨0, 12⟩ ⟨0, 24⟩).cur with pc := 0x10400 } }) State.reset).cur.pc = 0x10440 := by
  decide +kernel
/-- 07: VRSUM.F32 S4, V6, K1 of 2^−24, 2^−24 and 1.0, lane 3 masked. -/
def sSum : State := onCtx fun c => { c with regs := { c.regs with
  k := c.regs.k.set 1 7, rows := [(6, ⟨BitVec.ofNat 2048 (0x33800000 + 0x33800000 * 2 ^ 32 + 0x3F800000 * 2 ^ 64 + 0x40400000 * 2 ^ 96),
    BitVec.ofNat 512 (0x18181818), 6⟩)] } }
theorem test_vrsum : results (.vrsum g0 false ⟨4, false, 6, 0, 0, 1, 8⟩) sSum = [([.scalar 4 ⟨0x3F800001, 24⟩], 0)] := by decide +kernel
/-- 18: an access of 0x0012_3456_789A_BCD0 through a cached leaf of 2 MiB at 0x4560_0000. -/
theorem test_translate : let s := { State.reset.setFn 0 { Fn.reset 0 with ptroot := 1 <<< 63 } with
      tlb := [⟨0, 0x00123456789ABCD0 / 2 ^ 21, 1, BitVec.ofNat 64 (2 ^ 63 + 2 ^ 61 + 3 * 2 ^ 56 + 0x45600)⟩] }
    translate s 0 0 .r 0x00123456789ABCD0 = .ok ⟨0x457ABCD0, none, 0, 0⟩ := by decide +kernel
/-- 13: the header word of a kernel with 192 rows and 8 blocks. -/
theorem test_header : headerWord (Ctx.fresh 0 |> fun c => { c with bind := { c.bind with rows := 192, acc := 8 } }) true = 0x80000A00010800C0 := by
  decide +kernel
/-- 16: the QUEUE word of depth 4 whose four places are free. -/
theorem test_queueWord : (⟨2, false, 0, 2, 4, 0, 0, 0x01004800⟩ : QueueW).word = 0x34040004000000000100480000000000 := by decide +kernel

end Sys2Proof.Tests
end

section
/-!
PROOFS. Writes of the host to registers: what the accessors return after the updates these writes are made of, what each write
does, and what it leaves.
-/
namespace Sys2Proof.Machine

open Sys2Proof.Claims

/-! ### Association lists -/

theorem look_put_same {α : Type} (k : Nat) (a : α) (l : List (Nat × α)) : look k (put k a l) = some a := by
  induction l with
  | nil => simp [put, look]
  | cons x r ih => by_cases h : x.1 = k <;> simp [put, look, h, ih]

theorem look_put_of_ne {α : Type} {j k : Nat} (h : j ≠ k) (a : α) (l : List (Nat × α)) : look j (put k a l) = look j l := by
  induction l with
  | nil => simp [put, look, h.symm]
  | cons x r ih =>
    by_cases hx : x.1 = k
    · simp [put, look, hx, h.symm]
    · simp [put, look, hx, ih]

/-- A filter on keys keeps what stands under a key it lets pass, and nothing under another. -/
theorem look_filter_key {α : Type} (p : Nat → Bool) (k : Nat) (l : List (Nat × α)) :
    look k (l.filter fun x => p x.1) = if p k then look k l else none := by
  induction l with
  | nil => simp [look]
  | cons x r ih =>
    rw [List.filter_cons]
    by_cases hx : x.1 = k
    · cases hp : p k <;> simp [look, hx, hp, ih]
    · split <;> simp [look, hx, ih]

theorem look_map_key {α : Type} (g : Nat → α) {k : Nat} {l : List Nat} (h : k ∈ l) : look k (l.map fun n => (n, g n)) = some (g k) := by
  induction l with
  | nil => simp at h
  | cons n r ih =>
    by_cases hn : n = k
    · simp [look, hn]
    · simpa [look, hn] using ih ((List.mem_cons.mp h).resolve_left (Ne.symm hn))

/-! ### Functions, launch queues and tiles after an update -/

@[simp] theorem State.tick_fn (s : State) (g : Nat) : s.tick.fn g = s.fn g := rfl
@[simp] theorem State.tick_lq (s : State) (k : Nat) : s.tick.lq k = s.lq k := rfl
@[simp] theorem State.tick_tile (s : State) (t : Nat) : s.tick.tile t = s.tile t := rfl

@[simp] theorem State.setFn_fn_same (s : State) (n : Nat) (x : Fn) : (s.setFn n x).fn n = x := by
  simp [State.fn, State.setFn, look_put_same]
theorem State.setFn_fn_of_ne (s : State) {g n : Nat} (h : g ≠ n) (x : Fn) : (s.setFn n x).fn g = s.fn g := by
  simp [State.fn, State.setFn, look_put_of_ne h]

@[simp] theorem State.setLq_lq_same (s : State) (k : Nat) (q : LaunchQ) : (s.setLq k q).lq k = q := by
  simp [State.lq, State.setLq, look_put_same]
theorem State.setLq_lq_of_ne (s : State) {j k : Nat} (h : j ≠ k) (q : LaunchQ) : (s.setLq k q).lq j = s.lq j := by
  simp [State.lq, State.setLq, look_put_of_ne h]

theorem State.updSvc_tile (s : State) (t : Nat) (f : Svc → Svc) (j : Nat) :
    (s.updSvc t f).tile j = if t = j then { s.tile t with svc := f (s.tile t).svc } else s.tile j := by
  simp only [State.updSvc, tile_setTile, tile_tid]

theorem State.updSvc_svc_same (s : State) (t : Nat) (f : Svc → Svc) : ((s.updSvc t f).tile t).svc = f (s.tile t).svc := by
  simp [State.updSvc_tile]
theorem State.updSvc_tile_of_ne (s : State) {j t : Nat} (h : j ≠ t) (f : Svc → Svc) : (s.updSvc t f).tile j = s.tile j := by
  simp [State.updSvc_tile, h.symm]

/-! ### The bits a write covers (R8) -/

theorem getLsbD_rw (old v m f : Word) (i : Nat) :
    (rw old v m f).getLsbD i = if m.getLsbD i && f.getLsbD i then v.getLsbD i else old.getLsbD i := by
  by_cases hi : i < 64
  · simp only [rw, BitVec.getLsbD_or, BitVec.getLsbD_and, BitVec.getLsbD_not, hi, decide_true, Bool.true_and]
    cases m.getLsbD i <;> cases f.getLsbD i <;> simp
  · simp [BitVec.getLsbD_of_ge _ i (Nat.le_of_not_lt hi)]

theorem getLsbD_rw32 (old : BitVec 32) (v m f : Word) {i : Nat} (h : i < 32) :
    (rw32 old v m f).getLsbD i = if m.getLsbD i && f.getLsbD i then v.getLsbD i else old.getLsbD i := by
  have h64 : i < 64 := by omega
  simp only [rw32, lo32, ext64, BitVec.getLsbD_setWidth, getLsbD_rw, h, h64, decide_true, Bool.true_and]

/-- A write of all 8 bytes gives each writable bit its value. -/
theorem getLsbD_rw32_whole (old : BitVec 32) (v f : Word) {i : Nat} (h : i < 32) :
    (rw32 old v (BitVec.allOnes 64) f).getLsbD i = if f.getLsbD i then v.getLsbD i else old.getLsbD i := by
  have h64 : i < 64 := by omega
  simp only [getLsbD_rw32 _ _ _ _ h, BitVec.getLsbD_allOnes, h64, decide_true, Bool.true_and]

theorem takesBits_rw (old v m f : Word) : TakesBits old (rw old v m f) v m f := by
  intro i
  rw [getLsbD_rw]
  by_cases hi : i < 64
  · simp [hi]
  · simp [BitVec.getLsbD_of_ge _ i (Nat.le_of_not_lt hi)]

theorem takesBits_rw32 (old : BitVec 32) (v m f : Word) : TakesBits old (rw32 old v m f) v m f := by
  intro i
  by_cases hi : i < 32
  · simp only [getLsbD_rw32 _ _ _ _ hi, hi, decide_true, Bool.true_and]
  · simp [BitVec.getLsbD_of_ge _ i (Nat.le_of_not_lt hi), hi]

theorem rw32_whole (old : BitVec 32) (v : Word) : rw32 old v (BitVec.allOnes 64) 0xFFFFFFFF = v.setWidth 32 := by
  apply BitVec.eq_of_getLsbD_eq
  intro i hi
  have hf : (0xFFFFFFFF : Word).getLsbD i = true := by revert i; decide
  simp only [getLsbD_rw32_whole _ _ _ hi, hf, if_true, BitVec.getLsbD_setWidth, hi, decide_true, Bool.true_and]

@[simp] theorem upperOnly_allOnes : upperOnly (BitVec.allOnes 64) = false := by decide

/-! ### What a launch-queue write leaves -/

/-- The other launch queues, memory, contexts and tiles stay. -/
structure QueueOnly (k : Nat) (s t : State) : Prop where
  lqs : ∀ j, j ≠ k → t.lq j = s.lq j
  mem : t.mem = s.mem
  cur : t.cur = s.cur
  others : t.others = s.others
  tiles : t.tiles = s.tiles

theorem queueOnly_setLq (s : State) (k : Nat) (q : LaunchQ) : QueueOnly k s (s.setLq k q) where
  lqs _ hj := State.setLq_lq_of_ne s hj q
  mem := rfl
  cur := rfl
  others := rfl
  tiles := rfl

/-- A message reaches the registers of its function or the list of messages, and no launch queue. -/
theorem raiseMsi_queueOnly (s : State) (fn v k : Nat) : QueueOnly k s (raiseMsi s fn v) ∧ (raiseMsi s fn v).lq k = s.lq k := by
  unfold raiseMsi
  dsimp only
  split <;> exact ⟨⟨fun _ _ => rfl, rfl, rfl, rfl, rfl⟩, rfl⟩

theorem QueueOnly.trans {k : Nat} {s t u : State} (h : QueueOnly k s t) (h' : QueueOnly k t u) : QueueOnly k s u where
  lqs j hj := (h'.lqs j hj).trans (h.lqs j hj)
  mem := h'.mem.trans h.mem
  cur := h'.cur.trans h.cur
  others := h'.others.trans h.others
  tiles := h'.tiles.trans h.tiles

theorem failQueue_queueOnly (s : State) (k : Nat) : QueueOnly k s (failQueue s k) :=
  (queueOnly_setLq s k _).trans (raiseMsi_queueOnly _ _ _ k).1

@[simp] theorem failQueue_lq_same (s : State) (k : Nat) : (failQueue s k).lq k = (s.lq k).fail :=
  (raiseMsi_queueOnly _ _ _ k).2.trans (State.setLq_lq_same s k _)

/-- What both LQTAIL and LQCFG do in the end: the queue is stored, and failed where the condition says so. -/
theorem storeQueue_queueOnly (s : State) (k : Nat) (q : LaunchQ) (c : Bool) :
    QueueOnly k s (if c then failQueue (s.setLq k q) k else s.setLq k q) := by
  split
  · exact (queueOnly_setLq s k q).trans (failQueue_queueOnly _ k)
  · exact queueOnly_setLq s k q

theorem storeQueue_lq (s : State) (k : Nat) (q : LaunchQ) (c : Bool) :
    (if c then failQueue (s.setLq k q) k else s.setLq k q).lq k = if c then q.fail else q := by
  cases c <;> simp

/-! ### LQTAIL (16 R392) -/

/-- A queue whose tail pointer has been written whole. -/
def LaunchQ.withTail (q : LaunchQ) (v : Word) (ws : List WRef) : LaunchQ := { q with tail := v.setWidth 32, known := ws }

theorem writeLqTail_whole (s : State) (k : Nat) (v : Word) :
    writeLqTail s k v (BitVec.allOnes 64) =
      (let q := (s.lq k).withTail v (allHostWs s)
       if q.overrun then failQueue (s.setLq k q) k else s.setLq k q) := by
  simp only [writeLqTail, LaunchQ.withTail, rw32_whole, upperOnly_allOnes, Bool.false_eq_true, if_false]
  rfl

theorem writeLqTail_inTime (s : State) (k : Nat) (v : Word) (h : ((s.lq k).withTail v (allHostWs s)).overrun = false) :
    writeLqTail s k v (BitVec.allOnes 64) = s.setLq k ((s.lq k).withTail v (allHostWs s)) := by
  rw [writeLqTail_whole]
  exact if_neg (by simp [h])

theorem writeLqTail_queueOnly (s : State) (k : Nat) (v : Word) : QueueOnly k s (writeLqTail s k v (BitVec.allOnes 64)) := by
  rw [writeLqTail_whole]
  exact storeQueue_queueOnly s k _ _

/-- The queue after a write of its tail pointer: an overrun sets ERR and clears EN. -/
theorem writeLqTail_lq (s : State) (k : Nat) (v : Word) :
    (writeLqTail s k v (BitVec.allOnes 64)).lq k =
      (let q := (s.lq k).withTail v (allHostWs s)
       if q.overrun then q.fail else q) := by
  rw [writeLqTail_whole]
  exact storeQueue_lq s k _ _

/-- Whether or not the tail overruns the ring, the queue holds the tail written and the host's writes before it. -/
theorem writeLqTail_fields (s : State) (k : Nat) (v : Word) :
    let q := (writeLqTail s k v (BitVec.allOnes 64)).lq k
    q.tail = v.setWidth 32 ∧ q.known = allHostWs s ∧ q.base = (s.lq k).base ∧ q.head = (s.lq k).head := by
  dsimp only
  rw [writeLqTail_lq]
  dsimp only
  split <;> exact ⟨rfl, rfl, rfl, rfl⟩

theorem writeLqTail_overrun (s : State) (k : Nat) (v : Word) (h : ((s.lq k).withTail v (allHostWs s)).overrun = true) :
    ((writeLqTail s k v (BitVec.allOnes 64)).lq k).cfg = ((s.lq k).cfg ||| 0x40000000) &&& 0x7FFFFFFF := by
  rw [writeLqTail_lq]
  exact congrArg LaunchQ.cfg (if_pos h)

/-! ### LQCFG (16 R392) -/

/-- LQCFG after a write of all its bits: ERR stays only where it was set and the write does not clear it. -/
def cfgWritten (c : BitVec 32) (v : Word) : BitVec 32 :=
  let r := rw32 c v (BitVec.allOnes 64) 0xA0001F0F &&& ~~~0x40000000
  if c.getLsbD 30 && !v.getLsbD 30 then r ||| 0x40000000 else r

/-- The bits of LQCFG that a write sets: LEVEL, LDEPTH, DEV and EN. -/
theorem lqcfg_field {i : Nat} (h : i < 32) :
    (0xA0001F0F : Word).getLsbD i = decide (i < 4 ∨ 8 ≤ i ∧ i < 13 ∨ i = 29 ∨ i = 31) := by
  revert i; decide

theorem bit30_mask {i : Nat} (h : i < 32) : (0x40000000 : BitVec 32).getLsbD i = decide (i = 30) := by revert i; decide

theorem cfgWritten_bit (c : BitVec 32) (v : Word) {i : Nat} (h : i < 32) (h30 : i ≠ 30) :
    (cfgWritten c v).getLsbD i = if i < 4 ∨ 8 ≤ i ∧ i < 13 ∨ i = 29 ∨ i = 31 then v.getLsbD i else c.getLsbD i := by
  have body : (rw32 c v (BitVec.allOnes 64) 0xA0001F0F &&& ~~~0x40000000).getLsbD i =
      if i < 4 ∨ 8 ≤ i ∧ i < 13 ∨ i = 29 ∨ i = 31 then v.getLsbD i else c.getLsbD i := by
    simp only [BitVec.getLsbD_and, BitVec.getLsbD_not, getLsbD_rw32_whole _ _ _ h, lqcfg_field h, bit30_mask h, h, h30, decide_true,
      decide_false, Bool.not_false, Bool.and_true, decide_eq_true_eq]
  unfold cfgWritten
  dsimp only
  split
  · rw [BitVec.getLsbD_or, body, bit30_mask h, decide_eq_false h30, Bool.or_false]
  · exact body

theorem cfgWritten_err (c : BitVec 32) (v : Word) : (cfgWritten c v).getLsbD 30 = (c.getLsbD 30 && !v.getLsbD 30) := by
  have m30 : (0x40000000 : BitVec 32).getLsbD 30 = true := by decide
  unfold cfgWritten
  dsimp only
  split
  · rename_i h
    rw [BitVec.getLsbD_or, m30, h, Bool.or_true]
  · rename_i h
    rw [BitVec.getLsbD_and, BitVec.getLsbD_not, m30, Bool.eq_false_iff.mpr h, Bool.not_true, Bool.and_false, Bool.and_false]

theorem writeLqCfg_whole (s : State) (k : Nat) (v : Word) :
    writeLqCfg s k v (BitVec.allOnes 64) =
      (let q := { s.lq k with cfg := cfgWritten (s.lq k).cfg v }
       if q.en && ((q.isDev && !devQueueOk s (k / 16) q) || q.overrun) then failQueue (s.setLq k q) k else s.setLq k q) := by
  simp only [writeLqCfg, upperOnly_allOnes, Bool.false_eq_true, if_false, BitVec.and_allOnes, cfgWritten]
  rfl

theorem writeLqCfg_queueOnly (s : State) (k : Nat) (v : Word) : QueueOnly k s (writeLqCfg s k v (BitVec.allOnes 64)) := by
  rw [writeLqCfg_whole]
  exact storeQueue_queueOnly s k _ _

/-- The queue after a write of its configuration: as written, or failed, and this only where the write sets EN. -/
theorem writeLqCfg_lq (s : State) (k : Nat) (v : Word) :
    let q := { s.lq k with cfg := cfgWritten (s.lq k).cfg v }
    let u := writeLqCfg s k v (BitVec.allOnes 64)
    u.lq k = q ∨ u.lq k = q.fail ∧ v.getLsbD 31 = true := by
  have hen : (cfgWritten (s.lq k).cfg v).getLsbD 31 = v.getLsbD 31 := by
    simp only [cfgWritten_bit, Nat.reduceLT, ne_eq, Nat.reduceEqDiff, not_false_eq_true, or_true, if_true]
  dsimp only
  rw [writeLqCfg_whole]
  dsimp only
  rw [storeQueue_lq]
  split
  · rename_i h
    exact .inr ⟨rfl, hen.symm.trans (Bool.and_eq_true_iff.mp h).1⟩
  · exact .inl rfl

theorem writeLqCfg_fields (s : State) (k : Nat) (v : Word) :
    let q := (writeLqCfg s k v (BitVec.allOnes 64)).lq k
    q.base = (s.lq k).base ∧ q.head = (s.lq k).head ∧ q.tail = (s.lq k).tail := by
  obtain e | ⟨e, -⟩ := writeLqCfg_lq s k v <;> rw [e] <;> exact ⟨rfl, rfl, rfl⟩

theorem LaunchQ.fail_cfg_bit (q : LaunchQ) {i : Nat} (h : i < 30) : q.fail.cfg.getLsbD i = q.cfg.getLsbD i := by
  have h32 : i < 32 := by omega
  have h31 : (0x80000000 : BitVec 32).getLsbD i = false := by revert i; decide
  simp only [LaunchQ.fail, BitVec.getLsbD_and, BitVec.getLsbD_or, BitVec.getLsbD_not, bit30_mask h32, h31, h32, decide_eq_false (Nat.ne_of_lt h),
    decide_true, Bool.or_false, Bool.not_false, Bool.and_true]

/-- A configuration bit below ERR after the write, whether the queue fails or not. -/
theorem writeLqCfg_bit (s : State) (k : Nat) (v : Word) {i : Nat} (h : i < 30) :
    ((writeLqCfg s k v (BitVec.allOnes 64)).lq k).cfg.getLsbD i = (cfgWritten (s.lq k).cfg v).getLsbD i := by
  obtain e | ⟨e, -⟩ := writeLqCfg_lq s k v
  · rw [e]
  · rw [e, LaunchQ.fail_cfg_bit _ h]

/-! ### Function registers, translation state and tiles -/

theorem fnOnly_setFn (s : State) (fn : Nat) (x : Fn) : FnOnly fn s (s.setFn fn x) where
  fns _ hg := State.setFn_fn_of_ne s hg x
  lqs := rfl
  mem := rfl
  spad := rfl
  cur := rfl
  others := rfl
  tiles := rfl
  dev := rfl

/-- A change of translation state is marked in the function's registers and nowhere else but in the walks' faults. -/
theorem fnOnly_markTr {fn : Nat} {s t : State} (h : FnOnly fn s t) : FnOnly fn s (markTr t fn) where
  fns g hg := (State.setFn_fn_of_ne t hg _).trans (h.fns g hg)
  lqs := h.lqs
  mem := h.mem
  spad := h.spad
  cur := h.cur
  others := h.others
  tiles := h.tiles
  dev := h.dev

theorem fnOnly_tick {fn : Nat} {s t : State} (h : FnOnly fn s t) : FnOnly fn s t.tick :=
  ⟨h.fns, h.lqs, h.mem, h.spad, h.cur, h.others, h.tiles, h.dev⟩

@[simp] theorem markTr_fn_same (s : State) (fn : Nat) : (markTr s fn).fn fn = { s.fn fn with tmark := s.uid } :=
  State.setFn_fn_same s fn _

theorem devOnly_tick (s : State) (d : Dev) : DevOnly s { s with dev := d }.tick := ⟨rfl, rfl, rfl, rfl, rfl, rfl, rfl⟩

/-! ### INJ (19 R455, R461) -/

/-- A woken tile runs and keeps its injector; the other tiles and the registers stay. -/
theorem wakeTile_svc (s : State) (t : Nat) :
    ((wakeTile s t).tile t).svc.pst = .run ∧ ((wakeTile s t).tile t).svc.inj = (s.tile t).svc.inj
      ∧ ((wakeTile s t).tile t).svc.injSeen = (s.tile t).svc.injSeen := by
  unfold wakeTile
  split
  · rename_i h
    exact ⟨h, rfl, rfl⟩
  · simp only [State.updSvc_svc_same, and_self]

theorem wakeTile_tile_of_ne (s : State) {j t : Nat} (h : j ≠ t) : (wakeTile s t).tile j = s.tile j := by
  unfold wakeTile
  split
  · rfl
  · exact State.updSvc_tile_of_ne s h _

theorem wakeTile_outside (s : State) (t : Nat) :
    (wakeTile s t).fns = s.fns ∧ (wakeTile s t).dev = s.dev ∧ (wakeTile s t).mem = s.mem := by
  unfold wakeTile
  split <;> exact ⟨rfl, rfl, rfl⟩

/-- Whether the value written to INJ sets EN with N 0. -/
def injIgnored (v : Word) : Bool := v.getLsbD 31 && v.toNat % 2 ^ 24 = 0

theorem injIgnored_iff (v : Word) : injIgnored v = true ↔ v.getLsbD 31 = true ∧ v.toNat % 2 ^ 24 = 0 := by
  rw [injIgnored, Bool.and_eq_true, decide_eq_true_eq]

/-- N as written: the 24 low bits of the value. -/
theorem injWritten_count (old : BitVec 32) (v : Word) :
    rw32 old v (BitVec.allOnes 64) 0x80FFFFFF &&& 0xFFFFFF = 0 ↔ v.toNat % 2 ^ 24 = 0 := by
  have low : rw32 old v (BitVec.allOnes 64) 0x80FFFFFF &&& 0xFFFFFF = v.setWidth 32 &&& 0xFFFFFF := by
    apply BitVec.eq_of_getLsbD_eq
    intro i hi
    have hf : (0xFFFFFF : BitVec 32).getLsbD i = true → (0x80FFFFFF : Word).getLsbD i = true := by revert i; decide
    cases hm : (0xFFFFFF : BitVec 32).getLsbD i
    · simp only [BitVec.getLsbD_and, hm, Bool.and_false]
    · simp only [BitVec.getLsbD_and, getLsbD_rw32_whole _ _ _ hi, hf hm, if_true, BitVec.getLsbD_setWidth, hi, decide_true, Bool.true_and]
  have hmod : (v.setWidth 32 &&& 0xFFFFFF).toNat = v.toNat % 2 ^ 24 := by
    rw [BitVec.toNat_and, BitVec.toNat_setWidth, show (0xFFFFFF : BitVec 32).toNat = 2 ^ 24 - 1 from rfl,
      Nat.and_two_pow_sub_one_eq_mod]
    omega
  rw [low, ← hmod]
  exact BitVec.toNat_inj.symm

theorem writeInj_whole (s : State) (t : Nat) (v : Word) :
    writeInj s t v (BitVec.allOnes 64) =
      if injIgnored v then wakeTile s t
      else (wakeTile s t).updSvc t fun y =>
        { y with inj := rw32 (s.tile t).svc.inj v (BitVec.allOnes 64) 0x80FFFFFF, injSeen := 0 } := by
  have h31 : (rw32 (s.tile t).svc.inj v (BitVec.allOnes 64) 0x80FFFFFF).getLsbD 31 = v.getLsbD 31 := by
    rw [getLsbD_rw32_whole _ _ _ (by decide)]
    exact if_pos (by decide)
  simp only [writeInj, h31, injWritten_count, upperOnly_allOnes, Bool.or_false, injIgnored]
  rfl

theorem writeInj_tile_of_ne (s : State) {j t : Nat} (h : j ≠ t) (v : Word) :
    (writeInj s t v (BitVec.allOnes 64)).tile j = s.tile j := by
  rw [writeInj_whole]
  split
  · exact wakeTile_tile_of_ne s h
  · rw [State.updSvc_tile_of_ne _ h, wakeTile_tile_of_ne s h]

theorem writeInj_outside (s : State) (t : Nat) (v : Word) :
    let u := writeInj s t v (BitVec.allOnes 64)
    u.fns = s.fns ∧ u.dev = s.dev ∧ u.mem = s.mem := by
  dsimp only
  rw [writeInj_whole]
  split
  · exact wakeTile_outside s t
  · exact wakeTile_outside s t

/-- The tile runs; a write that is ignored leaves the injector, any other sets it and starts its count anew. -/
theorem writeInj_svc (s : State) (t : Nat) (v : Word) :
    let x := ((writeInj s t v (BitVec.allOnes 64)).tile t).svc
    x.pst = .run
      ∧ (injIgnored v = true → x.inj = (s.tile t).svc.inj ∧ x.injSeen = (s.tile t).svc.injSeen)
      ∧ (injIgnored v = false → TakesBits (s.tile t).svc.inj x.inj v (BitVec.allOnes 64) 0x80FFFFFF ∧ x.injSeen = 0) := by
  obtain ⟨hrun, hinj, hseen⟩ := wakeTile_svc s t
  dsimp only
  rw [writeInj_whole]
  cases hi : injIgnored v
  · rw [if_neg (by decide), State.updSvc_svc_same]
    exact ⟨hrun, fun h => absurd h (by decide), fun _ => ⟨takesBits_rw32 _ _ _ _, rfl⟩⟩
  · rw [if_pos rfl]
    exact ⟨hrun, fun _ => ⟨hinj, hseen⟩, fun h => absurd h (by decide)⟩

/-! ### TINV (18 R437) -/

theorem writeTinv_fnOnly (s : State) (fn : Nat) (v : Word) : FnOnly fn s (writeTinv s fn v) :=
  fnOnly_markTr ⟨fun _ _ => rfl, rfl, rfl, rfl, rfl, rfl, rfl, rfl⟩

theorem writeTinv_tlb (s : State) (fn : Nat) (v : Word) :
    (writeTinv s fn v).tlb = s.tlb.filter fun e =>
      !(e.vf = fn && (v.getLsbD 0 || e.page = bitsOf 12 44 v.toNat / 2 ^ (9 * e.level))) := rfl

/-! ### An access to BAR0 or BAR2 (20 R475) -/

/-- The offset of the 8-byte register that an access reaches, the value and the bits it writes there. -/
def accessBase (r : RegAccess) : Nat := r.off / 8 * 8
def accessVal (r : RegAccess) : Word := if r.off % 8 = 4 then r.val <<< 32 else r.val
def accessMask (r : RegAccess) : Word :=
  if r.size = 8 then BitVec.allOnes 64 else if r.off % 8 = 4 then 0xFFFFFFFF00000000 else 0xFFFFFFFF
/-- An access of 4 or 8 bytes, naturally aligned, to a function that there is. -/
structure AccessOk (r : RegAccess) : Prop where
  size : r.size = 4 ∨ r.size = 8
  aligned : r.off % r.size = 0
  fn : r.fn ≤ 64

/-- A well-formed access goes to the doorbell, to BAR0 or to BAR2. -/
theorem execRegisterWrite_ok {r : RegAccess} (h : AccessOk r) (s : State) :
    execRegisterWrite r s =
      if !r.bar2 && accessBase r = 0x108 then execMbdoorWrite r.fn (accessVal r &&& accessMask r) s
      else if !(fnAnswers s r.fn || (!r.bar2 && (accessBase r = 0x100 || accessBase r = 0x110)) && !(s.fn r.fn).flr) then evNext s
      else if !r.bar2 then evNext (writeBar0 s r.fn (accessBase r) (accessVal r) (accessMask r))
      else if r.fn = 0 then evNext (writeBar2 s (accessBase r) (accessVal r) (accessMask r)) else evNext s := by
  have hs : (r.size = 4 || r.size = 8) = true := by simpa using h.size
  have hf : ¬ 64 < r.fn := Nat.not_lt.mpr h.fn
  unfold execRegisterWrite accessBase accessVal accessMask
  simp only [hs, h.aligned, hf, bne_self_eq_false, decide_false, Bool.not_true, Bool.or_false, Bool.false_eq_true, if_false, decide_eq_true_eq]

theorem registerWrite_doorbell {r : RegAccess} (h : AccessOk r) (hb : r.bar2 = false) (ho : accessBase r = 0x108) (s : State) :
    exec (.registerWrite r) s = exec (.mbdoorWrite r.fn (accessVal r &&& accessMask r)) s := by
  refine (execRegisterWrite_ok h s).trans ?_
  rw [if_pos (by simp [hb, ho])]
  rfl

theorem registerWrite_bar0 {r : RegAccess} {s : State} (h : AccessOk r) (hb : r.bar2 = false) (ho : accessBase r ≠ 0x108)
    (ha : fnAnswers s r.fn = true ∨ (accessBase r = 0x100 ∨ accessBase r = 0x110) ∧ (s.fn r.fn).flr = false) :
    Happens (.registerWrite r) s (writeBar0 s r.fn (accessBase r) (accessVal r) (accessMask r)) := by
  refine (execRegisterWrite_ok h s).trans ?_
  have answers : (fnAnswers s r.fn || (!r.bar2 && (accessBase r = 0x100 || accessBase r = 0x110)) && !(s.fn r.fn).flr) = true := by
    obtain ha | ⟨hm, hf⟩ := ha
    · simp [ha]
    · simp [hb, hm, hf]
  rw [if_neg (by simp [ho]), if_neg (by simp [answers]), if_pos (by simp [hb])]
  rfl

theorem registerWrite_bar2 {r : RegAccess} {s : State} (h : AccessOk r) (hb : r.bar2 = true) (hf : r.fn = 0)
    (ha : fnAnswers s 0 = true) :
    Happens (.registerWrite r) s (writeBar2 s (accessBase r) (accessVal r) (accessMask r)) := by
  refine (execRegisterWrite_ok h s).trans ?_
  rw [if_neg (by simp [hb]), if_neg (by simp [hf, ha]), if_neg (by simp [hb]), if_pos hf]
  rfl

/-- The doorbell always leaves a next state. -/
theorem mbdoorWrite_next (fn : Nat) (v : Word) (s : State) : ∃ t, exec (.mbdoorWrite fn v) s = .next t := by
  change ∃ t, execMbdoorWrite fn v s = .next t
  unfold execMbdoorWrite
  dsimp only
  split
  · exact ⟨_, rfl⟩
  · split
    · exact ⟨_, rfl⟩
    · split
      · exact ⟨_, rfl⟩
      · split <;> exact ⟨_, rfl⟩

end Sys2Proof.Machine
end

section
/-!
PROOFS. The writes of registers happen on a function that answers, and each changes the bits it may (16 R392; 18 R437; 19 R455; 20 R475
to R478, R484).
-/
namespace Sys2Proof.Machine

open Sys2Proof.Claims

/-! ### The writes happen -/

section Happen
variable {fn : Nat} {s : State}

theorem lqtailWrite_happens (ha : fnAnswers s fn = true) {q : Nat} (hq : q < 16) (v : Word) :
    Happens (.lqtailWrite fn q v) s (writeLqTail s (16 * fn + q) v (BitVec.allOnes 64)) := if_pos (by simp [ha, hq])

theorem lqcfgWrite_happens (ha : fnAnswers s fn = true) {q : Nat} (hq : q < 16) (v : Word) :
    Happens (.lqcfgWrite fn q v) s (writeLqCfg s (16 * fn + q) v (BitVec.allOnes 64)) := if_pos (by simp [ha, hq])

theorem tinvWrite_happens (ha : fnAnswers s fn = true) (v : Word) : Happens (.tinvWrite fn v) s (writeTinv s fn v) := if_pos ha

/-- What TSYNC reads: 0 once no access from before the last change is left. -/
theorem tsyncRead_happens (ha : fnAnswers s fn = true) :
    Happens (.tsyncRead fn) s { s.setFn fn { s.fn fn with
      tsync := if oldAccess s fn then nonzero (Config.freeWord s.fresh) else 0 } with fresh := s.fresh + 1 } := if_pos ha

theorem partWrite_happens (ha : fnAnswers s 0 = true) (hf : fn ≤ 64) {w : Nat} (hw : w < 2) (v : Word) :
    Happens (.partWrite fn w v) s (writeFnPart s fn w v (BitVec.allOnes 64)) := if_pos (by simp [ha, hf, hw])

theorem pwinWrite_happens (ha : fnAnswers s 0 = true) (hf : fn ≤ 64) (v : Word) :
    Happens (.pwinWrite fn v) s (writePwin s fn v (BitVec.allOnes 64)) := if_pos (by simp [ha, hf])

theorem injWrite_happens (ha : fnAnswers s 0 = true) {t : Nat} (ht : tileIdOk t = true) (v : Word) :
    Happens (.injWrite t v) s (writeInj s t v (BitVec.allOnes 64)) := if_pos (by simp [ha, ht])

theorem devidWrite_happens (ha : fnAnswers s 0 = true) (v : Word) :
    Happens (.devidWrite v) s (writeDevid s v (BitVec.allOnes 64)) := if_pos ha

theorem rlogheadWrite_happens (ha : fnAnswers s 0 = true) (v : Word) :
    Happens (.rlogheadWrite v) s (writeRlogHead s v (BitVec.allOnes 64)) := if_pos ha

theorem functionLevelReset_happens (h0 : 0 < fn) (hf : fn ≤ 64) : Happens (.functionLevelReset fn) s (resetFn s fn) := by
  change execFunctionLevelReset fn s = _
  rw [execFunctionLevelReset, if_neg (by omega), if_neg (by omega)]
  rfl

end Happen

theorem registerWritesAct : RegisterWritesAct := by
  refine ⟨fun fn q v s ha hq => ⟨lqtailWrite_happens ha hq v, lqcfgWrite_happens ha hq v⟩,
    fun fn v s ha => ⟨tinvWrite_happens ha v, fun ho => ?_, fun ho => ?_⟩,
    fun fn w v s ha hf hw => partWrite_happens ha hf hw v,
    fun fn v s ha hf => pwinWrite_happens ha hf v,
    fun t v s ha ht => injWrite_happens ha ht v,
    fun v s ha => ⟨devidWrite_happens ha v, rlogheadWrite_happens ha v⟩,
    fun r s hs hr hf => ?_, fun b s => rfl, fun fn s h0 hf => functionLevelReset_happens h0 hf, fun s => rfl⟩
  · simpa only [ho, Bool.false_eq_true, if_false] using tsyncRead_happens ha
  · simpa only [ho, if_true] using tsyncRead_happens ha
  · have hr : AccessOk r := ⟨hs, hr, hf⟩
    exact ⟨fun hb ho => registerWrite_doorbell hr hb ho s, fun hb ho ha => registerWrite_bar0 hr hb ho ha,
      fun hb h0 ha => registerWrite_bar2 hr hb h0 ha⟩

/-! ### Registers of BAR0 -/

section Bar0
variable (s : State) (fn : Nat) (v m : Word)

/-- FSTAT's neighbour RECFAIL is cleared by its bit 63. -/
theorem writeBar0_recfail :
    FnOnly fn s (writeBar0 s fn 0x8 v m).tick ∧ (writeBar0 s fn 0x8 v m).tick.fn fn
      = if (v &&& m).getLsbD 63 then { s.fn fn with recfail := 0 } else s.fn fn := by
  have e : writeBar0 s fn 0x8 v m = if (v &&& m).getLsbD 63 then s.setFn fn { s.fn fn with recfail := 0 } else s := rfl
  rw [e]
  split
  · exact ⟨fnOnly_tick (fnOnly_setFn s fn _), State.setFn_fn_same s fn _⟩
  · exact ⟨⟨fun _ _ => rfl, rfl, rfl, rfl, rfl, rfl, rfl, rfl⟩, rfl⟩

theorem writeBar0_mailAddr :
    FnOnly fn s (writeBar0 s fn 0x100 v m).tick ∧ ∃ a, TakesBits (s.fn fn).mail.addr a v m (BitVec.allOnes 64)
      ∧ (writeBar0 s fn 0x100 v m).tick.fn fn = { s.fn fn with mail := { (s.fn fn).mail with addr := a } } :=
  ⟨fnOnly_tick (fnOnly_setFn s fn _), _, takesBits_rw _ _ _ _, State.setFn_fn_same s fn _⟩

theorem writeBar0_mailDrop :
    FnOnly fn s (writeBar0 s fn 0x110 v m).tick ∧ (writeBar0 s fn 0x110 v m).tick.fn fn
      = { s.fn fn with mail := { (s.fn fn).mail with drop := (s.fn fn).mail.drop && !(v &&& m).getLsbD 1 } } :=
  ⟨fnOnly_tick (fnOnly_setFn s fn _), State.setFn_fn_same s fn _⟩

/-- A new page-table root marks a change of translation state. -/
theorem writeBar0_ptroot :
    FnOnly fn s (writeBar0 s fn 0x6000 v m).tick ∧ ∃ a, TakesBits (s.fn fn).ptroot a v m (BitVec.allOnes 64)
      ∧ (writeBar0 s fn 0x6000 v m).tick.fn fn = { s.fn fn with ptroot := a, tmark := s.uid } := by
  refine ⟨fnOnly_tick (fnOnly_markTr (fnOnly_setFn s fn _)), _, takesBits_rw _ _ _ _, ?_⟩
  refine (markTr_fn_same (s.setFn fn _) fn).trans ?_
  rw [State.setFn_fn_same, State.setFn_uid]

theorem writeBar0_ltol :
    FnOnly fn s (writeBar0 s fn 0x6100 v m).tick ∧ ∃ a, TakesBits (s.fn fn).ltol a v m (BitVec.allOnes 64)
      ∧ (writeBar0 s fn 0x6100 v m).tick.fn fn = { s.fn fn with ltol := a } := by
  refine ⟨fnOnly_tick (fnOnly_setFn s fn _), _, ?_, State.setFn_fn_same s fn _⟩
  intro i
  rw [takesBits_rw32]
  by_cases hi : i < 32
  · have hf : (0xFFFFFFFF : Word).getLsbD i = true := by revert i; decide
    have h64 : i < 64 := by omega
    simp only [hf, BitVec.getLsbD_allOnes, h64, decide_true]
  · simp [BitVec.getLsbD_of_ge _ i (Nat.le_of_not_lt hi), hi]

/-- FSTAT, TSYNC and the mailbox's neighbours up to the launch queues take no write. -/
theorem writeBar0_readOnly {o : Nat} (h : o = 0x0 ∨ o = 0x6010 ∨ 0x200 ≤ o ∧ o < 0x1000) : writeBar0 s fn o v m = s := by
  obtain rfl | rfl | ⟨hl, hu⟩ := h
  · rfl
  · rfl
  · have h8 : o ≠ 0x8 := by omega
    have h100 : o ≠ 0x100 := by omega
    have h110 : o ≠ 0x110 := by omega
    unfold writeBar0
    simp only [Bool.and_eq_true, decide_eq_true_eq]
    rw [if_neg h8, if_neg h100, if_neg h110, if_neg (by omega), if_neg (by omega), if_neg (by omega), if_neg (by omega),
      if_neg (by omega), if_neg (by omega)]

end Bar0

/-! ### Registers of BAR2 -/

theorem upperOnly_accessMask_high {r : RegAccess} (hs : r.size = 4) (ho : r.off % 8 = 4) : upperOnly (accessMask r) = true := by
  rw [accessMask, if_neg (by omega), if_pos ho]
  decide

/-- The mask of an access at the register's own offset: all 8 bytes or the lower 4. -/
theorem accessMask_low {r : RegAccess} (ho : r.off % 8 = 0) :
    accessMask r = BitVec.allOnes 64 ∨ accessMask r = 0xFFFFFFFF := by
  rw [accessMask, if_neg (show ¬ r.off % 8 = 4 by omega)]
  split
  · exact .inl rfl
  · exact .inr rfl

/-- A field in the lower 4 bytes takes the value written, whichever of the two masks the write has. -/
theorem bitsOf_and_low (v : Word) {m : Word} (hm : m = BitVec.allOnes 64 ∨ m = 0xFFFFFFFF) {lo n : Nat} (h : lo + n ≤ 32) :
    bitsOf lo n (v &&& m).toNat = bitsOf lo n v.toNat := by
  obtain rfl | rfl := hm
  · rw [BitVec.and_allOnes]
  · rw [BitVec.toNat_and, show (0xFFFFFFFF : Word).toNat = 2 ^ 32 - 1 from rfl, Nat.and_two_pow_sub_one_eq_mod, bitsOf, bitsOf,
      Nat.shiftRight_eq_div_pow, Nat.shiftRight_eq_div_pow, ← Nat.add_sub_cancel' (Nat.le_of_add_right_le h), Nat.pow_add,
      Nat.mod_mul_right_div_self, Nat.mod_mod_of_dvd _ (Nat.pow_dvd_pow 2 (by omega))]

section Bar2
variable (s : State) (v m : Word)

theorem writeDevid_devOnly : DevOnly s (writeDevid s v m).tick := by
  unfold writeDevid
  split
  · exact ⟨rfl, rfl, rfl, rfl, rfl, rfl, rfl⟩
  · exact devOnly_tick s _

theorem writeDevid_ignored (h : s.dev.devidSet = true ∨ upperOnly m = true) : (writeDevid s v m).dev = s.dev := by
  rw [writeDevid, if_pos (by simpa using h)]

theorem writeDevid_once (h : s.dev.devidSet = false) (hm : m = BitVec.allOnes 64 ∨ m = 0xFFFFFFFF) :
    (writeDevid s v m).dev = { s.dev with devid := v.toNat % 2 ^ 9, dtag := bitsOf 16 16 v.toNat, devidSet := true } := by
  have hu : upperOnly m = false := by obtain rfl | rfl := hm <;> decide
  rw [writeDevid, if_neg (by simp [h, hu]), bitsOf_and_low v hm (by decide), bitsOf_and_low v hm (by decide)]
  rfl

/-- DSPWAIT's eight counters stand one after the other. -/
theorem writeBar2_dspwait {n : Nat} (h : n < 8) :
    writeBar2 s (0x1D000 + 8 * n) v m = { s with dev := { s.dev with
      dspwait := s.dev.dspwait.setIfInBounds n (rw (BitVec.ofNat 64 (s.dev.dspwait.toList.getD n 0)) v m 0xFFFFFFFF).toNat } } := by
  have hn : (0x1D000 + 8 * n - 0x1D000) / 8 = n := by omega
  unfold writeBar2
  simp only [Bool.and_eq_true, decide_eq_true_eq]
  rw [if_neg (by omega), if_neg (by omega), if_neg (by omega), if_neg (by omega), if_neg (by omega), if_neg (by omega),
    if_neg (by omega), if_pos (by omega), hn]

end Bar2

/-! ### What each write changes -/

theorem registerWritesChange : RegisterWritesChange := by
  refine ⟨fun fn q v s ha hq => ⟨?_, ?_⟩, fun r s hs hr hf => ⟨fun hb ha => ?_, fun hb h0 ha => ?_⟩, fun fn v s ha => ?_,
    fun i v s ha hi => ?_⟩
  · obtain ⟨hlqs, hmem, hcur, hothers, htiles⟩ := writeLqTail_queueOnly s (16 * fn + q) v
    obtain ⟨htail, hknown, hbase, hhead⟩ := writeLqTail_fields s (16 * fn + q) v
    refine ⟨_, lqtailWrite_happens ha hq v, htail, hknown, hbase, hhead, ⟨fun ho => ?_, writeLqTail_overrun s _ v⟩,
      hlqs, hmem, hcur, hothers, htiles⟩
    rw [writeLqTail_inTime s _ v ho]
    refine ⟨?_, rfl, rfl⟩
    rw [State.tick_lq, State.setLq_lq_same]
    rfl
  · obtain ⟨hlqs, hmem, hcur, hothers, htiles⟩ := writeLqCfg_queueOnly s (16 * fn + q) v
    have bit {i : Nat} (h : i < 30) := writeLqCfg_bit s (16 * fn + q) v h
    obtain ⟨hbase, hhead, htail⟩ := writeLqCfg_fields s (16 * fn + q) v
    refine ⟨_, lqcfgWrite_happens ha hq v, hbase, hhead, htail, fun i h29 _ h4 h8 => ?_, fun i h => ?_, fun h31 => ?_,
      hlqs, hmem, hcur, hothers, htiles⟩
    · rw [State.tick_lq, bit (by omega), cfgWritten_bit _ _ (by omega) (by omega), if_neg (by omega)]
    · rw [State.tick_lq, bit (by omega), cfgWritten_bit _ _ (by omega) (by omega), if_pos (by omega)]
    · obtain e | ⟨-, h⟩ := writeLqCfg_lq s (16 * fn + q) v
      · rw [State.tick_lq, e]
        exact ⟨(cfgWritten_bit _ v (by decide) (by decide)).trans h31, cfgWritten_err _ v⟩
      · exact absurd (h31.symm.trans h) (by decide)
  · have hr : AccessOk r := ⟨hs, hr, hf⟩
    by_cases ho : accessBase r = 0x108
    · obtain ⟨t, ht⟩ := mbdoorWrite_next r.fn (accessVal r &&& accessMask r) s
      have other {n : Nat} {p : Prop} (hn : 0x108 ≠ n) (e : accessBase r = n) : p := absurd (ho.symm.trans e) hn
      refine ⟨t, (registerWrite_doorbell hr hb ho s).trans ht, other (by decide), other (by decide), other (by decide),
        other (by decide), other (by decide), fun e => ?_⟩
      change accessBase r = 0x0 ∨ accessBase r = 0x6010 ∨ 0x200 ≤ accessBase r ∧ accessBase r < 0x1000 at e
      omega
    · refine ⟨_, registerWrite_bar0 hr hb ho (.inl ha), fun e => ?_, fun e => ?_, fun e => ?_, fun e => ?_, fun e => ?_,
        fun e => congrArg State.tick (writeBar0_readOnly s r.fn _ _ e)⟩
      all_goals change accessBase r = _ at e
      · rw [e]; exact writeBar0_recfail s r.fn _ _
      · rw [e]; exact writeBar0_mailAddr s r.fn _ _
      · rw [e]; exact writeBar0_mailDrop s r.fn _ _
      · rw [e]; exact writeBar0_ptroot s r.fn _ _
      · rw [e]; exact writeBar0_ltol s r.fn _ _
  · have hr : AccessOk r := ⟨hs, hr, hf⟩
    refine ⟨_, registerWrite_bar2 hr hb h0 ha, fun e => ?_, fun e => ?_, fun e _ => ?_, fun e _ => ?_, fun n hn e => ?_, fun e => ?_⟩
    all_goals change accessBase r = _ at e
    · rw [e]; exact ⟨devOnly_tick s _, _, takesBits_rw _ _ _ _, rfl⟩
    · rw [e]; exact ⟨devOnly_tick s _, _, takesBits_rw _ _ _ _, rfl⟩
    · rw [e]; exact ⟨devOnly_tick s _, _, takesBits_rw _ _ _ _, rfl⟩
    · rw [e]; exact ⟨devOnly_tick s _, _, takesBits_rw _ _ _ _, rfl⟩
    · rw [e, writeBar2_dspwait s _ _ hn]; exact ⟨devOnly_tick s _, _, takesBits_rw _ _ _ _, rfl⟩
    · rw [e]
      refine ⟨writeDevid_devOnly s _ _, fun h => ?_, fun h hl => ?_⟩
      · exact writeDevid_ignored s _ _ (h.imp_right fun ⟨h4, hh⟩ => upperOnly_accessMask_high h4 hh)
      · exact writeDevid_once s _ _ h (accessMask_low hl)
  · exact ⟨_, tinvWrite_happens ha v, fnOnly_tick (writeTinv_fnOnly s fn v), markTr_fn_same _ fn, rfl, writeTinv_tlb s fn v⟩
  · obtain ⟨hfns, hdev, hmem⟩ := writeInj_outside s i v
    obtain ⟨hrun, hkeep, htake⟩ := writeInj_svc s i v
    refine ⟨_, injWrite_happens ha hi v, hrun, fun j hj => writeInj_tile_of_ne s hj v, hfns, hdev, hmem,
      fun h31 h24 => hkeep ((injIgnored_iff v).mpr ⟨h31, h24⟩), fun h => htake (Bool.eq_false_iff.mpr fun hv => ?_)⟩
    obtain ⟨h31, h24⟩ := (injIgnored_iff v).mp hv
    exact h.elim (fun h => absurd (h31.symm.trans h) (by decide)) fun h => h h24

end Sys2Proof.Machine
end

section
/-!
PROOFS. What the device reset and the function-level reset leave (20 R481, R483), and the obligation.
-/
namespace Sys2Proof.Machine

open Sys2Proof.Claims

/-! ### DEVICE_RESET (20 R483) -/

/-- Of memory a device reset keeps what is not the device's: host memory and the remote windows. -/
theorem memByte_hostPart (m : List Host.Cell) (a : Nat) :
    memByte (m.filter fun c => 2 ^ 48 ≤ c.1) a = if 2 ^ 48 ≤ a then memByte m a else memDefault := by
  split
  · rename_i h
    exact memByte_filter m _ a fun _ => decide_eq_true h
  · rename_i h
    exact memByte_none _ a (any_filter_none m _ a fun _ => decide_eq_false h)

/-- No context beyond the one at reset, no work and no access, no scratchpad byte and no key. -/
structure NoWork (t : State) : Prop where
  cur : t.cur = State.reset.cur
  others : t.others = []
  groups : t.groups = []
  launches : t.launches = []
  tickets : t.tickets = []
  doms : t.doms = []
  objs : t.objs = []
  spad : t.spad = []
  tlb : t.tlb = []
  gops : t.gops = []
  sops : t.sops = []
  lqs : t.lqs = []
  keys : t.keys = []

/-- Whether the boot succeeds or fails, it begins from the machine at reset. -/
theorem bootState_noWork (s : State) (b : BootReport) : NoWork (bootState s b) := by
  obtain ⟨_ | k, done⟩ := b <;> exact ⟨rfl, rfl, rfl, rfl, rfl, rfl, rfl, rfl, rfl, rfl, rfl, rfl, rfl⟩

theorem bootState_mem (s : State) (b : BootReport) : (bootState s b).mem = s.mem.filter fun c => 2 ^ 48 ≤ c.1 := by
  obtain ⟨_ | k, done⟩ := b <;> rfl

/-- The boot's cause is reported, and NVM keeps signers, serial number, counter and the firmware's identity. -/
theorem bootState_dev (s : State) (b : BootReport) :
    let d := (bootState s b).dev
    d.boot = b.fail.map BootFail.cause ∧ d.signers = s.dev.signers ∧ d.serial = s.dev.serial ∧ d.counter = s.dev.counter
      ∧ d.fwDigest = s.dev.fwDigest ∧ d.fwSvn = s.dev.fwSvn ∧ d.devidSet = false := by
  obtain ⟨_ | k, done⟩ := b <;> exact ⟨rfl, rfl, rfl, rfl, rfl, rfl, rfl⟩

/-- A function that is ready where the boot succeeded, with no ranges, no command and no reset of its own under way. -/
structure FnBooted (ok : Bool) (x : Fn) : Prop where
  ready : x.ready = ok
  ranges : x.ranges = []
  cmd : x.mail.cmd = none
  flr : x.flr = false

theorem bootState_fn (s : State) (b : BootReport) {fn : Nat} (h : fn ≤ 64) : FnBooted b.fail.isNone ((bootState s b).fn fn) := by
  obtain ⟨_ | k, done⟩ := b
  case none =>
    have e : (bootState s ⟨none, done⟩).fn fn
        = if 0 = fn then { Fn.reset 0 with part := enabledOf (bootTile s) } else Fn.reset fn := by
      by_cases h0 : 0 = fn <;> simp [State.fn, bootState, look, h0]
    rw [e]
    split <;> exact ⟨rfl, rfl, rfl, rfl⟩
  case some =>
    have e : (bootState s ⟨some k, done⟩).fn fn = { Fn.reset fn with ready := false, mail := ⟨0, none, false, k.cause⟩ } :=
      congrArg (fun x => x.getD (Fn.reset fn)) (look_map_key _ (List.mem_range.mpr (Nat.lt_succ_of_le h)))
    rw [e]
    exact ⟨rfl, rfl, rfl, rfl⟩

/-! ### FUNCTION_LEVEL_RESET (20 R481): what the steps before BAR0's leave -/

/-- The registers, queues, memory and identities stay. -/
structure RegistersKept (s t : State) : Prop where
  fns : t.fns = s.fns
  lqs : t.lqs = s.lqs
  mem : t.mem = s.mem
  uid : t.uid = s.uid

theorem RegistersKept.trans {s t u : State} (h : RegistersKept s t) (h' : RegistersKept t u) : RegistersKept s u :=
  ⟨h'.fns.trans h.fns, h'.lqs.trans h.lqs, h'.mem.trans h.mem, h'.uid.trans h.uid⟩

/-- What each act of a list keeps, all of them keep. -/
theorem registersKept_foldl {α : Type} {f : State → α → State} (h : ∀ s a, RegistersKept s (f s a)) (l : List α) (s : State) :
    RegistersKept s (l.foldl f s) := by
  induction l generalizing s with
  | nil => exact ⟨rfl, rfl, rfl, rfl⟩
  | cons a l ih => exact (h s a).trans (ih (f s a))

theorem dropReservation_registersKept (s : State) (k : Ticket) : RegistersKept s (dropReservation s k) := ⟨rfl, rfl, rfl, rfl⟩

/-- A context of the function gives up its array operations, its lease and its waits. -/
theorem endContext_registersKept (s : State) (c : Nat) : RegistersKept s (withdraw (endLease (endArray s c) c) c) := ⟨rfl, rfl, rfl, rfl⟩

theorem dropWork_registersKept (s : State) (f : Nat) : RegistersKept s (dropWork s f) :=
  .trans (registersKept_foldl dropReservation_registersKept _ s)
    (.trans (registersKept_foldl endContext_registersKept _ _) ⟨rfl, rfl, rfl, rfl⟩)

/-- The state in which step 5 finds the machine. -/
def beforeBar0 (s : State) (f : Nat) : State := scrubFn (drainFn (dropWork s f) f (fnCtxs s f)) f

theorem resetFn_eq (s : State) (f : Nat) : resetFn s f = sweepObjs (resetBar0 (beforeBar0 s f) f) := rfl

theorem beforeBar0_registersKept (s : State) (f : Nat) : RegistersKept s (beforeBar0 s f) :=
  (dropWork_registersKept s f).trans ⟨rfl, rfl, rfl, rfl⟩

theorem RegistersKept.fn {s t : State} (h : RegistersKept s t) (g : Nat) : t.fn g = s.fn g := by
  rw [State.fn, h.fns]; rfl

/-! ### What a function-level reset leaves of the registers -/

theorem resetFn_fn_same (s : State) (f : Nat) :
    (resetFn s f).fn f = { Fn.reset f with pwin := (s.fn f).pwin, part := (s.fn f).part, tmark := s.uid } := by
  have kept := beforeBar0_registersKept s f
  rw [← kept.fn f, ← kept.uid]
  exact State.setFn_fn_same (beforeBar0 s f) f _

theorem resetFn_fn_of_ne (s : State) {g f : Nat} (h : g ≠ f) : (resetFn s f).fn g = s.fn g :=
  (State.setFn_fn_of_ne (beforeBar0 s f) h _).trans ((beforeBar0_registersKept s f).fn g)

/-- The function's launch queues are at reset, the others as they were. -/
theorem resetFn_lq (s : State) (f k : Nat) : (resetFn s f).lq k = if k / 16 = f then LaunchQ.reset else s.lq k := by
  have e : (resetFn s f).lqs = s.lqs.filter fun q => q.1 / 16 != f :=
    congrArg (List.filter _) (beforeBar0_registersKept s f).lqs
  rw [State.lq, e, look_filter_key (fun n => n / 16 != f)]
  by_cases h : k / 16 = f
  · simp [h]
  · simp [h, State.lq]

theorem resetFn_mem (s : State) (f : Nat) : (resetFn s f).mem = s.mem := (beforeBar0_registersKept s f).mem

/-! ### What is gone after a function-level reset -/

/-- No launch, domain, access or cached translation of the function is left. -/
structure WorkGone (f : Nat) (t : State) : Prop where
  launches : ∀ l ∈ t.launches, l.fn ≠ f
  doms : ∀ d ∈ t.doms, d.vf ≠ f
  gops : ∀ g ∈ t.gops, g.vf ≠ f
  sops : ∀ o ∈ t.sops ++ t.syncRegs, o.vf ≠ f
  tlb : ∀ e ∈ t.tlb, e.vf ≠ f

/-- What a filter that drops the entries of `f` lets through is not of `f`. -/
theorem owner_ne_of_mem_filter {α : Type} {own : α → Nat} {f : Nat} {l : List α} {a : α}
    (h : a ∈ l.filter fun x => own x != f) : own a ≠ f := by
  simpa using (List.mem_filter.mp h).2

theorem resetFn_workGone (s : State) (f : Nat) : WorkGone f (resetFn s f) where
  launches _ h := owner_ne_of_mem_filter (own := Launch.fn) h
  doms _ h := owner_ne_of_mem_filter (own := Dom.vf) h
  gops _ h := owner_ne_of_mem_filter (own := GOp.vf) h
  sops _ h := (List.mem_append.mp h).elim (owner_ne_of_mem_filter (own := SOp.vf)) (owner_ne_of_mem_filter (own := SOp.vf))
  tlb _ h := owner_ne_of_mem_filter (own := TlbEntry.vf) h

theorem revoke_own (k : KeySlot) : k.revoke.own = k.own := by
  unfold KeySlot.revoke
  split <;> rfl

theorem revoke_notLoaded (k : KeySlot) : k.revoke.kst ≠ 1 := by
  unfold KeySlot.revoke
  split
  · exact fun h => absurd h (show ¬ (2 = 1) by decide)
  · assumption

/-- No key of the function is loaded. -/
theorem resetFn_keys (s : State) (f : Nat) {k : Nat × KeySlot} (h : k ∈ (resetFn s f).keys) (ho : k.2.own = f) : k.2.kst ≠ 1 := by
  obtain ⟨x, -, rfl⟩ := List.mem_map.mp (show k ∈ List.map _ _ from h)
  by_cases hx : x.2.own = f
  · rw [if_pos hx]
    exact revoke_notLoaded x.2
  · rw [if_neg hx] at ho
    exact absurd ho hx

/-! ### The obligation -/

theorem resetsLeave : ResetsLeave := by
  refine ⟨fun b s => ⟨bootState s b, rfl, ?_⟩, fun f s h0 hf => ⟨_, functionLevelReset_happens h0 hf, ?_⟩⟩
  · obtain ⟨hcur, hothers, hgroups, hlaunches, htickets, hdoms, hobjs, hspad, htlb, hgops, hsops, hlqs, hkeys⟩ := bootState_noWork s b
    obtain ⟨hboot, hsigners, hserial, hcounter, hdigest, hsvn, hset⟩ := bootState_dev s b
    refine ⟨hcur, hothers, hgroups, hlaunches, htickets, hdoms, hobjs, hspad, htlb, hgops, hsops, hlqs, hkeys, fun a => ?_, hboot,
      hsigners, hserial, hcounter, hdigest, hsvn, hset, fun fn h => ?_⟩
    · rw [bootState_mem, memByte_hostPart]
    · obtain ⟨hready, hranges, hcmd, hflr⟩ := bootState_fn s b h
      exact ⟨hready, hranges, hcmd, hflr⟩
  · obtain ⟨hlaunches, hdoms, hgops, hsops, htlb⟩ := resetFn_workGone s f
    exact ⟨resetFn_fn_same s f, fun g hg => resetFn_fn_of_ne s hg, fun k hk => (resetFn_lq s f k).trans (if_neg hk),
      fun k hk => (resetFn_lq s f k).trans (if_pos hk), resetFn_mem s f, hlaunches, hdoms, hgops, hsops, htlb,
      fun k hk ho => resetFn_keys s f hk ho⟩

/-- Settles O38: each write happens on a function that answers, changes the bits it may, and the resets leave what they must. The
memory left by a device reset and the one act of a function-level reset are the model's choices (logs 48, 49), as is RBFLOOR stored as
written (log 50). -/
theorem registerWritesHappen : Obligations.RegisterWritesHappen := ⟨registerWritesAct, registerWritesChange, resetsLeave⟩

end Sys2Proof.Machine
end

section
/-!
PROOFS. What happens to a context between its bundles, and its save and restore (02 R40; 11 R312; 13 R335, R338, R343 to R349; 14 R362).
-/
namespace Sys2Proof.Machine

open Sys2Proof.Claims

/-! ### Focus and pending traps -/

@[simp] theorem State.focus_cur (s : State) (c : Nat) : (s.focus c).cur = s.ctx c := by
  unfold State.focus
  split
  case isTrue h => exact (if_pos h).symm
  case isFalse => rfl

/-- Some trap is taken next exactly when one is pending. -/
theorem lowestCause_eq_none {l : List Cause} : lowestCause l = none ↔ l = [] := by
  cases l with
  | nil => simp [lowestCause]
  | cons k r =>
    rw [lowestCause]
    split
    · split <;> simp
    · simp

theorem trapDue_iff (s : State) (x : Ctx) :
    trapDue s x = true ↔ x.pends ≠ [] ∧ x.crs.intrap = false ∧ x.reinj = none ∧ performed s x = false := by
  simp [trapDue, and_assoc]

/-! ### Between bundles -/

section Between
variable {c : Nat} {s : State}

theorem resultVisible_happens (hc : s.hasCtx c = true) (hd : dueNow s (s.ctx c) ≠ []) :
    Happens (.resultVisible c) s (yieldCore (showDue (s.focus c))) := if_pos (by simp [hc, hd])

/-- The pending trap of the lowest cause leaves the list and is taken. -/
theorem trapEntry_happens {k : Cause} (hc : s.hasCtx c = true) (hr : (s.ctx c).status = .running) (ht : trapDue s (s.ctx c) = true)
    (hd : dueNow s (s.ctx c) = []) (hk : lowestCause (s.ctx c).pends = some k) :
    let t := s.focus c
    Happens (.trapEntry c) s (trapBetween { t with cur := { t.cur with pends := t.cur.pends.erase k } } k) := by
  have next : lowestCause (s.focus c).cur.pends = some k := by rw [State.focus_cur, hk]
  change execTrapEntry c s = _
  rw [execTrapEntry, if_pos (by simp [hc, hr, ht, hd])]
  simp only [next]
  rfl

/-- The event looks at the wait itself, so it happens in every state: a context that waits for no token is left as it is (R312). -/
theorem tokenWaitRelease_happens : Happens (.tokenWaitRelease c) s (s.updCtx c fun y => y.readyFrom fun w => match w with
    | .tokens n => (s.ctx c).tok &&& n = 0
    | _ => false) := rfl

theorem sleepDeadline_happens {d : Nat} (hs : (s.ctx c).sleepTill = some d) (hd : d ≤ tileTime s (tileOf c)) :
    Happens (.sleepDeadline c) s (s.updCtx c fun y => { y with sleepTill := none }.readyFrom fun w => w = WaitOn.sleep) := by
  change execSleepDeadline c s = _
  simp only [execSleepDeadline, hs]
  exact if_pos hd

theorem preemptRequest_happens (hd : ∀ d ∈ s.doms, d.ctxs.contains c = false) :
    Happens (.preemptRequest c) s (s.updCtx c fun y => if y.onCore then { y with preempt := true } else y) :=
  if_neg fun h => by
    obtain ⟨d, hm, hc⟩ := List.any_eq_true.mp h
    exact Bool.false_ne_true ((hd d hm).symm.trans hc)

end Between

theorem contextEventsHappen : ContextEventsHappen := by
  refine ⟨fun c s => resultVisible_happens, fun c s k hc hr hi hj hp hd hk => ?_, fun c s m _ _ => tokenWaitRelease_happens,
    fun c s d => sleepDeadline_happens, fun c s _ => preemptRequest_happens, fun t n s => rfl⟩
  have pending : (s.ctx c).pends ≠ [] := fun h => by simp [lowestCause_eq_none.mpr h] at hk
  exact trapEntry_happens hc hr ((trapDue_iff s _).mpr ⟨pending, hi, hj, hp⟩) hd hk

/-! ### Save and restore -/

section Save
variable {c : Nat} {s : State}

theorem contextSave_begins (hs : (s.ctx c).status ≠ .saving) (hp : (s.ctx c).preempt = true) (ht : takeable s (s.ctx c) = true) :
    Happens (.contextSave c) s (beginSave s c) := (if_neg hs).trans (if_pos (by rw [hp, ht]; rfl))

theorem contextSave_ends (hs : (s.ctx c).status = .saving) (hd : saveDrained s (s.ctx c) = true) :
    Happens (.contextSave c) s (endSave s c) := (if_pos hs).trans (if_pos hd)

/-- The saved groups of the gang are to be restored where no ticket of a higher level fits. -/
theorem restoreRequest_happens {gr : Nat} {g : Group} (hg : s.group gr = some g) (hs : g.st = .saved) (hr : restorable s g = true)
    (hc : canRestore s ((gangGroups s g).filter fun x => x.st = .saved) = true)
    (ha : ∀ k ∈ s.tickets, levelBefore s k g.launch = false → fitsSomewhere s k = false) :
    let gs := (gangGroups s g).filter fun x => x.st = .saved
    let t := askRestore s (gs.map Group.id)
    Happens (.restoreRequest gr) s { t with
      groups := t.groups.map fun x => if (gs.map Group.id).contains x.id then { x with st := .restoring, victim := none } else x } := by
  have noneAbove : (s.tickets.any fun k => !levelBefore s k g.launch && fitsSomewhere s k) = false := by simpa using ha
  change execRestoreRequest gr s = _
  simp only [execRestoreRequest, hg]
  exact if_pos (by rw [hs, hr, hc, noneAbove]; rfl)

/-- A well-formed area whose header can be written is reloaded, and its blocked bundle registers its wait again. -/
theorem contextRestore_happens {b : List Byte} {p : Bool} {y : Ctx} {t : State} {w : WRef} (hs : (s.ctx c).status = .restoring) :
    let x := s.ctx c
    let base := x.crs.sabase.toNat
    devRead s (devAgent x.bind.vf) x.bind.vf base (saveSize x) = .ok (b, p) → restoreOf x b = some y →
    devWrite { s with fresh := s.fresh + 1 } (devAgent x.bind.vf) x.bind.vf base (leBytes 8 (numAt b 0 8 % 2 ^ 63)) = .ok (t, w) →
    let u := (flushCore t (hwOf c / 4)).updCtx c fun _ => y
    Happens (.contextRestore c) s (groupRestored (match y.waitOn with
      | some k => rewait u c k
      | none => { u with parked := u.parked.filter fun o => o.cid != c }) x.bind.group) := by
  intro x base hread harea hwrite u
  change execContextRestore c s = _
  rw [execContextRestore, if_neg (by simp [hs])]
  simp only [x, base] at hread harea hwrite ⊢
  simp only [hread, harea, hwrite]
  rfl

end Save

theorem savesAndRestoresHappen : SavesAndRestoresHappen :=
  ⟨fun _ _ => contextSave_begins, fun _ _ => contextSave_ends, fun _ _ _ => restoreRequest_happens,
    fun _ _ _ _ _ _ _ => contextRestore_happens⟩

/-! ### The obligation -/

/-- Settles O32: each event of a context, its save and its restore has the effect the spec gives it, wherever its condition holds. The
layout of the save area and a save whose write faults are the model's choices (logs 14, 15). -/
theorem contextAndSaveEventsHappen : Obligations.ContextAndSaveEventsHappen := ⟨contextEventsHappen, savesAndRestoresHappen⟩

end Sys2Proof.Machine
end

section
/-!
PROOFS. Floating point: the scalar operations and conversions (06 R151 to R154), the lane-wise operations (07 R176, R177) and the
transcendentals (07 R179, R180).
-/
namespace Sys2Proof.Machine

open Sys2Proof.Claims

/-- Operation `i` is issued alone in its bundle with the meaning `run`; it belongs to a slot and is neither RETT nor CREAD, which alone
do more when their bundle retires. Of a given form all four are seen by unfolding, so `{}` proves it. -/
structure IssuedAs (i : Instr) (run : State → Op State) : Prop where
  exec_eq : ∀ s, exec i s = issueOne i run s := by exact fun _ => rfl
  slot : (slotOf i).isSome = true := by rfl
  notRett : isRett i = false := by rfl
  notCread : ∀ g f, i ≠ .cread g f := by nofun

/-! ### Scalar operations -/

/-- A bundle whose operation emits an FP32 result on its stage completes with it: the stage has the floor of the bundle. -/
theorem givesFp_of_emitF {i : Instr} {run : State → Op State} {s : State} {cls cnt : Nat} {d : BitVec 5} {r : FRes} (hi : IssuedAs i run)
    (h : Ready i s) (hr : run (staged i s) = .ok (emitF (staged i s) cls d r cnt)) : GivesFp i s cls d r cnt :=
  gives_of_emit h (hi.exec_eq s) hr hi.slot hi.notRett hi.notCread

theorem opSf2_ok {f : SRF} {s : State} {a b : Scalar} (ha : srcS s f 1 = .ok a) (hb : srcS s f 2 = .ok b) (cls : Nat)
    (v : BitVec 2 → FVal → FVal → FRes) (k : FRes → TOp → TOp → Nat) :
    opSf2 f cls v k s = .ok (let r := v (srRm f) (fp32 a).val (fp32 b).val; emitF s cls f.sd r (k r (fp32 a) (fp32 b))) := by
  simp only [opSf2, ha, hb, bind, Except.bind]

theorem twoFp_of_opSf2 {mk : Guard → SRF → Instr} {cls : Nat} {v : BitVec 2 → FVal → FVal → FRes} {k : FRes → TOp → TOp → Nat}
    (hi : ∀ g f, IssuedAs (mk g f) (opSf2 f cls v k) := by exact fun _ _ => {}) : TwoFp mk cls v k :=
  fun g f _ _ _ h ha hb => givesFp_of_emitF (hi g f) h (opSf2_ok ha hb cls v k)

theorem opSffma_ok {f : SRF} {s : State} {a b c : Scalar} (ha : srcS s f 1 = .ok a) (hb : srcS s f 2 = .ok b) (hc : srcS s f 3 = .ok c) :
    opSffma f s = .ok (let r := fFma 24 (srRm f) (fp32 a).val (fp32 b).val (fp32 c).val
      emitF s 3 f.sd r (cntFma 24 r (fp32 a) (fp32 b) (fp32 c))) := by
  simp only [opSffma, ha, hb, hc, bind, Except.bind]

theorem opSfsqrt_ok {f : SRF} {s : State} {a : Scalar} (ha : srcS s f 1 = .ok a) :
    opSfsqrt f s = .ok (let r := fSqrt 24 (srRm f) (fp32 a).val; emitF s 2 f.sd r (cntSqrt 24 r (fp32 a))) := by
  simp only [opSfsqrt, ha, bind, Except.bind]

theorem opSfcvtI32_ok {f : SRF} {s : State} {a : Scalar} (ha : srcS s f 1 = .ok a) :
    opSfcvtI32 f s = .ok (let r := fToInt (srRm f) (cvtSigned f) (cvtBits f) (fp32 a).val
      emitS s 7 f.sd (extend (cvtSigned f) (cvtBits f) r.1) r.2) := by
  simp only [opSfcvtI32, ha, bind, Except.bind]

theorem opSfcvtF32_ok {f : SRF} {s : State} {a : Scalar} (ha : srcS s f 1 = .ok a) :
    opSfcvtF32 f s = .ok (emitF s 7 f.sd (intToF 24 (srRm f) (readInt (cvtSigned f) (cvtBits f) a.val.toNat)) 24) := by
  simp only [opSfcvtF32, ha, bind, Except.bind]

/-- Settles O5: each operation reads its sources and emits the rounded result with its count and flags. -/
theorem scalarFloatCompletes : Obligations.ScalarFloatCompletes := by
  refine ⟨twoFp_of_opSf2, twoFp_of_opSf2, twoFp_of_opSf2, twoFp_of_opSf2, fun g f s a b c h ha hb hc => ?_, fun g f s a h ha => ?_,
    fun g f s a h ha => ?_, fun g f s a h ha => ?_⟩
  · exact givesFp_of_emitF {} h (opSffma_ok ha hb hc)
  · exact givesFp_of_emitF {} h (opSfsqrt_ok ha)
  · exact gives_of_emit h rfl (opSfcvtI32_ok ha) rfl rfl
  · exact givesFp_of_emitF {} h (opSfcvtF32_ok ha)

/-! ### Lane-wise operations -/

theorem Stage.putLanes {i : Instr} {s v : State} (h : Stage i s v) (inB : Bool) (f : VF) (cls : Nat) (tag : Byte) (l : List Lane)
    (chk : Bool) (hm : maskFits f s tag = true) :
    Machine.putLanes v inB f cls tag l chk = .ok (
      let new := rowOfLanes tag l
      emit v cls (if f.t || maskEmpty f s new.tag then [] else [.row f.dst.toNat (rowOut f s new)]) (.row (rowOut f s new))
        (laneFlags f s new.tag (numbered 0 l)) (laneBelow f s new.tag (numbered 0 l) chk)) :=
  h.putRow inB f cls (rowOfLanes tag l) (numbered 0 l) chk hm

/-- A bundle whose operation delivers lanes on its stage completes with them; the counter of free values may have moved on. -/
theorem givesLanes_of_putLanes {i : Instr} {run : State → Op State} {s : State} {inB chk : Bool} {f : VF} {cls : Nat} (m : Nat)
    {tag : Byte} {l : List Lane} (hi : IssuedAs i run) (h : Ready i s)
    (hr : run (staged i s) = putLanes { staged i s with fresh := m } inB f cls tag l chk) (hm : maskFits f s tag = true) :
    GivesLanes i f s cls tag l chk := by
  have stage : Stage i s { staged i s with fresh := m } := ⟨h, rfl⟩
  exact gives_of_stage h (hi.exec_eq s) (hr.trans (stage.putLanes inB f cls tag l chk hm)) hi.slot hi.notRett hi.notCread

section Sources
variable {f : VF} {inB chk : Bool} {cls : Nat} {tag : Byte} {s : State} {a b c : Opd} {la lb lc : List Lane}

theorem vOp1_ok (v : Lane → Lane) (ha : rdV s inB 0 f.a = .ok a) (hla : typed tag a = .ok la) :
    vOp1 f inB cls tag chk v s = putLanes s inB f cls tag (la.map v) chk := by
  simp only [vOp1, ha, hla, bind, Except.bind]

theorem vOp2_ok (v : Lane → Lane → Lane) (ha : rdV s inB 0 f.a = .ok a) (hb : rdV s inB 1 f.b = .ok b) (hla : typed tag a = .ok la)
    (hlb : typed tag b = .ok lb) : vOp2 f inB cls tag chk v s = putLanes s inB f cls tag (zip2 v la lb) chk := by
  simp only [vOp2, ha, hb, hla, hlb, bind, Except.bind]

theorem vOp3_ok (v : Lane → Lane → Lane → Lane) (ha : rdV s inB 0 f.a = .ok a) (hb : rdV s inB 1 f.b = .ok b)
    (hc : rdV s inB 2 f.c = .ok c) (hla : typed tag a = .ok la) (hlb : typed tag b = .ok lb) (hlc : typed tag c = .ok lc) :
    vOp3 f inB cls tag chk v s = putLanes s inB f cls tag (zip3 v la lb lc) chk := by
  simp only [vOp3, ha, hb, hc, hla, hlb, hlc, bind, Except.bind]

theorem vTrans_ok (op : TransOp) (ha : rdV s inB 0 f.a = .ok a) (hla : typed (vFtag f) a = .ok la) :
    vTrans f inB op s = putLanes (useFresh s) inB f 6 (vFtag f) ((numbered 0 la).map (transLane (vFp f) op s.fresh)) true := by
  simp only [vTrans, ha, hla, bind, Except.bind]

end Sources

section Shapes
variable {mk : Guard → Bool → VF → Instr} {cls : Nat} {tag : VF → Byte} {chk : Bool}

theorem vecOne_of_vOp1 {v : VF → Lane → Lane} (hi : ∀ g inB f, IssuedAs (mk g inB f) (vOp1 f inB cls (tag f) false (v f)) := by
    exact fun _ _ _ => {}) : VecOne mk cls tag v :=
  fun g inB f s _ _ h ha hla hm => givesLanes_of_putLanes s.fresh (hi g inB f) h (vOp1_ok (v f) ha hla) hm

theorem vecTwo_of_vOp2 {v : VF → Lane → Lane → Lane} (hi : ∀ g inB f, IssuedAs (mk g inB f) (vOp2 f inB cls (tag f) chk (v f)) := by
    exact fun _ _ _ => {}) : VecTwo mk cls tag v chk :=
  fun g inB f s _ _ _ _ h ha hb hla hlb hm => givesLanes_of_putLanes s.fresh (hi g inB f) h (vOp2_ok (v f) ha hb hla hlb) hm

theorem vecThree_of_vOp3 {v : VF → Lane → Lane → Lane → Lane}
    (hi : ∀ g inB f, IssuedAs (mk g inB f) (vOp3 f inB cls (tag f) chk (v f)) := by
      exact fun _ _ _ => {}) : VecThree mk cls tag v chk :=
  fun g inB f s _ _ _ _ _ _ h ha hb hc hla hlb hlc hm =>
    givesLanes_of_putLanes s.fresh (hi g inB f) h (vOp3_ok (v f) ha hb hc hla hlb hlc) hm

/-- The free choices of the lanes are those of the state before the bundle, whose counter then moves on. -/
theorem vecTrans_of_vTrans {op : TransOp} (hi : ∀ g inB f, IssuedAs (mk g inB f) (vTrans f inB op) := by
    exact fun _ _ _ => {}) : VecTrans mk op :=
  fun g inB f s _ _ h ha hla hm => givesLanes_of_putLanes (s.fresh + 1) (hi g inB f) h (vTrans_ok op ha hla) hm

end Shapes

/-- Settles O11: each operation takes its typed lanes and delivers the lane-wise results under the write mask. An empty mask leaves the
destination and lets the row into the latch, which is the model's choice (log 88). -/
theorem vectorFloatCompletes : Obligations.VectorFloatCompletes :=
  ⟨vecTwo_of_vOp2, vecTwo_of_vOp2, vecTwo_of_vOp2, vecThree_of_vOp3, vecTwo_of_vOp2, vecTwo_of_vOp2, vecOne_of_vOp1, vecOne_of_vOp1⟩

/-! ### Transcendentals: the result on a finite operand (R179) -/

section Finite
variable (p : Nat) (op : TransOp) (pick : BitVec 3) (neg : Bool) (m0 : Nat) (e0 : Int)

/-- A finite operand other than zero, and none below zero where the operation has no value there, is no special operand. -/
theorem fTrans_num (h : m0 ≠ 0) (hneg : (op = .rsqrt ∨ op = .log2) → neg = false) :
    fTrans p op pick (.num neg m0 e0) = transFin p op pick neg m0 e0 := by
  have positive : ¬ (neg && (op = .rsqrt || op = .log2)) = true := by
    simp only [Bool.and_eq_true, Bool.or_eq_true, decide_eq_true_eq]
    rintro ⟨hn, ho⟩
    exact Bool.false_ne_true ((hneg ho).symm.trans hn)
  simp only [fTrans, if_neg h, if_neg positive]

/-- The approximation rounded to nearest. -/
def transNear : FRes :=
  let x := transApprox op neg m0 e0
  fRound p 0 x.1 x.2.1 x.2.2 (!transExact op m0 e0)

/-- Whether the approximation lies beyond the format's largest finite value. -/
def transOver : Bool :=
  let x := transApprox op neg m0 e0
  match fDec p (fMax p false) with
  | .num _ mm em => let u := min em x.2.2; sAt u false mm em < sAt u false x.2.1 x.2.2
  | _ => false

/-- The finite magnitude nearest to the approximation. -/
def transBase : Nat :=
  let mag := (transNear p op neg m0 e0).bits % 2 ^ (p + 7)
  if mag = fInf p false then fMax p false else mag

/-- The magnitude that the choice names, where the bound allows it; else the nearest. -/
def transMag : Nat :=
  let x := transApprox op neg m0 e0
  let cand : Int := (transBase p op neg m0 e0 : Int) + pick.toInt
  if 0 ≤ cand && within2ulp p cand.toNat x.2.1 x.2.2 && !(op = .sigm && 127 * 2 ^ (p - 1) < cand.toNat) then cand.toNat
  else transBase p op neg m0 e0

/-- The result is zero, the nearest value, an infinity, a zero below the subnormals, or the chosen magnitude. -/
theorem transFin_eq :
    transFin p op pick neg m0 e0 =
      let x := transApprox op neg m0 e0
      let near := transNear p op neg m0 e0
      let lead := (Nat.log2 x.2.1 : Int) + x.2.2
      if x.2.1 = 0 then ⟨fZero p false, if transExact op m0 e0 then 0 else flUF ||| flNX, transExact op m0 e0⟩
      else if transExact op m0 e0 && near.exact then near
      else if transOver p op neg m0 e0 then ⟨fInf p x.1, flOF ||| flNX, false⟩
      else if lead < -126 - ((p : Int) - 1) then ⟨fZero p x.1, flUF ||| flNX, false⟩
      else ⟨fSign p x.1 + transMag p op pick neg m0 e0,
        if lead < -126 && 0 < (near.flags &&& flUF).toNat then flUF ||| flNX else flNX, false⟩ := rfl

theorem transBase_eq : transBase p op neg m0 e0 = (transNear p op neg m0 e0).bits % 2 ^ (p + 7)
    ∨ (transNear p op neg m0 e0).bits % 2 ^ (p + 7) = fInf p false ∧ transBase p op neg m0 e0 = fMax p false := by
  unfold transBase
  dsimp only
  split
  · rename_i inf
    exact .inr ⟨inf, rfl⟩
  · exact .inl rfl

theorem transMag_bound :
    let x := transApprox op neg m0 e0
    let c := transMag p op pick neg m0 e0
    within2ulp p c x.2.1 x.2.2 = true ∧ (op = .sigm → c ≤ 127 * 2 ^ (p - 1)) ∨ c = transBase p op neg m0 e0 := by
  unfold transMag
  dsimp only
  split
  · rename_i allowed
    simp only [Bool.and_eq_true, Bool.not_eq_true', Bool.and_eq_false_imp, decide_eq_true_eq, decide_eq_false_iff_not,
      Nat.not_lt] at allowed
    obtain ⟨⟨-, near⟩, sigm⟩ := allowed
    exact .inl ⟨near, sigm⟩
  · exact .inr rfl

end Finite

/-- Flags raised with NX hold NX. -/
theorem or_flNX (fl : Flags) : (fl ||| flNX) &&& flNX = flNX := by
  revert fl
  decide

theorem transBound (op : TransOp) : TransBound op := by
  intro p pick neg m0 e0 h hneg
  dsimp only
  rw [fTrans_num p op pick neg m0 e0 h hneg, transFin_eq]
  refine ⟨fun hz hx hn => ?_, fun hz => ?_, fun hz hn => ?_⟩
  · have exact' : (transExact op m0 e0 && (transNear p op neg m0 e0).exact) = true := Bool.and_eq_true_iff.mpr ⟨hx, hn⟩
    dsimp only
    rw [if_neg hz, if_pos exact']
    rfl
  · dsimp only
    rw [if_pos hz]
    exact ⟨rfl, fun hx => if_pos hx⟩
  · have inexact : ¬ (transExact op m0 e0 && (transNear p op neg m0 e0).exact) = true := Bool.eq_false_iff.mp hn
    dsimp only
    rw [if_neg hz, if_neg inexact]
    split
    case isTrue => exact ⟨or_flNX _, .inl ⟨rfl, rfl⟩⟩
    case isFalse =>
      split
      case isTrue below => exact ⟨or_flNX _, .inr (.inl ⟨rfl, rfl, below⟩)⟩
      case isFalse =>
        refine ⟨?_, .inr (.inr ⟨_, rfl, ?_⟩)⟩
        · dsimp only
          split
          · exact or_flNX _
          · exact BitVec.and_self
        · refine (transMag_bound p op pick neg m0 e0).imp_right fun e => ?_
          rw [e]
          exact transBase_eq p op neg m0 e0

/-- The quotient that VRCP starts from encloses the exact value at the unit of its last place. -/
theorem transApprox_rcp_encloses (neg : Bool) (m0 : Nat) (e0 : Int) (h : m0 ≠ 0) :
    let x := transApprox .rcp neg m0 e0
    x.1 = neg ∧ x.2.2 + e0 = -160 ∧ x.2.1 * m0 ≤ 2 ^ 160 ∧ 2 ^ 160 < (x.2.1 + 1) * m0 :=
  ⟨rfl, Int.sub_add_cancel _ _, Nat.div_mul_le_self _ _, by
    rw [Nat.mul_comm]; exact Nat.lt_mul_div_succ _ (Nat.pos_of_ne_zero h)⟩

/-! ### Transcendentals: the table of R180 -/

theorem fTrans_below (p : Nat) (op : TransOp) (pick : BitVec 3) (m : Nat) (e : Int) (h : m ≠ 0) (hop : op = .rsqrt ∨ op = .log2) :
    fTrans p op pick (.num true m e) = .nanRes p flNV := by
  have hneg : (true && (op = .rsqrt || op = .log2)) = true := by simpa using hop
  simp only [fTrans, if_neg h, if_pos hneg]

theorem transSpecial_below {op : TransOp} {m : Nat} {e : Int} (h : m ≠ 0) (hop : op = .rsqrt ∨ op = .log2) :
    TransSpecial op (.num true m e) fQNaN flNV := by
  intro p pick
  rw [fTrans_below p op pick m e h hop]
  exact ⟨rfl, rfl⟩

/-- Settles O12: every choice within the bound, which is the model's free value (log 7), gives a lane the bound allows, and the special
operands give the table of R180. An empty mask lets the row into the latch alone, which is the model's choice (log 88). -/
theorem transcendentalsComplete : Obligations.TranscendentalsComplete := by
  refine ⟨vecTrans_of_vTrans, vecTrans_of_vTrans, vecTrans_of_vTrans, vecTrans_of_vTrans, vecTrans_of_vTrans, transBound .rcp,
    transBound .rsqrt, transBound .exp2, transBound .log2, transBound .sigm, transApprox_rcp_encloses, fun n e => ?_, ?_, ?_,
    fun m e h => ⟨transSpecial_below h (.inl rfl), transSpecial_below h (.inr rfl)⟩, fun op s _ _ => ⟨rfl, rfl⟩⟩
  -- a zero and the two infinities: each entry of the table is a branch of `fTrans`
  all_goals exact ⟨fun _ _ => ⟨rfl, rfl⟩, fun _ _ => ⟨rfl, rfl⟩, fun _ _ => ⟨rfl, rfl⟩, fun _ _ => ⟨rfl, rfl⟩, fun _ _ => ⟨rfl, rfl⟩⟩

end Sys2Proof.Machine
end

section
/-!
PROOFS. Global accesses at issue (08 R194 to R218; 05 R124, R126; 17 R412): what their steps answer where nothing stands in their way, and
the effects of the loads, LDQ.DROP, the stores and the atomics.
-/
namespace Sys2Proof.Machine

open Sys2Proof.Claims

/-! ### Effects beside the scratch of the bundle -/

/-- Neither the scratch of a bundle nor a deadline that is over is part of what its closing leaves. -/
theorem Closes.of_scratch {i : Instr} {s u t : State} {x : Iss}
    (h : Closes i s { u with cur := { u.cur with sleepTill := none, iss := x } } t) : Closes i s u t := by
  obtain ⟨fl, pc, pt, ctx, queues, outside⟩ := h
  obtain ⟨hl, hw, hc⟩ := popped_same i (c := { u.cur with sleepTill := none, iss := x }) (d := u.cur) ⟨rfl, rfl, rfl⟩
  exact ⟨fl, pc, pt,
    ⟨ctx.cid, ctx.status, ctx.regs, ctx.cb, ctx.acc, ctx.tok, ctx.tokBind, ctx.tokWs, ctx.moor, ctx.view, ctx.maps, ctx.bind, ctx.pends,
      ctx.phase, ctx.preempt, ctx.task⟩,
    ⟨queues.ldq.trans hl, queues.win.trans hw, queues.crs.trans hc⟩, (outside_with_cur u _).trans outside⟩

/-- What an effect on the bundle's context must keep for the bundle to retire as every other; of a concrete effect seen by unfolding. -/
structure KeepsIssue (s u : State) : Prop where
  ctl : u.cur.ctl = s.cur.ctl := by rfl
  pc : u.cur.pc = s.cur.pc := by rfl
  pt : u.cur.pt = s.cur.pt := by rfl
  repi : u.cur.crs.repi = s.cur.crs.repi := by rfl
  fl : u.cur.fl = s.cur.fl := by rfl

/-- An operation that answers with `u`, but for the accesses noted for the bundle's answered operation, has effect `u`. -/
theorem does_of_noted {i : Instr} {run : State → Op State} {s u : State} (a : List Along) (hi : IssuedAs i run) (h : Ready i s)
    (hr : run (staged i s) = .ok { u with cur := { u.cur with sleepTill := none, iss := { (staged i s).cur.iss with along := a } } })
    (hk : KeepsIssue s u := by exact {}) : Does i s u := by
  have settled : Settled s { u with cur := { u.cur with sleepTill := none, iss := { (staged i s).cur.iss with along := a } } } :=
    settled_of_cur h ⟨rfl, rfl, rfl⟩ ⟨hk.ctl, hk.pc, hk.pt, hk.repi, hk.fl⟩
  obtain ⟨t, ht, hc⟩ := does_of h (hi.exec_eq s) hr settled rfl hi.notRett hi.notCread
  exact ⟨t, ht, hc.of_scratch⟩

/-! ### Addresses (R194, R195, R206) -/

theorem Stage.eaOf {i : Instr} {s v : State} (h : Stage i s v) (f : MXF) (useIndex : Bool) :
    Machine.eaOf v f useIndex = .ok (address s f useIndex) := by
  simp only [Machine.eaOf, address, h.rdS, bind, Except.bind]
  split <;> rfl

theorem globalAddr_ok {ea : Word} {align : Nat} (h : GlobalAt ea align) : globalAddr ea align = .ok ea.toNat := by
  obtain ⟨space, aligned⟩ := h
  simp only [globalAddr, space, aligned, bne_self_eq_false, Bool.false_eq_true, if_false]

/-! ### Loads (R200, R210) -/

section Load
variable {s : State} {va n : Nat} {kind : Nat → GKind} {isRow : Bool} {cnts : List Byte} {parts : List Part}

theorem sendLoad_sent (h : wentLoad s = none) :
    sendLoad s va n kind isRow cnts parts = noteAlong { s with
      uid := s.uid + 1
      gops := s.gops ++ [loadAccess s va n (kind s.uid) cnts parts]
      cur := { s.cur with ldq := s.cur.ldq ++ [⟨s.uid, isRow, none, false, false⟩] } }
      (.glob (loadAccess s va n (kind s.uid) cnts parts)) := by
  simp only [sendLoad, h]
  rfl

theorem sendLoad_went {w : Went} (h : wentLoad s = some w) :
    sendLoad s va n kind isRow cnts parts = { s with cur := { s.cur with ldq := s.cur.ldq ++ [wentEntry w isRow] } } := by
  simp only [sendLoad, h]
  rfl

/-- With room in the LDQ, every page translated and the counts known, a load is sent unless its task's read set is full. -/
theorem Stage.ldgOp {i : Instr} {t : State} (h : Stage i t s) {f : MXF} {align esz p : Nat} {demand : Bool} {runs : List (Nat × Nat × Tr)}
    {c : List Byte × List Part} (room : s.cur.ldq.length < 32) (hg : GlobalAt (address t f true) align)
    (ht : trAccess s .r (address t f true).toNat n = .ok runs)
    (hc : loadCounts s esz p demand (address t f true).toNat runs = .ok c)
    (hf : readSetFull s (dataParts (address t f true).toNat runs ++ c.2) = false) :
    Machine.ldgOp f n align esz p demand isRow kind s = .ok (sendLoad s (address t f true).toNat n kind isRow c.1
      (dataParts (address t f true).toNat runs ++ c.2)) := by
  simp only [Machine.ldgOp, h.eaOf, if_neg (Nat.not_le.mpr room), globalAddr_ok hg, ht, hc, hf, bind, Except.bind, Bool.false_eq_true,
    if_false]

end Load

/-- Every form that is `ldgOp` on its stage loads as the claim says. -/
theorem globalLoads_of_ldgOp {mk : Guard → MXF → Instr} {run : MXF → State → Op State} {form : MXF → Bool} {n align : Nat}
    {esz p : State → MXF → Nat} {demand isRow : Bool} {kind : State → MXF → Nat → GKind} (hi : ∀ g f, IssuedAs (mk g f) (run f))
    (hr : ∀ g f s, form f = true → run f (staged (mk g f) s)
      = ldgOp f n align (esz s f) (p s f) demand isRow (kind s f) (staged (mk g f) s)) :
    GlobalLoads mk form n align esz p demand isRow kind := by
  intro g f s runs c hform h room hg
  dsimp only
  intro ht hc hf
  have answer := (hr g f s hform).trans ((stage_self h).ldgOp (kind := kind s f) (isRow := isRow) room hg ht hc hf)
  refine ⟨fun hw => ?_, fun w hw => ?_⟩
  · exact does_of_noted _ (hi g f) h (answer.trans (congrArg Except.ok (sendLoad_sent hw)))
  · exact does_of_noted _ (hi g f) h (answer.trans (congrArg Except.ok (sendLoad_went hw)))

theorem opLdgTag_scalar {f : MXF} (h : f.mod = 0) (s : State) :
    opLdgTag f s = ldgOp f 4 4 4 24 true false (fun i => .loadScalar i 4 false) s := if_pos h

theorem opLdgTag_row {f : MXF} (h : f.mod ≠ 0) (s : State) :
    opLdgTag f s = ldgOp f 256 16 (rowEsz (f.mod.setWidth 8)) (fmtPrec (tagFmt (f.mod.setWidth 8))) true true
      (fun i => .loadRow i (f.mod.setWidth 8)) s := if_neg h

theorem globalLoadsComplete : GlobalLoadsComplete := by
  refine ⟨globalLoads_of_ldgOp (run := opLdgRow) (fun _ _ => {}) fun _ _ _ _ => rfl,
    globalLoads_of_ldgOp (run := opLdgW32) (fun _ _ => {}) fun _ _ _ _ => rfl,
    globalLoads_of_ldgOp (run := opLdgW64) (fun _ _ => {}) fun _ _ _ _ => rfl,
    globalLoads_of_ldgOp (run := opLdgTag) (fun _ _ => {}) fun _ f s h => ?_,
    globalLoads_of_ldgOp (run := opLdgTag) (fun _ _ => {}) fun _ f s h => ?_⟩
  · exact opLdgTag_scalar (of_decide_eq_true h) _
  · exact opLdgTag_row (bne_iff_ne.mp h) _

/-! ### PFG and LDQ.DROP (R215, R216) -/

theorem pfg_does (g : Guard) (f : MXF) (s : State) (h : Ready (.pfg g f) s) : Does (.pfg g f) s s :=
  does_of_noted (run := opPfg f) [] {} h rfl

/-- LDQ.DROP leaves its count for the retirement, which takes the entries. -/
def dropNoted (i : Instr) (s : State) (n : Nat) : State :=
  (staged i s).updCur fun c => { c with iss := { c.iss with drop := n } }

theorem opLdqDrop_ok (i : Instr) {f : MXF} {s : State} (h : f.off.toNat ≤ s.cur.ldq.length) :
    opLdqDrop f (staged i s) = .ok (dropNoted i s f.off.toNat) := if_neg (Nat.not_lt.mpr h)

/-- An operation without a pop that leaves a count of entries to drop closes on the LDQ without them. -/
theorem closes_dropNoted {i : Instr} {s : State} {n : Nat} (h : Ready i s) (hn : n ≤ s.cur.ldq.length)
    (hp : ∀ c, popped i c = c) (hl : popsLdq i = false) (hr : isRett i = false) (hi : ∀ g f, i ≠ .cread g f) :
    Closes i s { s with cur := { s.cur with ldq := s.cur.ldq.drop n } } (retired i s (dropNoted i s n)) := by
  have noted := noteCreads_single (opened s) (dropNoted i s n) i hi
  have after := retired_closed noted ⟨rfl, rfl⟩ h.once h.noSwitch hr
  have dropped : (dropNoted i s n).cur.iss.dropped (popsLdq i) = n := by
    rw [hl]
    exact Nat.min_eq_left hn
  refine ⟨after.fl, after.pc, after.pt,
    ⟨after.cid, after.status, after.regs, after.cb, after.acc, after.tok, after.tokBind, after.tokWs, after.moor, after.view, after.maps,
      after.bind, after.pends, after.phase, after.preempt, after.task⟩, ⟨?_, ?_, ?_⟩,
    (outside_of_cur _ _ s.htime s.uid s.fresh s.walkFaults).trans (retired_outside i s _ noted rfl)⟩
  · rw [after.ldq, dropped, hp, hp]
    rfl
  · rw [after.win, hp, hp]
    rfl
  · refine (after.crs.trans (crsAfter_plain (c := (dropNoted i s n).cur) rfl h.first ⟨rfl, rfl, rfl⟩)).trans ?_
    rw [hp, hp]
    rfl

theorem ldqDrop_does (g : Guard) (f : MXF) (s : State) (h : Ready (.ldqDrop g f) s) (hn : f.off.toNat ≤ s.cur.ldq.length) :
    Does (.ldqDrop g f) s { s with cur := { s.cur with ldq := s.cur.ldq.drop f.off.toNat } } :=
  ⟨_, issueOne_ok (run := opLdqDrop f) h (opLdqDrop_ok _ hn), closes_dropNoted h hn (fun _ => rfl) rfl rfl nofun⟩

/-- Settles O19: each load sends its access and pushes its entry, PFG leaves all as it is, LDQ.DROP takes its entries. -/
theorem loadQueueOperationsComplete : Obligations.LoadQueueOperationsComplete := ⟨globalLoadsComplete, pfg_does, ldqDrop_does⟩

/-! ### Stores (R212 to R214, R412) -/

theorem wentStore_of_noneAhead {s : State} (h : NoneAhead s) : wentStore s = none := by
  rw [wentStore, show wentOf s = [] from h]
  rfl

section Store
variable {s : State} {va : Nat} {bytes : List Byte} {mask : List Bool} {sh : List Part × List Byte × List Bool}
  {runs : List (Nat × Nat × Tr)}

/-- The parts of a store that write a byte. -/
def storeParts (va : Nat) (mask : List Bool) (sh : List Part × List Byte × List Bool) (runs : List (Nat × Nat × Tr)) : List Part :=
  (dataParts va runs ++ sh.1).filter (livePart mask sh.2.2)

theorem sendStore_nothing (h : storeParts va mask sh runs = []) : sendStore s va bytes mask sh runs = .ok s := by
  rw [storeParts] at h
  simp only [sendStore, h, List.isEmpty_nil, if_true]

theorem sendStore_sent (h : storeParts va mask sh runs ≠ []) (hs : speculative s.cur = false) (hw : NoneAhead s) :
    let g := storeAccess s va bytes mask (storeParts va mask sh runs) sh.2.1 sh.2.2
    sendStore s va bytes mask sh runs = .ok (noteAlong { s with
      uid := s.uid + 1
      gops := s.gops ++ [g]
      cur := { s.cur with view := { s.cur.view with own := g.ref :: s.cur.view.own } } } (.glob g)) := by
  have live : (storeParts va mask sh runs).isEmpty = false := by simpa using h
  rw [storeParts] at live ⊢
  simp only [sendStore, live, hs, wentStore_of_noneAhead hw, Bool.false_eq_true, if_false]
  rfl

/-- The buffer of the context's task takes a speculative store while it has room. -/
theorem sendStore_buffered {t : Task} {r : TaskRef} (h : storeParts va mask sh runs ≠ []) (hs : speculative s.cur = true)
    (ht : s.taskOf s.cur = some t) (hr : s.cur.task = some r)
    (room : (bufLines (bufParts t.buf bytes sh.2.1 mask sh.2.2 (storeParts va mask sh runs))).length ≤ 64) :
    sendStore s va bytes mask sh runs = .ok (s.updTask r.dom r.seq fun u => { u with
      buf := bufParts t.buf bytes sh.2.1 mask sh.2.2 (storeParts va mask sh runs), bufAt := if u.buf.isEmpty then s.uid else u.bufAt }) := by
  have live : (storeParts va mask sh runs).isEmpty = false := by simpa using h
  rw [storeParts] at live room ⊢
  simp only [sendStore, live, hs, ht, hr, if_neg (Nat.not_lt.mpr room), Bool.false_eq_true, if_false, if_true]

theorem stgOp_ok {ea : Word} {align : Nat} {tagged : Option (Nat × List Nat)} (els : List (Nat × List Byte)) {t : State}
    (hg : GlobalAt ea align) (ht : trAccess s .w ea.toNat bytes.length = .ok runs)
    (hsh : storeShadow s .w mask tagged ea.toNat 0 runs = .ok sh) (hs : sendStore s ea.toNat bytes mask sh runs = .ok t) :
    stgOp s ea align bytes mask tagged els = .ok (auditAdd t s.cur.cid (els.map fun e => (ea.toNat + e.1, e.2))) := by
  simp only [stgOp, globalAddr_ok hg, ht, hsh, hs, bind, Except.bind]

end Store

/-- An operation that is `stgOp` on its stage stores as the claim says. -/
theorem globalStores_of_stgOp {i : Instr} {run : State → Op State} {s : State} {ea : Word} {align : Nat} {bytes : List Byte}
    {mask : List Bool} {tagged : Option (Nat × List Nat)} {els : List (Nat × List Byte)} (hi : IssuedAs i run) (h : Ready i s)
    (hr : run (staged i s) = stgOp (staged i s) ea align bytes mask tagged els) : GlobalStores i s ea align bytes mask tagged els := by
  intro hg hw runs sh
  dsimp only
  intro ht hsh
  have answer {t : State} (hs : sendStore (staged i s) ea.toNat bytes mask sh runs = .ok t) := hr.trans (stgOp_ok els hg ht hsh hs)
  refine ⟨fun none => ?_, fun some spec => ?_, fun t r some spec htask href room => ?_⟩
  · exact does_of_noted _ hi h (answer (sendStore_nothing none))
  · exact does_of_noted _ hi h (answer (sendStore_sent some spec hw))
  · exact does_of_noted _ hi h (answer (sendStore_buffered some spec htask href room))

section Forms
variable {i : Instr} {s v : State} {f : MXF}

theorem Stage.opStgRow (h : Stage i s v) {r : Row} (hr : rdRowSrc v 27 0 f.data = .ok r) (hm : tagFmt r.tag = 8 → f.mod.toNat % 8 = 0) :
    let k := byteMask (s.cur.regs.mask (f.mod.setWidth 3)) (tagFmt r.tag)
    Machine.opStgRow f v = stgOp v (address s f true) 16 (rowBytes r) k none (auditRow r k) := by
  have whole : (decide (tagFmt r.tag = 8) && f.mod.toNat % 8 != 0) = false := by
    simpa only [Bool.and_eq_false_imp, decide_eq_true_eq, bne_eq_false_iff_eq] using hm
  simp only [Machine.opStgRow, rowStore, h.eaOf, h.rdK, hr, whole, bind, Except.bind, Bool.false_eq_true, if_false]

theorem Stage.stgScalar (h : Stage i s v) {x : Scalar} (hx : rdScalarSrc v 0 f.data = .ok x) (n : Nat) :
    Machine.stgScalar f n v
      = stgOp v (address s f true) n (leBytes n x.val.toNat) (allOnes n) none [(0, leBytes n x.val.toNat)] := by
  simp only [Machine.stgScalar, h.eaOf, hx, bind, Except.bind]

theorem Stage.opStgTag_scalar (h : Stage i s v) {x : Scalar} (hx : rdSel v 27 0 f.data = .ok (.scalar x)) :
    let n := clampCount 24 (x.val.toNat % 2 ^ 32) x.cnt.toNat
    Machine.opStgTag f v = stgOp v (address s f true) 4 (leBytes 4 x.val.toNat) (allOnes 4) (some (4, [n]))
      [(0, leBytes 4 (auditFloat 24 (x.val.toNat % 2 ^ 32) n))] := by
  simp only [Machine.opStgTag, h.eaOf, hx, bind, Except.bind]

theorem Stage.opStgTag_row (h : Stage i s v) {r : Row} (hr : rdSel v 27 0 f.data = .ok (.row r)) (ht : r.tag = tagBF16 ∨ r.tag = tagF32) :
    let k := byteMask (s.cur.regs.mask (f.mod.setWidth 3)) (tagFmt r.tag)
    Machine.opStgTag f v
      = stgOp v (address s f true) 16 (rowBytes r) k (some (rowEsz r.tag, (rowLanes r).map Lane.cnt)) (auditRow r k) := by
  have float : (r.tag != tagBF16 && r.tag != tagF32) = false := by
    obtain ht | ht := ht <;> simp [ht]
  simp only [Machine.opStgTag, h.eaOf, h.rdK, hr, float, bind, Except.bind, Bool.false_eq_true, if_false]

end Forms

theorem globalScalarStores_of_stgScalar {mk : Guard → MXF → Instr} {n : Nat} (hi : ∀ g f, IssuedAs (mk g f) (stgScalar f n)) :
    GlobalScalarStores mk n :=
  fun g f _ _ h hx => globalStores_of_stgOp (hi g f) h ((stage_self h).stgScalar hx n)

theorem globalStoresComplete : GlobalStoresComplete := by
  refine ⟨fun g f s r h hr hm => ?_, globalScalarStores_of_stgScalar fun _ _ => {},
    globalScalarStores_of_stgScalar fun _ _ => {}, fun g f s x h hx => ?_, fun g f s r h hr ht => ?_⟩
  · exact globalStores_of_stgOp (run := opStgRow f) {} h ((stage_self h).opStgRow hr hm)
  · exact globalStores_of_stgOp (run := opStgTag f) {} h ((stage_self h).opStgTag_scalar hx)
  · exact globalStores_of_stgOp (run := opStgTag f) {} h ((stage_self h).opStgTag_row hr ht)

/-! ### Atomics (R217, R218) -/

/-- The access of an atomic on its way to its home. -/
def atomAccess (s : State) (op : Nat) (f : MXF) (va : Nat) (x cmp : Word) (runs : List (Nat × Nat × Tr))
    (sh : List Part × List Byte × List Bool) : GOp :=
  { id := s.uid, agent := s.cur.cid, vf := s.cur.bind.vf, va := va, len := if f.mod.getLsbD 0 then 8 else 4,
    kind := .atomic op (f.mod.getLsbD 2) (f.mod.getLsbD 0) x cmp (if f.mod.getLsbD 3 then some s.uid else none), moors := [], nAcq := 0,
    nKnown := 0, parts := dataParts va runs ++ sh.1, data := [], cnts := [BitVec.ofNat 8 (atomCount op runs)], overlay := [],
    poison := false, shBytes := sh.2.1, shMask := sh.2.2, task := taskId s.cur }

/-- What the home compares with: the index register for CAS, which no other operation reads. -/
theorem Stage.atomCompare {i : Instr} {s v : State} (h : Stage i s v) (f : MXF) (op : Nat) :
    (if op = 7 then Machine.rdS v 2 f.index else .ok ⟨0, 24⟩)
      = .ok (if op = 7 then s.cur.regs.scalar f.index else ⟨0, 24⟩ : Scalar) := by
  rw [h.rdS]
  split <;> rfl

/-- With room for its answer, its pages translated and its location one that takes it, an atomic is sent. -/
theorem Stage.atomOp {i : Instr} {s v : State} (h : Stage i s v) {op : Nat} {f : MXF} {x : Scalar} {runs : List (Nat × Nat × Tr)}
    {sh : List Part × List Byte × List Bool} (hx : rdScalarSrc v 0 f.data = .ok x)
    (room : f.mod.getLsbD 3 = true → v.cur.ldq.length < 32)
    (hg : GlobalAt (address s f (op != 7)) (if f.mod.getLsbD 0 then 8 else 4)) (hw : NoneAhead v)
    (ht : trAccess v .rw (address s f (op != 7)).toNat (if f.mod.getLsbD 0 then 8 else 4) = .ok runs)
    (takes : ∀ y ∈ runs, paRegion y.2.2.pa = 1 → op = 0 ∨ op = 6 ∨ op = 7)
    (hsh : atomShadow v op (if f.mod.getLsbD 0 then 8 else 4) (address s f (op != 7)).toNat (f.mod.getLsbD 3) runs = .ok sh)
    (hs : speculative v.cur = false) :
    let cmp : Word := if op = 7 then (s.cur.regs.scalar f.index).val else 0
    let g := atomAccess v op f (address s f (op != 7)).toNat x.val cmp runs sh
    Machine.atomOp op f v = .ok (noteAlong { v with
      uid := v.uid + 1
      gops := v.gops ++ [g]
      cur := { v.cur with
        ldq := if f.mod.getLsbD 3 then v.cur.ldq ++ [⟨v.uid, false, none, false, false⟩] else v.cur.ldq
        view := { v.cur.view with own := g.ref :: v.cur.view.own } } } (.glob g)) := by
  have roomy : (f.mod.getLsbD 3 && decide (32 ≤ v.cur.ldq.length)) = false := by
    simpa only [Bool.and_eq_false_imp, decide_eq_false_iff_not, Nat.not_le] using room
  have taken : ((runs.any fun t => decide (paRegion t.2.2.pa = 1)) && op != 0 && op != 6 && op != 7) = false := by
    rw [Bool.eq_false_iff]
    simp only [ne_eq, Bool.and_eq_true, List.any_eq_true, decide_eq_true_eq, bne_iff_ne]
    rintro ⟨⟨⟨⟨y, hy, host⟩, h0⟩, h6⟩, h7⟩
    exact (takes y hy host).elim h0 (Or.elim · h6 h7)
  have cmp : (if op = 7 then s.cur.regs.scalar f.index else ⟨0, 24⟩ : Scalar).val
      = if op = 7 then (s.cur.regs.scalar f.index).val else 0 := apply_ite Scalar.val _ _ _
  simp only [Machine.atomOp, h.eaOf, hx, h.atomCompare, roomy, globalAddr_ok hg, ht, taken, hsh, hs, wentStore_of_noneAhead hw, cmp, bind,
    Except.bind, Bool.false_eq_true, if_false]
  rfl

theorem atomicsSent_of_atomOp {mk : Guard → MXF → Instr} {op : Nat} (hi : ∀ g f, IssuedAs (mk g f) (atomOp op f) := by
    exact fun _ _ => {}) : AtomicsSent mk op := by
  intro g f s x runs sh h hx
  dsimp only
  intro room hg hw ht takes hsh hs
  exact does_of_noted _ (hi g f) h ((stage_self h).atomOp hx room hg hw ht takes hsh hs)

theorem atomicsComplete : AtomicsComplete :=
  ⟨atomicsSent_of_atomOp, atomicsSent_of_atomOp, atomicsSent_of_atomOp, atomicsSent_of_atomOp, atomicsSent_of_atomOp,
    atomicsSent_of_atomOp, atomicsSent_of_atomOp, atomicsSent_of_atomOp, atomicsSent_of_atomOp⟩

/-- Settles O21: the access is on its way or in the task's buffer when the bundle has closed. A tagged scalar stored whole and the audit
elements of other rows byte by byte are the model's choices (logs 98, 35). -/
theorem globalStoresAndAtomicsComplete : Obligations.GlobalStoresAndAtomicsComplete := ⟨globalStoresComplete, atomicsComplete⟩

end Sys2Proof.Machine
end

section
/-!
PROOFS. Slot S but for floating-point arithmetic and control registers (06 R142 to R150, R152, R155 to R160): what each operation answers
where its sources are readable, and what its bundle gives.
-/
namespace Sys2Proof.Machine

open Sys2Proof.Claims

/-! ### Results of slot S -/

/-- A bundle whose operation emits a scalar of count 24 on its stage completes with it. -/
theorem givesScalar_of_emitS {i : Instr} {run : State → Op State} {s : State} {cls : Nat} {d : BitVec 5} {v : Word} {fl : Flags}
    (hi : IssuedAs i run) (h : Ready i s) (hr : run (staged i s) = .ok (emitS (staged i s) cls d v fl)) : GivesScalar i s cls d v fl :=
  gives_of_emit h (hi.exec_eq s) hr hi.slot hi.notRett hi.notCread

theorem givesPred_of_emitP {i : Instr} {run : State → Op State} {s : State} {cls : Nat} {d : BitVec 3} {b : Bool} {fl : Flags}
    (hi : IssuedAs i run) (h : Ready i s) (hr : run (staged i s) = .ok (emitP (staged i s) cls d b fl)) : GivesPred i s cls d b fl :=
  gives_of_emit h (hi.exec_eq s) hr hi.slot hi.notRett hi.notCread

/-! ### What an operation answers where its sources are readable -/

section Sources
variable {f : SRF} {s : State} {a b : Scalar}

theorem opArith_ok (ha : srcS s f 1 = .ok a) (hb : srcS s f 2 = .ok b) (op : Int → Int → Int) (cls : Nat) :
    opArith f op cls s = .ok (emitS s cls f.sd (tyValue f (op (tyRead f a.val) (tyRead f b.val)))
      (tyFlag f (op (tyRead f a.val) (tyRead f b.val)))) := by
  simp only [opArith, ha, hb, bind, Except.bind, tyValue, tyFlag, tyRead]

theorem opBin_ok (ha : srcS s f 1 = .ok a) (hb : srcS s f 2 = .ok b) (cls : Nat) (r : Word → Word → Word × Flags) :
    opBin f cls r s = .ok (emitS s cls f.sd (r a.val b.val).1 (r a.val b.val).2) := by
  simp only [opBin, ha, hb, bind, Except.bind]

theorem opUn_ok (ha : srcS s f 1 = .ok a) (v : Word → Word) : opUn f v s = .ok (emitS s 0 f.sd (v a.val) 0) := by
  simp only [opUn, ha, bind, Except.bind]

theorem opShift_register (he : f.ext.getLsbD 6 = false) (ha : srcS s f 1 = .ok a) (hb : srcS s f 2 = .ok b) (v : Word → Nat → Word) :
    opShift f v s = .ok (emitS s 0 f.sd (v a.val (b.val.toNat % 64)) 0) := by
  simp only [opShift, ha, hb, he, bind, Except.bind, Bool.false_eq_true, if_false]

theorem opShift_field (he : f.ext.getLsbD 6 = true) (ha : srcS s f 1 = .ok a) (v : Word → Nat → Word) :
    opShift f v s = .ok (emitS s 0 f.sd (v a.val (f.ext.toNat % 64)) 0) := by
  simp only [opShift, ha, he, bind, Except.bind, if_true]

theorem opLea_disp (he : f.ext.getLsbD 16 = true) (ha : srcS s f 1 = .ok a) :
    opLea f s = .ok (emitS s 0 f.sd (a.val + (f.ext.extractLsb' 0 13).signExtend 64) 0) := by
  simp only [opLea, ha, he, bind, Except.bind, if_true]

theorem opLea_index (he : f.ext.getLsbD 16 = false) (ha : srcS s f 1 = .ok a) (hb : srcS s f 2 = .ok b) :
    opLea f s = .ok (emitS s 0 f.sd
      (a.val + (b.val <<< (f.ext.extractLsb' 13 3).toNat) + (f.ext.extractLsb' 0 13).signExtend 64) 0) := by
  simp only [opLea, ha, hb, he, bind, Except.bind, Bool.false_eq_true, if_false]

theorem opCmp_ok (ha : srcS s f 1 = .ok a) (hb : srcS s f 2 = .ok b) :
    opCmp f s = .ok (emitP s 14 f.pd (cmpInt (f.ext.toNat % 16) 64 a.val b.val) 0) := by
  simp only [opCmp, ha, hb, bind, Except.bind]

theorem opSfcmp_ok (ha : srcS s f 1 = .ok a) (hb : srcS s f 2 = .ok b) :
    opSfcmp f s = .ok (emitP s 14 f.pd (fCmp (f.ext.toNat % 16) (fp32 a).val (fp32 b).val).1
      (fCmp (f.ext.toNat % 16) (fp32 a).val (fp32 b).val).2) := by
  simp only [opSfcmp, ha, hb, bind, Except.bind]

theorem opSigget_ok (ha : srcS s f 1 = .ok a) : opSigget f s = .ok (emitS s 0 f.sd (a.cnt.setWidth 64) 0) := by
  simp only [opSigget, ha, bind, Except.bind]

theorem opSigset_ok (ha : srcS s f 1 = .ok a) (hb : srcS s f 2 = .ok b) :
    opSigset f s = .ok (
      let x : Scalar := ⟨a.val, BitVec.ofNat 5 (clampCount 24 (a.val.toNat % 2 ^ 32) (min b.val.toNat 24))⟩
      emit s 0 [.scalar f.sd x] (.scalar x) 0 none) := by
  simp only [opSigset, ha, hb, bind, Except.bind]

theorem opBri_ok (ha : srcS s f 1 = .ok a) (hb : srcS s f 2 = .ok b) : opBri f s = transferTo s (a.val + (b.val <<< 6)) := by
  simp only [opBri, ha, hb, bind, Except.bind]

theorem opRet_ok (ha : srcS s f 1 = .ok a) : opRet f s = transferTo s a.val := by
  simp only [opRet, ha, bind, Except.bind]

end Sources

/-- What LOOP writes (R160). -/
def loopCount (a : Word) : Word := if a = 0 then 0 else a - 1

section Stages
variable {i : Instr} {s v : State}

theorem Stage.opSel_integer (h : Stage i s v) {f : SRF} {a b : Scalar} (he : f.ext.getLsbD 0 = false) (ha : srcS v f 1 = .ok a)
    (hb : srcS v f 2 = .ok b) : opSel f v = .ok (emitS v 0 f.sd (if s.cur.regs.pred f.pa then a.val else b.val) 0) := by
  simp only [opSel, ha, hb, h.rdP, he, bind, Except.bind, Bool.false_eq_true, if_false, apply_ite Scalar.val]

theorem Stage.opSel_float (h : Stage i s v) {f : SRF} {a b : Scalar} (he : f.ext.getLsbD 0 = true) (ha : srcS v f 1 = .ok a)
    (hb : srcS v f 2 = .ok b) :
    opSel f v = .ok (
      let x := if s.cur.regs.pred f.pa then a else b
      let w : Word := (x.val.setWidth 32).setWidth 64
      let y : Scalar := ⟨w, BitVec.ofNat 5 (clampCount 24 w.toNat x.cnt.toNat)⟩
      emit v 0 [.scalar f.sd y] (.scalar y) 0 none) := by
  simp only [opSel, ha, hb, h.rdP, he, bind, Except.bind, if_true]

theorem Stage.opImm (h : Stage i s v) (f : SIF) (w : Word → Word) :
    Machine.opImm f w v = .ok (emitS v 0 f.sd (w (s.cur.regs.scalar f.sa).val) 0) := by
  simp only [Machine.opImm, h.rdS, bind, Except.bind]

theorem Stage.opPred2 (h : Stage i s v) (f : SRF) (w : Bool → Bool → Bool) :
    Machine.opPred2 f w v = .ok (emitP v 14 f.pd
      (w (s.cur.regs.pred f.pa != f.ext.getLsbD 0) (s.cur.regs.pred f.pb != f.ext.getLsbD 1)) 0) := by
  simp only [Machine.opPred2, h.rdP, bind, Except.bind]

theorem Stage.opPnot (h : Stage i s v) (f : SRF) : Machine.opPnot f v = .ok (emitP v 14 f.pd (!s.cur.regs.pred f.pa) 0) := by
  simp only [Machine.opPnot, h.rdP, bind, Except.bind]

theorem Stage.opBrp (h : Stage i s v) (f : SBF) :
    Machine.opBrp f v = .ok (transferIf (decide ((s.cur.regs.pred f.pa != f.ext.getLsbD 0) = true)) v (sbTarget v f)) := by
  simp only [Machine.opBrp, h.rdP, bind, Except.bind, Bool.decide_eq_true]

theorem Stage.opBrsig (h : Stage i s v) (f : SBF) :
    Machine.opBrsig f v = .ok (transferIf (decide ((s.cur.regs.scalar f.sa).cnt.toNat < f.sb.toNat)) v (sbTarget v f)) := by
  simp only [Machine.opBrsig, h.rdS, bind, Except.bind]

theorem Stage.opLoop (h : Stage i s v) (f : SBF) :
    Machine.opLoop f v = .ok (
      let n := loopCount (s.cur.regs.scalar f.sa).val
      transferIf (n != 0) (emitS v 0 f.sa n 0) (sbTarget v f)) := by
  simp only [Machine.opLoop, h.rdS, bind, Except.bind, loopCount]

end Stages

/-! ### Integer arithmetic, bitwise operations and shifts (R142 to R145) -/

section Shapes
variable {mk : Guard → SRF → Instr} {cls : Nat}

theorem twoScalars_of_opArith (op : Int → Int → Int) (hi : ∀ g f, IssuedAs (mk g f) (opArith f op cls) := by exact fun _ _ => {}) :
    TwoScalars mk cls (fun f a b => tyValue f (op (tyRead f a) (tyRead f b))) (fun f a b => tyFlag f (op (tyRead f a) (tyRead f b))) :=
  fun g f _ _ _ h ha hb => givesScalar_of_emitS (hi g f) h (opArith_ok ha hb op cls)

theorem givesScalar_of_opBin {i : Instr} {r : Word → Word → Word × Flags} {f : SRF} {s : State} {a b : Scalar} {v : Word} {fl : Flags}
    (hi : IssuedAs i (opBin f cls r)) (h : Ready i s) (ha : Src i s f 1 a) (hb : Src i s f 2 b) (hr : r a.val b.val = (v, fl)) :
    GivesScalar i s cls f.sd v fl := by
  have answer := opBin_ok ha hb cls r
  rw [hr] at answer
  exact givesScalar_of_emitS hi h answer

theorem twoScalars_of_opBin {r : Word → Word → Word × Flags} {v : SRF → Word → Word → Word} {fl : SRF → Word → Word → Flags}
    (hr : ∀ f a b, r a b = (v f a b, fl f a b)) (hi : ∀ g f, IssuedAs (mk g f) (opBin f cls r) := by exact fun _ _ => {}) :
    TwoScalars mk cls v fl :=
  fun g f _ a b h ha hb => givesScalar_of_opBin (hi g f) h ha hb (hr f a.val b.val)

theorem twoScalars_of_pure2 (v : Word → Word → Word) (hi : ∀ g f, IssuedAs (mk g f) (opBin f cls (pure2 v)) := by exact fun _ _ => {}) :
    TwoScalars mk cls (fun _ a b => v a b) noFlag :=
  twoScalars_of_opBin (fun _ _ _ => rfl) hi

theorem oneScalar_of_opUn (v : Word → Word) (hi : ∀ g f, IssuedAs (mk g f) (opUn f v) := by exact fun _ _ => {}) :
    OneScalar mk 0 (fun _ a => v a) :=
  fun g f _ _ h ha => givesScalar_of_emitS (hi g f) h (opUn_ok ha v)

theorem shifts_of_opShift (v : Word → Nat → Word) (hi : ∀ g f, IssuedAs (mk g f) (opShift f v) := by exact fun _ _ => {}) :
    Shifts mk v :=
  ⟨fun g f _ _ _ h he ha hb => givesScalar_of_emitS (hi g f) h (opShift_register he ha hb v),
    fun g f _ _ h he ha => givesScalar_of_emitS (hi g f) h (opShift_field he ha v)⟩

theorem twoPredicates_of_opPred2 (v : Bool → Bool → Bool) (hi : ∀ g f, IssuedAs (mk g f) (opPred2 f v) := by exact fun _ _ => {}) :
    TwoPredicates mk v :=
  fun g f _ h => givesPred_of_emitP (hi g f) h ((stage_self h).opPred2 f v)

theorem immediate_of_opImm {mk : Guard → SIF → Instr} (v : Word → BitVec 38 → Word)
    (hi : ∀ g f, IssuedAs (mk g f) (opImm f (fun a => v a f.imm)) := by exact fun _ _ => {}) : Immediate mk v :=
  fun g f _ h => givesScalar_of_emitS (hi g f) h ((stage_self h).opImm f _)

end Shapes

/-- Settles O1: each operation reads its sources at TY, and the exact result is narrowed to TY. -/
theorem scalarArithmeticCompletes : Obligations.ScalarArithmeticCompletes :=
  ⟨twoScalars_of_opArith (· + ·), twoScalars_of_opArith (· - ·), twoScalars_of_opArith (· * ·),
    twoScalars_of_pure2 mulHigh, twoScalars_of_pure2 mulHighN⟩

section Division
variable (f : SRF) (a b : Word)

theorem divS_eq : divS a b = (if b = 0 then BitVec.allOnes 64 else BitVec.ofInt 64 (a.toInt.tdiv b.toInt), dzFlag f a b) := by
  unfold divS dzFlag
  split <;> rfl

theorem divN_eq : divN a b = (if b = 0 then 0xFFFFFFFFFFFFFFFF else a / b, dzFlag f a b) := by
  unfold divN dzFlag
  split
  · rfl
  · rw [BitVec.udiv_def]

theorem remS_eq : remS a b = (if b = 0 then a else BitVec.ofInt 64 (a.toInt.tmod b.toInt), dzFlag f a b) := by
  unfold remS dzFlag
  split <;> rfl

theorem remN_eq : remN a b = (if b = 0 then a else a % b, dzFlag f a b) := by
  unfold remN dzFlag
  split
  · rfl
  · rw [BitVec.umod_def]

end Division

/-- The one quotient beyond 64 bits wraps, and its remainder is 0 (R144). -/
theorem divS_minimum_by_minusOne : divS 0x8000000000000000 0xFFFFFFFFFFFFFFFF = (0x8000000000000000, 0) := by decide
theorem remS_minimum_by_minusOne : remS 0x8000000000000000 0xFFFFFFFFFFFFFFFF = (0, 0) := by decide

/-- Settles O2: a zero divisor gives its own result with DZ, any other the quotient or remainder, and none traps. -/
theorem divisionNeverFaults : Obligations.DivisionNeverFaults := by
  refine ⟨twoScalars_of_opBin divS_eq, twoScalars_of_opBin divN_eq, twoScalars_of_opBin remS_eq, twoScalars_of_opBin remN_eq,
    fun f g s a b hn hd => ⟨fun h ha hb => givesScalar_of_opBin {} h ha hb ?_, fun h ha hb => givesScalar_of_opBin {} h ha hb ?_⟩⟩
  · rw [hn, hd]
    exact divS_minimum_by_minusOne
  · rw [hn, hd]
    exact remS_minimum_by_minusOne

theorem scalarBitwiseCompletes : ScalarBitwiseCompletes :=
  ⟨twoScalars_of_pure2 _, twoScalars_of_pure2 _, twoScalars_of_pure2 _, twoScalars_of_pure2 _, twoScalars_of_pure2 _,
    twoScalars_of_pure2 _, twoScalars_of_pure2 _, twoScalars_of_pure2 _, oneScalar_of_opUn _, oneScalar_of_opUn _, oneScalar_of_opUn _⟩

theorem scalarShiftsComplete : ScalarShiftsComplete :=
  ⟨shifts_of_opShift _, shifts_of_opShift _, shifts_of_opShift _, shifts_of_opShift _⟩

/-- Settles O3: each operation emits its result on the sources, a shift by the amount of its form. -/
theorem scalarBitwiseAndShiftsComplete : Obligations.ScalarBitwiseAndShiftsComplete := ⟨scalarBitwiseCompletes, scalarShiftsComplete⟩

/-! ### Moves, immediates and counts (R146 to R148, R155) -/

/-- MOVI reads no register. -/
theorem movi_immediate : Immediate .movi (fun _ m => m.signExtend 64) :=
  fun _ _ _ h => givesScalar_of_emitS (run := opMovi _) {} h rfl

theorem scalarMovesComplete : ScalarMovesComplete := by
  refine ⟨fun g f s a b h he ha hb => ?_, fun g f s a b h he ha hb => ?_, fun g f s a h he ha => ?_, fun g f s a b h he ha hb => ?_,
    immediate_of_opImm _, immediate_of_opImm _, immediate_of_opImm _, immediate_of_opImm _, movi_immediate, immediate_of_opImm _⟩
  · exact givesScalar_of_emitS {} h ((stage_self h).opSel_integer he ha hb)
  · exact gives_of_emit h rfl ((stage_self h).opSel_float he ha hb) rfl rfl
  · exact givesScalar_of_emitS {} h (opLea_disp he ha)
  · exact givesScalar_of_emitS {} h (opLea_index he ha hb)

theorem scalarCountsComplete : ScalarCountsComplete :=
  ⟨fun _ _ _ _ h ha => givesScalar_of_emitS {} h (opSigget_ok ha),
    fun _ _ _ _ _ h ha hb => gives_of_emit h rfl (opSigset_ok ha hb) rfl rfl⟩

/-- Settles O9: the moves, the immediates and the operations on counts each emit one result; the FP form of SEL and SIGSET clamp the
count they move. -/
theorem scalarMovesAndCountsComplete : Obligations.ScalarMovesAndCountsComplete := ⟨scalarMovesComplete, scalarCountsComplete⟩

/-! ### Comparisons and predicates (R149, R150, R152) -/

/-- Settles O4: each operation emits its predicate, a comparison of floating-point values with the flags of that comparison. -/
theorem predicatesComplete : Obligations.PredicatesComplete :=
  ⟨fun _ _ _ _ _ h ha hb => givesPred_of_emitP {} h (opCmp_ok ha hb),
    fun _ _ _ _ _ h ha hb => givesPred_of_emitP {} h (opSfcmp_ok ha hb),
    twoPredicates_of_opPred2 _, twoPredicates_of_opPred2 _, twoPredicates_of_opPred2 _,
    fun _ f _ h => givesPred_of_emitP {} h ((stage_self h).opPnot f)⟩

/-! ### Transfers of control (R156 to R160) -/

theorem transferTo_aligned {s : State} {t : Word} (h : t.toNat % 64 = 0) : transferTo s t = .ok (transfer s t true) := by
  have low : bitsOf 0 6 t.toNat = 0 := h
  simp only [transferTo, low, bne_self_eq_false, Bool.false_eq_true, if_false]

/-- A bundle whose operation answers with a transfer and no result goes to its target. -/
theorem movesTo_of_transfer {i : Instr} {run : State → Op State} {s : State} {pc : Word} {ind : Bool} (hi : IssuedAs i run)
    (h : Ready i s) (hr : run (staged i s) = .ok (transfer (staged i s) pc ind)) : MovesTo i s pc (if ind then 3 else 2) :=
  moves_of_transfer h (hi.exec_eq s) hr hi.notRett hi.notCread

/-- A conditional transfer goes to its target in 2 cycles, or on to the next bundle. -/
theorem movesTo_of_transferIf {i : Instr} {run : State → Op State} {s : State} {pc : Word} {p : Prop} [Decidable p]
    (hi : IssuedAs i run) (h : Ready i s) (hr : run (staged i s) = .ok (transferIf (decide p) (staged i s) pc)) :
    if p then MovesTo i s pc 2 else MovesTo i s (s.cur.pc + 64) 1 := by
  split
  case isTrue taken =>
    rw [decide_eq_true taken] at hr
    exact movesTo_of_transfer hi h hr
  case isFalse notTaken =>
    rw [decide_eq_false notTaken] at hr
    exact moves_of_stay h (hi.exec_eq s) hr hi.notRett hi.notCread

theorem directTransfersComplete : DirectTransfersComplete := by
  refine ⟨fun g f s h => ?_, fun g f s h => ?_, fun g f s h => ?_, fun g f s h => ?_⟩
  · exact movesTo_of_transfer (run := opBr f) {} h rfl
  · exact movesTo_of_transferIf {} h ((stage_self h).opBrp f)
  · exact movesTo_of_transferIf {} h ((stage_self h).opBrsig f)
  · exact gives_of_transfer (run := opCall f) h rfl rfl rfl rfl

theorem indirectTransfersComplete : IndirectTransfersComplete :=
  ⟨fun _ _ _ _ _ h ha hb hal => movesTo_of_transfer {} h ((opBri_ok ha hb).trans (transferTo_aligned hal)),
    fun _ _ _ _ h ha hal => movesTo_of_transfer {} h ((opRet_ok ha).trans (transferTo_aligned hal))⟩

/-- Settles O7: each transfer notes its target where its condition holds, and the bundle's retirement goes there. -/
theorem transfersComplete : Obligations.TransfersComplete := ⟨directTransfersComplete, indirectTransfersComplete⟩

theorem loopCount_spent {a : Word} (h : a.toNat ≤ 1) : loopCount a = 0 := by
  unfold loopCount
  split
  · rfl
  · bv_omega

theorem loopCount_left {a : Word} (h : 1 < a.toNat) : loopCount a = a - 1 ∧ loopCount a ≠ 0 := by
  have nonzero : a ≠ 0 := by bv_omega
  rw [loopCount, if_neg nonzero]
  exact ⟨rfl, by bv_omega⟩

/-- LOOP that comes to 0 writes it and falls through. -/
theorem loop_spent {g : Guard} {f : SBF} {s : State} (h : Ready (.loop g f) s) (ha : (s.cur.regs.scalar f.sa).val.toNat ≤ 1) :
    GivesScalar (.loop g f) s 0 f.sa 0 0 := by
  have answer := (stage_self h).opLoop f
  rw [loopCount_spent ha] at answer
  exact givesScalar_of_emitS {} h answer

/-- Settles O6: a count of 0 or 1 is spent; a greater one less 1 is not 0, so LOOP transfers. -/
theorem loopCountsDown : Obligations.LoopCountsDown := by
  intro g f s h
  dsimp only
  refine ⟨fun ha => loop_spent h (by simp [ha]), fun ha => loop_spent h (by simp [ha]), fun ha => ?_⟩
  obtain ⟨value, nonzero⟩ := loopCount_left ha
  have answer := (stage_self h).opLoop f
  dsimp only at answer
  rw [bne_iff_ne.mpr nonzero, value] at answer
  exact gives_of_transfer h rfl answer rfl rfl

end Sys2Proof.Machine
end

section
/-!
PROOFS. Integer arithmetic without SAT wraps, scalar and lane-wise (06 R142; 07 R173): reading a source and narrowing a result both keep a
number modulo 2^n.
-/
namespace Sys2Proof.Machine

open Sys2Proof.Claims

/-! ### Numbers modulo 2^n -/

/-- Two integers with the same residue modulo 2^n (the package's modules have no Mathlib, so not `Int.ModEq`). -/
def SameMod (n : Nat) (x y : Int) : Prop := x % (2 ^ n : Nat) = y % (2 ^ n : Nat)

section Residues
variable {n : Nat} {x y z w : Int}

theorem SameMod.trans (h : SameMod n x y) (k : SameMod n y z) : SameMod n x z := Eq.trans h k

theorem SameMod.add (h : SameMod n x y) (k : SameMod n z w) : SameMod n (x + z) (y + w) := by
  unfold SameMod at h k ⊢
  rw [Int.add_emod, h, k, ← Int.add_emod]

theorem SameMod.sub (h : SameMod n x y) (k : SameMod n z w) : SameMod n (x - z) (y - w) := by
  unfold SameMod at h k ⊢
  rw [Int.sub_emod, h, k, ← Int.sub_emod]

theorem SameMod.mul (h : SameMod n x y) (k : SameMod n z w) : SameMod n (x * z) (y * w) := by
  unfold SameMod at h k ⊢
  rw [Int.mul_emod, h, k, ← Int.mul_emod]

/-- A multiple of 2^n more is the same residue. -/
theorem SameMod.addMul (n : Nat) (x m : Int) : SameMod n (x + (2 ^ n : Nat) * m) x := Int.add_mul_emod_self_left x _ m

theorem SameMod.emod (n : Nat) (x : Int) : SameMod n (x % (2 ^ n : Nat)) x := Int.emod_emod x _

theorem SameMod.natMod (n k : Nat) : SameMod n ((k % 2 ^ n : Nat) : Int) k := SameMod.emod n k

end Residues

/-- Subtracting `y` is adding its complement to 2^n. -/
theorem sub_sameMod (n x y : Nat) : SameMod n ((x : Int) - y) ((x + (2 ^ n - y % 2 ^ n) : Nat) : Int) := by
  have below : y % 2 ^ n < 2 ^ n := Nat.mod_lt _ (Nat.two_pow_pos n)
  have quotient := Nat.mod_add_div y (2 ^ n)
  have complement : ((x + (2 ^ n - y % 2 ^ n) : Nat) : Int) = (x - y : Int) + (2 ^ n : Nat) * ((y / 2 ^ n + 1 : Nat) : Int) := by
    rw [← Int.natCast_mul, Nat.mul_add, Nat.mul_one]
    omega
  rw [complement]
  exact (SameMod.addMul n _ _).symm

theorem sextN_sameMod (n x : Nat) : SameMod n (sextN n x) x := by
  refine SameMod.trans ?_ (SameMod.natMod n x)
  unfold sextN
  dsimp only
  split
  case isTrue => exact Int.sub_emod_right _ _
  case isFalse => rfl

/-- Reading at a width, signed or not, keeps the value modulo 2^n. -/
theorem readInt_sameMod (signed : Bool) (n x : Nat) : SameMod n (readInt signed n x) x := by
  cases signed with
  | false => exact SameMod.natMod n x
  | true => exact sextN_sameMod n x

theorem wrapN_congr {n : Nat} {x y : Int} (h : SameMod n x y) : wrapN n x = wrapN n y := congrArg Int.toNat h

theorem wrapN_natCast (n k : Nat) : wrapN n k = k % 2 ^ n := rfl

theorem wrapN_sameMod (n : Nat) (x : Int) : SameMod n (wrapN n x) x := by
  have positive : 0 < 2 ^ n := Nat.two_pow_pos n
  have nonneg : 0 ≤ x % (2 ^ n : Nat) := Int.emod_nonneg x (by omega)
  unfold wrapN
  rw [Int.toNat_of_nonneg nonneg]
  exact SameMod.emod n x

theorem ofInt_congr {n : Nat} {x y : Int} (h : SameMod n x y) : BitVec.ofInt n x = BitVec.ofInt n y :=
  BitVec.eq_of_toNat_eq (wrapN_congr h)

theorem ofInt_sub (n : Nat) (x y : Int) : BitVec.ofInt n (x - y) = BitVec.ofInt n x - BitVec.ofInt n y := by
  rw [BitVec.eq_sub_iff_add_eq, ← BitVec.ofInt_add, Int.sub_add_cancel]

/-! ### Scalars (R142) -/

section Wide
variable {f : SRF} (hty : f.ext.toNat % 8 ≤ 1)
include hty

theorem ofInt_tyRead (a : Word) : BitVec.ofInt 64 (tyRead f a) = a := by
  unfold tyRead tyBits
  rw [if_pos hty, ofInt_congr (readInt_sameMod _ 64 a.toNat), BitVec.ofInt_natCast, BitVec.ofNat_toNat, BitVec.setWidth_eq]

theorem tyValue_wide (hsat : f.ext.getLsbD 3 = false) (x : Int) : tyValue f x = BitVec.ofInt 64 x := by
  unfold tyValue narrowTy tyBits
  simp only [if_pos hty, hsat, Bool.false_eq_true, if_false]
  split
  case isTrue => exact ofInt_congr ((readInt_sameMod true 64 _).trans (wrapN_sameMod 64 x))
  case isFalse =>
    rw [← BitVec.ofInt_natCast]
    exact ofInt_congr (wrapN_sameMod 64 x)

end Wide

theorem tyFlag_unsaturated {f : SRF} (hsat : f.ext.getLsbD 3 = false) (x : Int) : tyFlag f x = 0 := by
  simp only [tyFlag, narrowTy, hsat, Bool.false_and, Bool.false_eq_true, if_false]

theorem scalarArithmeticWraps : ScalarArithmeticWraps := by
  obtain ⟨add, sub, mul, -, -⟩ := scalarArithmeticCompletes
  intro g f s a b hty hsat
  refine ⟨fun h ha hb => ?_, fun h ha hb => ?_, fun h ha hb => ?_⟩
  · simpa only [tyValue_wide hty hsat, tyFlag_unsaturated hsat, BitVec.ofInt_add, ofInt_tyRead hty] using add g f s a b h ha hb
  · simpa only [tyValue_wide hty hsat, tyFlag_unsaturated hsat, ofInt_sub, ofInt_tyRead hty] using sub g f s a b h ha hb
  · simpa only [tyValue_wide hty hsat, tyFlag_unsaturated hsat, BitVec.ofInt_mul, ofInt_tyRead hty] using mul g f s a b h ha hb

/-! ### Lanes (R173) -/

section Lanes
variable {f : VF}

theorem outInt_unsaturated (hsat : vSat f = false) (x : Int) : outInt f x = ⟨wrapN (vBits f) x, 0, 0⟩ := by
  simp only [outInt, intLane, hsat, Bool.false_and, Bool.false_eq_true, if_false]

theorem laneInt_sameMod (a : Lane) : SameMod (vBits f) (laneInt f a) a.val := readInt_sameMod _ _ _

/-- Without SAT an exact result is the natural number of the same residue, modulo 2^n. -/
theorem outInt_of_sameMod (hsat : vSat f = false) {x : Int} {k : Nat} (h : SameMod (vBits f) x k) :
    outInt f x = ⟨k % 2 ^ vBits f, 0, 0⟩ := by
  rw [outInt_unsaturated hsat, wrapN_congr h, wrapN_natCast]

variable (hsat : vSat f = false) (a b : Lane)
include hsat

theorem outInt_add : outInt f (laneInt f a + laneInt f b) = ⟨(a.val + b.val) % 2 ^ vBits f, 0, 0⟩ :=
  outInt_of_sameMod hsat ((laneInt_sameMod a).add (laneInt_sameMod b))

theorem outInt_sub :
    outInt f (laneInt f a - laneInt f b) = ⟨(a.val + (2 ^ vBits f - b.val % 2 ^ vBits f)) % 2 ^ vBits f, 0, 0⟩ :=
  outInt_of_sameMod hsat (((laneInt_sameMod a).sub (laneInt_sameMod b)).trans (sub_sameMod _ _ _))

theorem outInt_mul : outInt f (laneInt f a * laneInt f b) = ⟨(a.val * b.val) % 2 ^ vBits f, 0, 0⟩ :=
  outInt_of_sameMod hsat ((laneInt_sameMod a).mul (laneInt_sameMod b))

end Lanes

theorem vecTwo_of_vInt2 {mk : Guard → Bool → VF → Instr} (op : Int → Int → Int)
    (hi : ∀ g inB f, IssuedAs (mk g inB f) (vInt2 f inB op) := by exact fun _ _ _ => {}) :
    VecTwo mk 4 intTag (fun f a b => outInt f (op (laneInt f a) (laneInt f b))) :=
  vecTwo_of_vOp2 hi

theorem vaddCompletes : VecTwo .vadd 4 intTag (fun f a b => outInt f (laneInt f a + laneInt f b)) := vecTwo_of_vInt2 (· + ·)
theorem vsubCompletes : VecTwo .vsub 4 intTag (fun f a b => outInt f (laneInt f a - laneInt f b)) := vecTwo_of_vInt2 (· - ·)
theorem vmulCompletes : VecTwo .vmul 4 intTag (fun f a b => outInt f (laneInt f a * laneInt f b)) := vecTwo_of_vInt2 (· * ·)

theorem vectorLanesWrap : VectorLanesWrap := by
  refine ⟨fun g inB f s a b la lb hsat hla hlb hm => ⟨fun h ha hb => ?_, fun h ha hb => ?_, fun h ha hb => ?_⟩,
    fun f hsat a b _ hb => ⟨outInt_add hsat a b, ?_, outInt_mul hsat a b⟩⟩
  · simpa only [outInt_add hsat] using vaddCompletes g inB f s a b la lb h ha hb hla hlb hm
  · simpa only [outInt_sub hsat] using vsubCompletes g inB f s a b la lb h ha hb hla hlb hm
  · simpa only [outInt_mul hsat] using vmulCompletes g inB f s a b la lb h ha hb hla hlb hm
  · rw [outInt_sub hsat, Nat.mod_eq_of_lt hb, Nat.add_sub_assoc (Nat.le_of_lt hb)]

/-- Settles O16: reading a source keeps it modulo 2^n, so the narrowed exact result is the result modulo 2^n. -/
theorem arithmeticWraps : Obligations.ArithmeticWraps := ⟨scalarArithmeticWraps, vectorLanesWrap⟩

end Sys2Proof.Machine
end

section
/-!
PROOFS. How slots A and B deliver a result (07 R168 to R172): a row whole or under its write mask, over the base row where the operation
produces part of it; the format fault where the mask does not fit the destination's tag; results without a write mask.
-/
namespace Sys2Proof.Machine

open Sys2Proof.Claims

-- one proof after the other: the stacks of proofs that wait side by side outgrow the memory of the check
set_option Elab.async false

/-! ### What a stage shows of the state before the bundle -/

section Staged
variable (i : Instr) (s : State)

@[simp] theorem staged_planeW : planeW (staged i s).cur = planeW s.cur := rfl
@[simp] theorem staged_cb : (staged i s).cur.cb = s.cur.cb := rfl

theorem needPL_staged {r : Row} (h : r.tag = tagPL (planeW s.cur)) : needPL (staged i s) r = .ok () := by
  simp only [needPL, need, staged_planeW, h, decide_true, if_true]

end Staged

/-! ### Tags of rows -/

@[simp] theorem bitRow_tag (tag : Byte) (v : RowBits) : (bitRow tag v).tag = tag := by
  unfold bitRow
  split <;> rfl

/-- PL of every width has FMT 8 (R95). -/
theorem tagFmt_tagPL (w : Nat) : tagFmt (tagPL w) = 8 := by
  simp only [tagFmt, tagPL, BitVec.toNat_ofNat]
  omega

theorem bitRow_tagPL (w : Nat) (v : RowBits) : bitRow (tagPL w) v = rowOfSlots (tagPL w) (lanesOf 128 16 v.toNat) :=
  if_pos (tagFmt_tagPL w)

/-! ### The base row (R170) -/

section Base
variable {i : Instr} {s v : State} (h : Stage i s v) (inB : Bool) (f : VF) (tag : Byte)
include h

theorem Stage.baseRow : Machine.baseRow v inB f tag = .ok (oldRow f s tag) := by
  simp only [Machine.baseRow, oldRow, h.dstRow, h.rdOld, bind, Except.bind]
  cases f.t <;> by_cases ht : (s.cur.regs.row f.dst.toNat).tag = tag <;> simp [ht]

theorem Stage.baseSlots : Machine.baseSlots v inB f tag = .ok (oldSlots f s tag) := by
  simp only [Machine.baseSlots, oldSlots, h.dstRow, h.rdOld, bind, Except.bind]
  cases f.t <;> by_cases ht : (s.cur.regs.row f.dst.toNat).tag = tag <;> simp [ht]

theorem Stage.putPart (cls i0 : Nat) (l : List Lane) (chk : Bool) :
    Machine.putPart v inB f cls tag i0 l chk = Machine.putRow v inB f cls (partRow f s tag i0 l) (numbered i0 l) chk := by
  simp only [Machine.putPart, h.baseRow, bind, Except.bind, partRow]

end Base

/-! ### A row under the write mask (R169) -/

/-- A write mask into a row of another tag is a format fault. -/
theorem Stage.putRow_tagFault {i : Instr} {s v : State} (h : Stage i s v) (inB : Bool) (f : VF) (cls : Nat) (new : Row)
    (lanes : List (Nat × Lane)) (chk : Bool) (hm : maskFits f s new.tag = false) :
    Machine.putRow v inB f cls new lanes chk = trapOp 0x03 0 := by
  simp only [maskFits, Bool.or_eq_false_iff, decide_eq_false_iff_not] at hm
  obtain ⟨⟨notT, masked⟩, other⟩ := hm
  simp only [Machine.putRow, h.rdK, h.dstRow, h.rdOld, notT, if_neg masked, bne_iff_ne.mpr other, bind, Except.bind,
    Bool.false_eq_true, if_false, if_true]

/-- Nothing holds the bundle of operation `i`, and the operation delivers row `new` and its lanes under the write mask; it may have taken
free values. -/
def Delivers (i : Instr) (inB : Bool) (f : VF) (s : State) (cls : Nat) (new : Row) (lanes : List (Nat × Lane))
    (chk : Bool := false) : Prop :=
  Ready i s ∧ ∃ run m, IssuedAs i run ∧ run (staged i s) = putRow { staged i s with fresh := m } inB f cls new lanes chk

section Delivers
variable {i : Instr} {inB : Bool} {f : VF} {s : State} {cls : Nat} {new : Row} {lanes : List (Nat × Lane)} {chk : Bool}

theorem delivers_of_putRow {run : State → Op State} (hi : IssuedAs i run) (h : Ready i s)
    (hr : run (staged i s) = putRow (staged i s) inB f cls new lanes chk) : Delivers i inB f s cls new lanes chk :=
  ⟨h, run, s.fresh, hi, hr⟩

/-- Where the mask fits the destination, the bundle completes with the row. -/
theorem Delivers.givesRow (d : Delivers i inB f s cls new lanes chk) (hm : maskFits f s new.tag = true) :
    GivesRow i f s cls new lanes chk := by
  obtain ⟨h, run, m, hi, hr⟩ := d
  have stage : Stage i s { staged i s with fresh := m } := ⟨h, rfl⟩
  exact gives_of_stage h (hi.exec_eq s) (hr.trans (stage.putRow inB f cls new lanes chk hm)) hi.slot hi.notRett hi.notCread

/-- Where it does not, the bundle takes the precise trap of a format fault. -/
theorem Delivers.needsTag (d : Delivers i inB f s cls new lanes chk) {tag : Byte} (ht : new.tag = tag := by rfl) :
    NeedsTag i f s tag := by
  obtain ⟨h, run, m, hi, hr⟩ := d
  subst ht
  intro hm
  have stage : Stage i s { staged i s with fresh := m } := ⟨h, rfl⟩
  have fault := hr.trans (stage.putRow_tagFault inB f cls new lanes chk hm)
  exact (hi.exec_eq s).trans (issueOne_trap (k := { cls := 0x03, sub := 0 }) h fault (by decide) hi.notCread)

end Delivers

/-! ### Results without a write mask -/

section Results
variable {i : Instr} {run : State → Op State} {s : State} {inB : Bool} {f : VF} {cls : Nat} {new : Row} {x : Scalar} {m : Mask}
  {fl : Flags} {below : Option Nat} (hi : IssuedAs i run) (h : Ready i s)
include hi h

theorem givesWhole_of_putWhole (hr : run (staged i s) = putWhole (staged i s) inB f cls new fl below) :
    GivesWhole i f s cls new fl below :=
  gives_of_emit h (hi.exec_eq s) (hr.trans ((stage_self h).putWhole inB f cls new fl below)) hi.slot hi.notRett hi.notCread

theorem gives_of_putScalar (hr : run (staged i s) = putScalar (staged i s) f cls x fl below) :
    Gives i s cls [.scalar (f.dst.setWidth 5) x] (.scalar x) fl below :=
  gives_of_emit h (hi.exec_eq s) hr hi.slot hi.notRett hi.notCread

theorem gives_of_putMask (hr : run (staged i s) = putMask (staged i s) f m fl) :
    Gives i s 14 [.mask (f.dst.setWidth 3) m] (.mask m) fl :=
  gives_of_emit h (hi.exec_eq s) hr hi.slot hi.notRett hi.notCread

/-- SD sends a result of class 9 to a scalar or to a row (R189). -/
theorem gives_of_scalarOrRow (hr : run (staged i s)
      = if f.mod.getLsbD 3 then putScalar (staged i s) f 9 x fl below else putWhole (staged i s) inB f 9 new fl below) :
    if f.mod.getLsbD 3 then Gives i s 9 [.scalar (f.dst.setWidth 5) x] (.scalar x) fl below
    else GivesWhole i f s 9 new fl below := by
  split at hr
  case isTrue sd =>
    rw [if_pos sd]
    exact gives_of_putScalar hi h hr
  case isFalse sd =>
    rw [if_neg sd]
    exact givesWhole_of_putWhole hi h hr

end Results

end Sys2Proof.Machine
end

section
/-!
PROOFS. What each form of slots A and B that writes under a mask delivers where its sources are readable (07 R173, R181 to R186, R190 to
R192).
-/
namespace Sys2Proof.Machine

open Sys2Proof.Claims

-- one proof after the other: the stacks of proofs that wait side by side outgrow the memory of the check
set_option Elab.async false

/-! ### Typed lanes -/

section Typed
variable {i : Instr} {inB chk : Bool} {f : VF} {s : State} {cls : Nat} {tag : Byte} {a b c : Opd} {la lb lc : List Lane}

theorem delivers_of_vOp1 {v : Lane → Lane} (hi : IssuedAs i (vOp1 f inB cls tag chk v)) (h : Ready i s) (ha : VSrc i inB s 0 f.a a)
    (hla : Lanes tag a la) : Delivers i inB f s cls (rowOfLanes tag (la.map v)) (numbered 0 (la.map v)) chk :=
  delivers_of_putRow hi h (vOp1_ok v ha hla)

theorem delivers_of_vOp2 {v : Lane → Lane → Lane} (hi : IssuedAs i (vOp2 f inB cls tag chk v)) (h : Ready i s)
    (ha : VSrc i inB s 0 f.a a) (hb : VSrc i inB s 1 f.b b) (hla : Lanes tag a la) (hlb : Lanes tag b lb) :
    Delivers i inB f s cls (rowOfLanes tag (zip2 v la lb)) (numbered 0 (zip2 v la lb)) chk :=
  delivers_of_putRow hi h (vOp2_ok v ha hb hla hlb)

theorem delivers_of_vOp3 {v : Lane → Lane → Lane → Lane} (hi : IssuedAs i (vOp3 f inB cls tag chk v)) (h : Ready i s)
    (ha : VSrc i inB s 0 f.a a) (hb : VSrc i inB s 1 f.b b) (hc : VSrc i inB s 2 f.c c) (hla : Lanes tag a la) (hlb : Lanes tag b lb)
    (hlc : Lanes tag c lc) : Delivers i inB f s cls (rowOfLanes tag (zip3 v la lb lc)) (numbered 0 (zip3 v la lb lc)) chk :=
  delivers_of_putRow hi h (vOp3_ok v ha hb hc hla hlb hlc)

theorem delivers_of_vTrans {op : TransOp} (hi : IssuedAs i (vTrans f inB op)) (h : Ready i s) (ha : VSrc i inB s 0 f.a a)
    (hla : Lanes (vFtag f) a la) :
    let l := (numbered 0 la).map (transLane (vFp f) op s.fresh)
    Delivers i inB f s 6 (rowOfLanes (vFtag f) l) (numbered 0 l) true :=
  ⟨h, _, s.fresh + 1, hi, vTrans_ok op ha hla⟩

theorem delivers_of_vBit2 {v : RowBits → RowBits → RowBits} (hi : IssuedAs i (vBit2 f inB v)) (h : Ready i s)
    (ha : VSrc i inB s 0 f.a a) (hb : VSrc i inB s 1 f.b b) (ht : firstTag a b = .ok tag) :
    Delivers i inB f s 4 (bitRow tag (v (bitsIn tag a) (bitsIn tag b))) [] := by
  unfold VSrc at ha hb
  exact delivers_of_putRow hi h (by simp only [vBit2, ha, hb, ht, bind, Except.bind])

end Typed

/-! ### Rows -/

section Rows
variable {g : Guard} {inB : Bool} {f : VF} {s : State} {a b : Row}

theorem vnot_delivers (h : Ready (.vnot g inB f) s) (ha : VRow (.vnot g inB f) inB s 0 f.a a) :
    Delivers (.vnot g inB f) inB f s 4 (bitRow a.tag (~~~a.val)) [] := by
  unfold VRow at ha
  exact delivers_of_putRow (run := opVnot inB f) {} h (by simp only [opVnot, ha, bind, Except.bind])

theorem vmov_delivers (h : Ready (.vmov g inB f) s) (ha : VRow (.vmov g inB f) inB s 0 f.a a) :
    Delivers (.vmov g inB f) inB f s 4 a [] := by
  unfold VRow at ha
  exact delivers_of_putRow (run := opVmov inB f) {} h (by simp only [opVmov, ha, bind, Except.bind])

/-- VSIG delivers the trust plane as bytes (R138, R192). -/
theorem vsig_delivers (h : Ready (.vsig g inB f) s) (ha : VRow (.vsig g inB f) inB s 0 f.a a) :
    Delivers (.vsig g inB f) inB f s 4 ⟨a.trust.setWidth 2048, 0, tagI8⟩ [] := by
  unfold VRow at ha
  exact delivers_of_putRow (run := opVsig inB f) {} h (by simp only [opVsig, ha, bind, Except.bind])

/-! ### Conversions and the codebook (R181 to R183) -/

/-- VCVT delivers the part that C names of the longer row. -/
theorem vcvt_delivers (h : Ready (.vcvt g inB f) s) (ha : VRow (.vcvt g inB f) inB s 0 f.a a) (hs : cvtSource a.tag = true) :
    let sf := tagFmt a.tag
    let df := f.c.toNat % 16
    let m := min (laneCount sf) (laneCount df)
    let part := bitsOf 7 3 f.c.toNat
    let l := (((rowLanes a).drop (if m < laneCount sf then part * m else 0)).take m).map
      (cvtLane sf df (!f.c.getLsbD 5) (!f.c.getLsbD 4) (f.c.getLsbD 6) (vRm f))
    let i0 := if m < laneCount df then part * m else 0
    part < max (laneCount sf) (laneCount df) / m →
      Delivers (.vcvt g inB f) inB f s 7 (partRow f s (BitVec.ofNat 8 df) i0 l) (numbered i0 l) (sf != df) := by
  dsimp only
  intro hp
  unfold VRow at ha
  refine delivers_of_putRow (run := opVcvt inB f) {} h ?_
  simp only [opVcvt, ha, hs, if_neg (Nat.not_le.mpr hp), (stage_self h).putPart, bind, Except.bind, Bool.not_true, Bool.false_eq_true,
    if_false]

theorem vcbdec_delivers (h : Ready (.vcbdec g inB f) s) (ha : VRow (.vcbdec g inB f) inB s 0 f.a a) (ht : a.tag = tagCB4)
    (hv : s.cur.cb.valid = true) :
    let l : List Lane := (((rowLanes a).drop (128 * bitsOf 7 3 f.c.toNat)).take 128).map fun x =>
      ⟨cbEntry s.cur.cb x.val, clampCount 8 (cbEntry s.cur.cb x.val) s.cur.cb.trust, 0⟩
    Delivers (.vcbdec g inB f) inB f s 7 (rowOfLanes tagBF16 l) (numbered 0 l) true := by
  unfold VRow at ha
  refine delivers_of_putRow (run := opVcbdec inB f) {} h ?_
  simp only [opVcbdec, ha, ht, staged_cb, hv, bind, Except.bind, bne_self_eq_false, Bool.not_true, Bool.or_false, Bool.false_eq_true,
    if_false]
  rfl

/-- VCBENC takes a free value for each lane, whether or not its code needs one (log 12). -/
theorem vcbenc_delivers (h : Ready (.vcbenc g inB f) s) (ha : VRow (.vcbenc g inB f) inB s 0 f.a a) (ht : a.tag = tagBF16)
    (hv : s.cur.cb.valid = true) :
    let l := (numbered 0 (rowLanes a)).map fun x => encodeCb s.cur.cb (Config.freeNat (s.fresh + x.1)) x.2.val
    let i0 := 128 * bitsOf 7 3 f.c.toNat
    Delivers (.vcbenc g inB f) inB f s 7 (partRow f s tagCB4 i0 l) (numbered i0 l) := by
  intro l i0
  unfold VRow at ha
  have stage : Stage (.vcbenc g inB f) s { staged (.vcbenc g inB f) s with fresh := s.fresh + 128 } := ⟨h, rfl⟩
  refine ⟨h, opVcbenc inB f, s.fresh + 128, {}, ?_⟩
  rw [← stage.putPart]
  simp only [opVcbenc, ha, ht, staged_cb, hv, bind, Except.bind, bne_self_eq_false, Bool.not_true, Bool.or_false, Bool.false_eq_true,
    if_false]
  rfl

/-! ### Bit planes (R184 to R186) -/

/-- VPLANE delivers the slots of one group among those of the base row. -/
theorem vplane_delivers (h : Ready (.vplane g inB f) s) (ha : VRow (.vplane g inB f) inB s 0 f.a a)
    (ht : a.tag = tagI16 ∨ a.tag = tagI8) :
    let grp := f.c.toNat % 16
    let h := bitsOf 4 1 f.c.toNat
    let w := planeW s.cur
    let l := (((rowLanes a).drop (128 * h)).take 128).map fun x =>
      intLane (planeSgn s.cur) (f.mod.getLsbD 3) w (readInt (planeSgn s.cur) (fmtBits (tagFmt a.tag)) x.val)
    let b := oldSlots f s (tagPL w)
    ¬ (h = 1 ∧ a.tag = tagI16) → grp < planeGroups w →
      Delivers (.vplane g inB f) inB f s 8
        (rowOfSlots (tagPL w) (b.take (grp * w) ++ plSlots w (l.map Lane.val) ++ b.drop (grp * w + w))) (numbered 0 l) := by
  dsimp only
  intro hh hg
  unfold VRow at ha
  have source : (a.tag != tagI16 && a.tag != tagI8) = false := by obtain ht | ht := ht <;> simp [ht]
  have inside : (decide (bitsOf 4 1 f.c.toNat = 1) && decide (a.tag = tagI16)
      || decide (planeGroups (planeW (staged (.vplane g inB f) s).cur) ≤ f.c.toNat % 16)) = false := by
    simp only [Bool.or_eq_false_iff, Bool.and_eq_false_imp, decide_eq_true_eq, decide_eq_false_iff_not, Nat.not_le]
    exact ⟨fun e e' => hh ⟨e, e'⟩, hg⟩
  refine delivers_of_putRow (run := opVplane inB f) {} h ?_
  simp only [opVplane, ha, source, inside, (stage_self h).baseSlots, bind, Except.bind, Bool.false_eq_true, if_false]
  rfl

/-- The elements of a group read at `n` bits. -/
def unplaned (f : VF) (s : State) (a : Row) (n : Nat) : List Lane :=
  (List.range 128).map fun j =>
    ⟨wrapN n (readInt (planeSgn s.cur) (planeW s.cur) (plElem (planeW s.cur) (slotsOf a) (f.c.toNat % 16) j)), 0, 0⟩

section Unplane
variable (h : Ready (.vunplane g inB f) s) (ha : VRow (.vunplane g inB f) inB s 0 f.a a) (ht : a.tag = tagPL (planeW s.cur))
  (hg : f.c.toNat % 16 < planeGroups (planeW s.cur))
include h ha ht hg

theorem vunplane_delivers_bytes (h8 : f.mod.getLsbD 0 = true) (hw : planeW s.cur ≤ 8) :
    let l := unplaned f s a 8
    let i0 := 128 * bitsOf 4 1 f.c.toNat
    Delivers (.vunplane g inB f) inB f s 8 (partRow f s tagI8 i0 l) (numbered i0 l) := by
  unfold VRow at ha
  have fits : (true && decide (8 < planeW (staged (.vunplane g inB f) s).cur)
      || decide (planeGroups (planeW (staged (.vunplane g inB f) s).cur) ≤ f.c.toNat % 16)) = false := by
    simp only [Bool.true_and, Bool.or_eq_false_iff, decide_eq_false_iff_not, Nat.not_le, Nat.not_lt]
    exact ⟨hw, hg⟩
  refine delivers_of_putRow (run := opVunplane inB f) {} h ?_
  simp only [opVunplane, ha, needPL_staged _ _ ht, h8, fits, (stage_self h).putPart, bind, Except.bind, Bool.false_eq_true, if_false,
    if_true]
  rfl

theorem vunplane_delivers_halves (h8 : f.mod.getLsbD 0 = false) :
    Delivers (.vunplane g inB f) inB f s 8 (rowOfLanes tagI16 (unplaned f s a 16)) (numbered 0 (unplaned f s a 16)) := by
  unfold VRow at ha
  have fits : (false && decide (8 < planeW (staged (.vunplane g inB f) s).cur)
      || decide (planeGroups (planeW (staged (.vunplane g inB f) s).cur) ≤ f.c.toNat % 16)) = false := by
    simp only [Bool.false_and, Bool.false_or, decide_eq_false_iff_not, Nat.not_le]
    exact hg
  refine delivers_of_putRow (run := opVunplane inB f) {} h ?_
  simp only [opVunplane, ha, needPL_staged _ _ ht, h8, fits, bind, Except.bind, Bool.false_eq_true, if_false]
  rfl

end Unplane

theorem delivers_of_vPlane2 {i : Instr} {op : Int → Int → Int} (hi : IssuedAs i (vPlane2 f inB op)) (h : Ready i s)
    (ha : VRow i inB s 0 f.a a) (hb : VRow i inB s 1 f.b b) (hta : a.tag = tagPL (planeW s.cur)) (htb : b.tag = tagPL (planeW s.cur)) :
    Delivers i inB f s 8 (planeRow f s op a b).1 (planeRow f s op a b).2 := by
  unfold VRow at ha hb
  refine delivers_of_putRow hi h ?_
  simp only [vPlane2, ha, hb, needPL_staged _ _ hta, needPL_staged _ _ htb, bind, Except.bind]
  rfl

theorem vpand_delivers (h : Ready (.vpand g inB f) s) (ha : VRow (.vpand g inB f) inB s 0 f.a a)
    (hb : VRow (.vpand g inB f) inB s 1 f.b b) (hta : a.tag = tagPL (planeW s.cur)) (htb : b.tag = tagPL (planeW s.cur)) :
    Delivers (.vpand g inB f) inB f s 8 (rowOfSlots (tagPL (planeW s.cur)) (lanesOf 128 16 (a.val &&& b.val).toNat)) [] := by
  unfold VRow at ha hb
  refine delivers_of_putRow (run := opVpand inB f) {} h ?_
  simp only [opVpand, ha, hb, needPL_staged _ _ hta, needPL_staged _ _ htb, staged_planeW, bitRow_tagPL, bind, Except.bind]

/-! ### Lane movement (R190, R191) -/

theorem rdMovable_ok (ha : rdVRow s inB 0 f.a = .ok a) (hm : movable a.tag = true) : rdMovable s inB f = .ok a := by
  simp only [rdMovable, ha, hm, bind, Except.bind, if_true]

theorem vbcast_delivers {x : Lane} (h : Ready (.vbcast g inB f) s) (ha : VRow (.vbcast g inB f) inB s 0 f.a a)
    (hm : movable a.tag = true) (hx : (rowLanes a)[f.c.toNat]? = some x) :
    let l := List.replicate (laneCount (tagFmt a.tag)) x
    Delivers (.vbcast g inB f) inB f s 9 (rowOfLanes a.tag l) (numbered 0 l) := by
  refine delivers_of_putRow (run := opVbcast inB f) {} h ?_
  simp only [opVbcast, rdMovable_ok ha hm, hx, bind, Except.bind]
  rfl

theorem vins_delivers {x : Scalar} (h : Ready (.vins g inB f) s) (ha : VRow (.vins g inB f) inB s 0 f.a a)
    (hx : VScalar (.vins g inB f) inB s 1 f.b x) (hm : movable a.tag = true) (hc : f.c.toNat < (rowLanes a).length) :
    let l := (rowLanes a).set f.c.toNat (scalarLane (tagFmt a.tag) x)
    Delivers (.vins g inB f) inB f s 9 (rowOfLanes a.tag l) (numbered 0 l) := by
  unfold VScalar at hx
  refine delivers_of_putRow (run := opVins inB f) {} h ?_
  simp only [opVins, rdMovable_ok ha hm, hx, if_neg (Nat.not_le.mpr hc), bind, Except.bind]
  rfl

theorem vperm_delivers (h : Ready (.vperm g inB f) s) (ha : VRow (.vperm g inB f) inB s 0 f.a a)
    (hb : VRow (.vperm g inB f) inB s 1 f.b b) (hm : movable a.tag = true) (ht : b.tag = tagI8 ∨ b.tag = tagI16)
    (hn : (rowLanes a).length ≤ laneCount (tagFmt b.tag)) :
    let l := ((rowLanes b).take (rowLanes a).length).map fun i =>
      (rowLanes a).getD (i.val % (rowLanes a).length) (Lane.zero 0)
    Delivers (.vperm g inB f) inB f s 9 (rowOfLanes a.tag l) (numbered 0 l) := by
  unfold VRow at hb
  have indices : (b.tag != tagI8 && b.tag != tagI16 || decide (laneCount (tagFmt b.tag) < (rowLanes a).length)) = false := by
    rw [decide_eq_false (Nat.not_lt.mpr hn)]
    obtain ht | ht := ht <;> simp [ht]
  refine delivers_of_putRow (run := opVperm inB f) {} h ?_
  simp only [opVperm, rdMovable_ok ha hm, hb, indices, bind, Except.bind, Bool.false_eq_true, if_false]
  rfl

/-- The lanes of a row moved up by the shift that C names, filled from below with the highest of `fill`. -/
def shifted (f : VF) (a : Row) (fill : List Lane) : List Lane :=
  fill.drop ((rowLanes a).length - f.c.toNat % 512) ++ (rowLanes a).take ((rowLanes a).length - f.c.toNat % 512)

theorem vshiftl_delivers_zeros (h : Ready (.vshiftl g inB f) s) (ha : VRow (.vshiftl g inB f) inB s 0 f.a a)
    (hm : movable a.tag = true) (h3 : f.mod.getLsbD 3 = false) (hk : f.c.toNat % 512 ≤ (rowLanes a).length) :
    let l := shifted f a (List.replicate (rowLanes a).length (Lane.zero (fmtPrec (tagFmt a.tag))))
    Delivers (.vshiftl g inB f) inB f s 9 (rowOfLanes a.tag l) (numbered 0 l) := by
  refine delivers_of_putRow (run := opVshiftl inB f) {} h ?_
  simp only [opVshiftl, rdMovable_ok ha hm, h3, if_neg (Nat.not_lt.mpr hk), bind, Except.bind, Bool.false_eq_true, if_false]
  rfl

theorem vshiftl_delivers_row (h : Ready (.vshiftl g inB f) s) (ha : VRow (.vshiftl g inB f) inB s 0 f.a a)
    (hb : VRow (.vshiftl g inB f) inB s 1 f.b b) (hm : movable a.tag = true) (ht : b.tag = a.tag) (h3 : f.mod.getLsbD 3 = true)
    (hk : f.c.toNat % 512 ≤ (rowLanes a).length) :
    let l := shifted f a (rowLanes b)
    Delivers (.vshiftl g inB f) inB f s 9 (rowOfLanes a.tag l) (numbered 0 l) := by
  unfold VRow at hb
  refine delivers_of_putRow (run := opVshiftl inB f) {} h ?_
  simp only [opVshiftl, rdMovable_ok ha hm, hb, ht, h3, if_neg (Nat.not_lt.mpr hk), bind, Except.bind, bne_self_eq_false,
    Bool.false_eq_true, if_false, if_true]
  rfl

theorem viota_delivers {x : Scalar} (h : Ready (.viota g inB f) s) (hx : VScalar (.viota g inB f) inB s 0 f.a x) :
    let l : List Lane := (List.range (2048 / vBits f)).map fun j => ⟨(x.val.toNat + j) % 2 ^ vBits f, 0, 0⟩
    Delivers (.viota g inB f) inB f s 9 (rowOfLanes (intTag f) l) (numbered 0 l) := by
  unfold VScalar at hx
  refine delivers_of_putRow (run := opViota inB f) {} h ?_
  simp only [opViota, hx, bind, Except.bind]
  rfl

theorem vfill_delivers {x : Scalar} (h : Ready (.vfill g inB f) s) (hx : VScalar (.vfill g inB f) inB s 0 f.a x) :
    let fmt := 1 + f.mod.toNat % 8
    let l := List.replicate (laneCount fmt) (scalarLane fmt x)
    Delivers (.vfill g inB f) inB f s 4 (rowOfLanes (BitVec.ofNat 8 fmt) l) (numbered 0 l) := by
  unfold VScalar at hx
  refine delivers_of_putRow (run := opVfill inB f) {} h ?_
  simp only [opVfill, hx, bind, Except.bind]
  rfl

/-! ### Counts and tags as data (R192) -/

theorem vsigset_delivers (h : Ready (.vsigset g inB f) s) (ha : VRow (.vsigset g inB f) inB s 0 f.a a)
    (hb : VRow (.vsigset g inB f) inB s 1 f.b b) (ht : isFloatTag a.tag = true) :
    let l := (numbered 0 (rowLanes a)).map fun x =>
      let n := if fmtPrec (tagFmt a.tag) = 8 then bitsOf (4 * x.1) 4 b.val.toNat else bitsOf (8 * x.1) 8 b.val.toNat
      (⟨x.2.val, clampCount (fmtPrec (tagFmt a.tag)) x.2.val n, x.2.fl⟩ : Lane)
    Delivers (.vsigset g inB f) inB f s 4 (rowOfLanes a.tag l) (numbered 0 l) := by
  unfold VRow at ha hb
  refine delivers_of_putRow (run := opVsigset inB f) {} h ?_
  simp only [opVsigset, ha, hb, ht, bind, Except.bind, Bool.not_true, Bool.false_eq_true, if_false]
  rfl

/-- VFMT where no float row is renamed another float: the row itself, its bits under the new tag, or those with full counts. -/
theorem opVfmt_ok (ha : VRow (.vfmt g inB f) inB s 0 f.a a)
    (hf : ¬ (isFloatTag a.tag = true ∧ isFloatTag (f.c.setWidth 8) = true ∧ a.tag ≠ f.c.setWidth 8)) :
    opVfmt inB f (staged (.vfmt g inB f) s) =
    let tag : Byte := f.c.setWidth 8
    let p := fmtPrec (tagFmt tag)
    let l := (rowLanes ⟨a.val, 0, tag⟩).map fun x => (⟨x.val, clampCount p x.val p, x.fl⟩ : Lane)
    let v := staged (.vfmt g inB f) s
    if a.tag = tag then putRow v inB f 4 a [] false
    else if p = 0 then putRow v inB f 4 (bitRow tag a.val) [] false
    else putRow v inB f 4 (rowOfLanes tag l) (numbered 0 l) false := by
  unfold VRow at ha
  have renames : (isFloatTag a.tag && isFloatTag (f.c.setWidth 8) && a.tag != f.c.setWidth 8) = false := by
    rw [Bool.eq_false_iff]
    simpa only [ne_eq, Bool.and_eq_true, bne_iff_ne, and_assoc] using hf
  simp only [opVfmt, ha, renames, bind, Except.bind, Bool.false_eq_true, if_false]
  rfl

section Format
variable (h : Ready (.vfmt g inB f) s) (ha : VRow (.vfmt g inB f) inB s 0 f.a a)
  (hf : ¬ (isFloatTag a.tag = true ∧ isFloatTag (f.c.setWidth 8) = true ∧ a.tag ≠ f.c.setWidth 8))
include h ha hf

theorem vfmt_delivers_same (ht : a.tag = f.c.setWidth 8) : Delivers (.vfmt g inB f) inB f s 4 a [] :=
  delivers_of_putRow (run := opVfmt inB f) {} h ((opVfmt_ok ha hf).trans (if_pos ht))

theorem vfmt_delivers_bits (ht : a.tag ≠ f.c.setWidth 8) (hp : fmtPrec (tagFmt (f.c.setWidth 8)) = 0) :
    Delivers (.vfmt g inB f) inB f s 4 (bitRow (f.c.setWidth 8) a.val) [] :=
  delivers_of_putRow (run := opVfmt inB f) {} h ((opVfmt_ok ha hf).trans ((if_neg ht).trans (if_pos hp)))

theorem vfmt_delivers_counts (ht : a.tag ≠ f.c.setWidth 8) (hp : fmtPrec (tagFmt (f.c.setWidth 8)) ≠ 0) :
    let tag : Byte := f.c.setWidth 8
    let p := fmtPrec (tagFmt tag)
    let l := (rowLanes ⟨a.val, 0, tag⟩).map fun x => (⟨x.val, clampCount p x.val p, x.fl⟩ : Lane)
    Delivers (.vfmt g inB f) inB f s 4 (rowOfLanes tag l) (numbered 0 l) :=
  delivers_of_putRow (run := opVfmt inB f) {} h ((opVfmt_ok ha hf).trans ((if_neg ht).trans (if_neg hp)))

end Format

end Rows

end Sys2Proof.Machine
end

section
/-!
PROOFS. The vector operations complete (07 R167 to R193): lane-wise integers, bits and masks, lane moves and counts, conversions and bit
planes, reductions; and the tag that a write mask needs (R169).
-/
namespace Sys2Proof.Machine

open Sys2Proof.Claims

-- one proof after the other: the stacks of proofs that wait side by side outgrow the memory of the check
set_option Elab.async false

/-! ### Lane-wise integers (R173) -/

/-- Settles O10: each operation takes its typed lanes and delivers the lane-wise results under the write mask. An empty mask leaves the
destination and lets the row into the latch, which is the model's choice (log 88). -/
theorem vectorIntegerCompletes : Obligations.VectorIntegerCompletes :=
  ⟨vaddCompletes, vsubCompletes, vmulCompletes, vecTwo_of_vOp2, vecThree_of_vOp3, vecTwo_of_vInt2 fun a b => if b < a then b else a,
    vecTwo_of_vInt2 fun a b => if a < b then b else a, vecTwo_of_vInt2 fun a b => ((a - b).natAbs : Nat), vecTwo_of_vOp2, vecTwo_of_vOp2,
    vecTwo_of_vOp2, vecOne_of_vOp1⟩

/-! ### Reductions (R188, R189) -/

/-- Integer lanes have no count to check, so the check of a reduction needs no test of the precision (R134). -/
theorem putRed_checked (s : State) (inB : Bool) (f : VF) (tag : Byte) (x : Lane) (fl : Flags) :
    putRed s inB f tag x fl true =
      let below := belowFloor s.cur (fmtPrec (tagFmt tag)) [(0, x.cnt)]
      if f.mod.getLsbD 3 then putScalar s f 9 (laneScalar tag (!f.mod.getLsbD 2) x) fl below
      else putWhole s inB f 9 (rowOfLanes tag (List.replicate (laneCount (tagFmt tag)) x)) fl below := by
  have unchecked : (if (true && fmtPrec (tagFmt tag) != 0) = true then belowFloor s.cur (fmtPrec (tagFmt tag)) [(0, x.cnt)] else none)
      = belowFloor s.cur (fmtPrec (tagFmt tag)) [(0, x.cnt)] := by
    by_cases hp : fmtPrec (tagFmt tag) = 0
    · simp [belowFloor, hp]
    · simp [hp]
  simp only [putRed, unchecked]

theorem Stage.vReduce {i : Instr} {s v : State} (h : Stage i s v) {inB : Bool} {f : VF} {a : Row} (ha : rdVRow v inB 0 f.a = .ok a)
    (ht : (isIntTag a.tag || isFloatTag a.tag) = true) (gf gi : Nat → Lane → Lane → Lane) (ef ei : Nat → Lane) :
    let r := treeResult gf gi ef ei a (s.cur.regs.mask f.k)
    Machine.vReduce f inB gf gi ef ei v = putRed v inB f a.tag r.1 r.2 true := by
  have source : (!isIntTag a.tag && !isFloatTag a.tag) = false := by rw [← Bool.not_or, ht]; rfl
  simp only [Machine.vReduce, treeResult, ha, h.rdK, source, bind, Except.bind, Bool.false_eq_true, if_false]

theorem vecReduce_of_vReduce {mk : Guard → Bool → VF → Instr} {gf gi : VF → Nat → Lane → Lane → Lane} {ef ei : VF → Nat → Lane}
    (hi : ∀ g inB f, IssuedAs (mk g inB f) (vReduce f inB (gf f) (gi f) (ef f) (ei f)) := by exact fun _ _ _ => {}) :
    VecReduce mk (fun t => isIntTag t || isFloatTag t) (fun f => treeResult (gf f) (gi f) (ef f) (ei f)) :=
  fun g inB f _ _ h ha ht => gives_of_scalarOrRow (hi g inB f) h
    (((stage_self h).vReduce ha ht (gf f) (gi f) (ef f) (ei f)).trans (putRed_checked _ _ _ _ _ _))

theorem vrsigmin_gives {g : Guard} {inB : Bool} {f : VF} {s : State} {a : Row} (h : Ready (.vrsigmin g inB f) s)
    (ha : VRow (.vrsigmin g inB f) inB s 0 f.a a) (ht : isFloatTag a.tag = true) :
    let fmt := tagFmt a.tag
    let m := ((numbered 0 (rowLanes a)).filter fun x => laneOn (s.cur.regs.mask f.k) fmt x.1).foldl (fun m x => min m x.2.cnt)
      (fmtPrec fmt)
    if f.mod.getLsbD 3 then
      Gives (.vrsigmin g inB f) s 9 [.scalar (f.dst.setWidth 5) ⟨BitVec.ofNat 64 m, 24⟩] (.scalar ⟨BitVec.ofNat 64 m, 24⟩) 0
    else GivesWhole (.vrsigmin g inB f) f s 9 (rowOfLanes tagI32 (List.replicate 64 ⟨m, 0, 0⟩)) 0 := by
  unfold VRow at ha
  refine gives_of_scalarOrRow (run := opVrsigmin inB f) (inB := inB) {} h ?_
  simp only [opVrsigmin, ha, (stage_self h).rdK, ht, bind, Except.bind, Bool.not_true, Bool.false_eq_true, if_false]

/-- Settles O13: each reduction runs the pairwise tree over the enabled lanes and delivers its root to a scalar or to every lane. -/
theorem reductionsComplete : Obligations.ReductionsComplete :=
  ⟨vecReduce_of_vReduce, vecReduce_of_vReduce, vecReduce_of_vReduce, fun _ _ _ _ _ h ha ht => vrsigmin_gives h ha ht⟩

/-! ### Conversions and bit planes (R181 to R187) -/

theorem conversionsComplete : ConversionsComplete := by
  refine ⟨fun g inB f s a h ha hs => ?_, fun g inB f s a h ha ht hv hm => ?_, fun g inB f s a h ha ht hv hm => ?_⟩
  · intro sf df m part tag hp hm
    exact (vcvt_delivers h ha hs hp).givesRow hm
  · exact (vcbdec_delivers h ha ht hv).givesRow hm
  · exact (vcbenc_delivers h ha ht hv).givesRow hm

theorem bitPlanesComplete : BitPlanesComplete := by
  refine ⟨fun g inB f s a h ha ht => ?_, fun g inB f s a h ha ht => ?_,
    fun g inB f s a b hta htb hm => ⟨fun h ha hb => ?_, fun h ha hb => ?_, fun h ha hb => ?_⟩, fun g inB f s a h ha ht => ?_⟩
  · intro grp half w hh hg hm
    exact (vplane_delivers h ha ht hh hg).givesRow hm
  · dsimp only
    intro hw hg hm
    cases h8 : f.mod.getLsbD 0 with
    | false =>
      simp only [h8, Bool.false_eq_true, if_false] at hm ⊢
      exact (vunplane_delivers_halves h ha ht hg h8).givesRow hm
    | true =>
      simp only [h8, if_true] at hm ⊢
      exact (vunplane_delivers_bytes h ha ht hg h8 (hw h8)).givesRow hm
  · exact (delivers_of_vPlane2 {} h ha hb hta htb).givesRow hm
  · exact (delivers_of_vPlane2 {} h ha hb hta htb).givesRow hm
  · exact (vpand_delivers h ha hb hta htb).givesRow hm
  · unfold VRow at ha
    refine givesWhole_of_putWhole (run := opVpcnt inB f) (inB := inB) {} h ?_
    simp only [opVpcnt, ha, needPL_staged _ _ ht, (stage_self h).rdK, bind, Except.bind]
    rfl

/-- Settles O14: each form delivers its part over the base row. What VCBENC gives where no entry is near, and when it raises no NX, are
the model's choices (logs 12, 97); so is the latch under an empty mask (log 88). -/
theorem conversionsAndPlanesComplete : Obligations.ConversionsAndPlanesComplete := ⟨conversionsComplete, bitPlanesComplete⟩

/-! ### Bits and masks (R173 to R175, R178, R191, R193) -/

theorem vecBits_of_vBit2 {mk : Guard → Bool → VF → Instr} {v : RowBits → RowBits → RowBits}
    (hi : ∀ g inB f, IssuedAs (mk g inB f) (vBit2 f inB v) := by exact fun _ _ _ => {}) : VecBits mk v :=
  fun g inB f _ _ _ _ h ha hb ht hm => (delivers_of_vBit2 (hi g inB f) h ha hb ht).givesRow hm

theorem vectorBitwiseCompletes : VectorBitwiseCompletes := by
  refine ⟨vecBits_of_vBit2, vecBits_of_vBit2, vecBits_of_vBit2, fun g inB f s a h ha hm => (vnot_delivers h ha).givesRow hm,
    fun g inB f s a b tag h ha hb ht hta htb => ?_, fun g inB f s a h ha hm => (vmov_delivers h ha).givesRow hm⟩
  unfold VSrc at ha hb
  refine givesWhole_of_putWhole (run := opVsel inB f) (inB := inB) {} h ?_
  simp only [opVsel, ha, hb, ht, (stage_self h).rdK, hta, htb, bind, Except.bind, bne_self_eq_false, Bool.or_false, Bool.false_eq_true,
    if_false]

theorem maskTwo_of_opK2 {mk : Guard → Bool → VF → Instr} {v : Mask → Mask → Mask}
    (hi : ∀ g inB f, IssuedAs (mk g inB f) (opK2 f v) := by exact fun _ _ _ => {}) : MaskTwo mk v := by
  intro g inB f s h
  refine gives_of_putMask (hi g inB f) h ?_
  simp only [opK2, (stage_self h).rdKOperand, bind, Except.bind]

theorem vectorMasksComplete : VectorMasksComplete := by
  refine ⟨fun g inB f s a b la lb h ha hb hla hlb => ?_, fun g inB f s a b la lb h ha hb hla hlb => ?_, maskTwo_of_opK2, maskTwo_of_opK2,
    fun g inB f s h => ?_, fun g inB f s h => ?_⟩
  · unfold VSrc at ha hb
    unfold Lanes intTag at hla hlb
    refine gives_of_putMask (run := opVcmp inB f) {} h ?_
    simp only [opVcmp, ha, hb, hla, hlb, (stage_self h).rdK, (stage_self h).rdOldMask, bind, Except.bind]
  · unfold VSrc at ha hb
    unfold Lanes at hla hlb
    refine gives_of_putMask (run := opVfcmp inB f) {} h ?_
    simp only [opVfcmp, ha, hb, hla, hlb, (stage_self h).rdK, (stage_self h).rdOldMask, bind, Except.bind]
  · refine gives_of_putMask (run := opKnot inB f) {} h ?_
    simp only [opKnot, (stage_self h).rdKOperand, bind, Except.bind]
  · refine gives_of_putScalar (run := opKpopc inB f) {} h ?_
    simp only [opKpopc, (stage_self h).rdKOperand, bind, Except.bind]

/-- Settles O17: rows are delivered whole or under the write mask, comparisons and mask operations emit one mask. The old mask is read
at issue, and the latch takes a row under an empty mask: both the model's choices (logs 68, 88). -/
theorem vectorBitsAndMasksComplete : Obligations.VectorBitsAndMasksComplete := ⟨vectorBitwiseCompletes, vectorMasksComplete⟩

/-! ### Lane moves, counts and tags (R190 to R192) -/

theorem laneMovesComplete : LaneMovesComplete := by
  refine ⟨fun g inB f s a x h ha hm hx hk => (vbcast_delivers h ha hm hx).givesRow hk, fun g inB f s a x h ha ht hx => ?_,
    fun g inB f s a h ha ht hw => ?_, fun g inB f s a b h ha hb hm hc hk => (vins_delivers h ha hb hm hc).givesRow hk,
    fun g inB f s a b h ha hb hm ht hn hk => (vperm_delivers h ha hb hm ht hn).givesRow hk,
    fun g inB f s a h ha hm h3 hn hk => (vshiftl_delivers_zeros h ha hm h3 hn).givesRow hk,
    fun g inB f s a b h ha hb hm ht h3 hn hk => (vshiftl_delivers_row h ha hb hm ht h3 hn).givesRow hk,
    fun g inB f s a h ha hk => (viota_delivers h ha).givesRow hk, fun g inB f s a h ha hk => (vfill_delivers h ha).givesRow hk⟩
  · unfold VRow at ha
    refine gives_of_putScalar (run := opVext inB f) {} h ?_
    simp only [opVext, ha, if_neg ht, hx, bind, Except.bind]
  · unfold VRow at ha
    dsimp only
    intro hl
    have inside : ¬ 128 * planeGroups (planeW (staged (.vext g inB f) s).cur) ≤ bitsOf 0 1 f.mod.toNat * 1024 + f.c.toNat :=
      Nat.not_le.mpr hl
    refine gives_of_putScalar (run := opVext inB f) {} h ?_
    simp only [opVext, ha, if_pos ht, needPL_staged _ _ hw, if_neg inside, bind, Except.bind]
    rfl

theorem countsAsDataComplete : CountsAsDataComplete := by
  refine ⟨fun g inB f s a h ha hk => (vsig_delivers h ha).givesRow hk,
    fun g inB f s a b h ha hb ht hk => (vsigset_delivers h ha hb ht).givesRow hk, fun g inB f s a h ha => ?_⟩
  intro tag p hf hk
  split
  case isTrue same =>
    refine (vfmt_delivers_same h ha hf same).givesRow ?_
    rw [same]
    exact hk
  case isFalse other =>
    split
    case isTrue bits =>
      refine (vfmt_delivers_bits h ha hf other bits).givesRow ?_
      rw [bitRow_tag]
      exact hk
    case isFalse float => exact (vfmt_delivers_counts h ha hf other float).givesRow hk

/-- Settles O18: each form delivers its row under the write mask, VEXT emits one scalar. The latch under an empty mask is the model's
choice (log 88). -/
theorem laneMovesAndCountsComplete : Obligations.LaneMovesAndCountsComplete := ⟨laneMovesComplete, countsAsDataComplete⟩

/-! ### The tag that a write mask needs (R169) -/

section NeedsTag
variable {mk : Guard → Bool → VF → Instr} {tag : VF → Byte}

theorem needsTagOne_of_vOp1 {cls : Nat} {chk : Bool} {v : VF → Lane → Lane}
    (hi : ∀ g inB f, IssuedAs (mk g inB f) (vOp1 f inB cls (tag f) chk (v f)) := by exact fun _ _ _ => {}) : NeedsTagOne mk tag :=
  fun g inB f _ _ _ h ha hla => (delivers_of_vOp1 (hi g inB f) h ha hla).needsTag

theorem needsTagOne_of_vTrans {op : TransOp} (hi : ∀ g inB f, IssuedAs (mk g inB f) (vTrans f inB op) := by exact fun _ _ _ => {}) :
    NeedsTagOne mk vFtag :=
  fun g inB f _ _ _ h ha hla => (delivers_of_vTrans (hi g inB f) h ha hla).needsTag

theorem needsTagTwo_of_vOp2 {cls : Nat} {chk : Bool} {v : VF → Lane → Lane → Lane}
    (hi : ∀ g inB f, IssuedAs (mk g inB f) (vOp2 f inB cls (tag f) chk (v f)) := by exact fun _ _ _ => {}) : NeedsTagTwo mk tag :=
  fun g inB f _ _ _ _ _ h ha hb hla hlb => (delivers_of_vOp2 (hi g inB f) h ha hb hla hlb).needsTag

theorem needsTagThree_of_vOp3 {cls : Nat} {chk : Bool} {v : VF → Lane → Lane → Lane → Lane}
    (hi : ∀ g inB f, IssuedAs (mk g inB f) (vOp3 f inB cls (tag f) chk (v f)) := by exact fun _ _ _ => {}) : NeedsTagThree mk tag :=
  fun g inB f _ _ _ _ _ _ _ h ha hb hc hla hlb hlc => (delivers_of_vOp3 (hi g inB f) h ha hb hc hla hlb hlc).needsTag

theorem needsTagBits_of_vBit2 {v : RowBits → RowBits → RowBits}
    (hi : ∀ g inB f, IssuedAs (mk g inB f) (vBit2 f inB v) := by exact fun _ _ _ => {}) : NeedsTagBits mk :=
  fun g inB f _ _ _ _ h ha hb ht => (delivers_of_vBit2 (hi g inB f) h ha hb ht).needsTag (bitRow_tag _ _)

end NeedsTag

section Rows
variable {g : Guard} {inB : Bool} {f : VF} {s : State} {a : Row}

theorem vunplane_needsTag (h : Ready (.vunplane g inB f) s) (ha : VRow (.vunplane g inB f) inB s 0 f.a a)
    (ht : a.tag = tagPL (planeW s.cur)) (hw : f.mod.getLsbD 0 = true → planeW s.cur ≤ 8)
    (hg : f.c.toNat % 16 < planeGroups (planeW s.cur)) :
    NeedsTag (.vunplane g inB f) f s (if f.mod.getLsbD 0 then tagI8 else tagI16) := by
  by_cases bytes : f.mod.getLsbD 0 = true
  · exact (vunplane_delivers_bytes h ha ht hg bytes (hw bytes)).needsTag (if_pos bytes).symm
  · exact (vunplane_delivers_halves h ha ht hg (Bool.eq_false_iff.mpr bytes)).needsTag (if_neg bytes).symm

theorem vfmt_needsTag (h : Ready (.vfmt g inB f) s) (ha : VRow (.vfmt g inB f) inB s 0 f.a a)
    (hf : ¬ (isFloatTag a.tag = true ∧ isFloatTag (f.c.setWidth 8) = true ∧ a.tag ≠ f.c.setWidth 8)) :
    NeedsTag (.vfmt g inB f) f s (f.c.setWidth 8) := by
  by_cases same : a.tag = f.c.setWidth 8
  · exact (vfmt_delivers_same h ha hf same).needsTag same
  · by_cases uncounted : fmtPrec (tagFmt (f.c.setWidth 8)) = 0
    · exact (vfmt_delivers_bits h ha hf same uncounted).needsTag (bitRow_tag _ _)
    · exact (vfmt_delivers_counts h ha hf same uncounted).needsTag

end Rows

/-- Settles O15: every form reaches the delivery under the write mask, which finds the other tag before it writes. -/
theorem writeMaskNeedsTag : Obligations.WriteMaskNeedsTag := by
  refine ⟨
    -- lane-wise integers
    needsTagTwo_of_vOp2, needsTagTwo_of_vOp2, needsTagTwo_of_vOp2, needsTagTwo_of_vOp2, needsTagTwo_of_vOp2, needsTagTwo_of_vOp2,
    needsTagTwo_of_vOp2, needsTagTwo_of_vOp2, needsTagTwo_of_vOp2, needsTagTwo_of_vOp2, needsTagThree_of_vOp3, needsTagOne_of_vOp1,
    -- lane-wise floating point and transcendentals
    needsTagTwo_of_vOp2, needsTagTwo_of_vOp2, needsTagTwo_of_vOp2, needsTagTwo_of_vOp2, needsTagTwo_of_vOp2, needsTagThree_of_vOp3,
    needsTagOne_of_vOp1, needsTagOne_of_vOp1, needsTagOne_of_vTrans, needsTagOne_of_vTrans, needsTagOne_of_vTrans,
    needsTagOne_of_vTrans, needsTagOne_of_vTrans,
    -- bitwise operations and whole rows
    needsTagBits_of_vBit2, needsTagBits_of_vBit2, needsTagBits_of_vBit2,
    fun _ _ _ _ _ h ha _ => (vnot_delivers h ha).needsTag (bitRow_tag _ _), fun _ _ _ _ _ h ha _ => (vmov_delivers h ha).needsTag,
    -- conversions and the codebook
    fun _ _ _ _ _ h ha ⟨hs, hp⟩ => (vcvt_delivers h ha hs hp).needsTag,
    fun _ _ _ _ _ h ha ⟨ht, hv⟩ => (vcbdec_delivers h ha ht hv).needsTag,
    fun _ _ _ _ _ h ha ⟨ht, hv⟩ => (vcbenc_delivers h ha ht hv).needsTag,
    -- bit planes
    fun _ _ _ _ _ h ha ⟨ht, hh, hg⟩ => (vplane_delivers h ha ht hh hg).needsTag,
    fun g inB f s a h ha ⟨ht, hw, hg⟩ => vunplane_needsTag h ha ht hw hg, ?_,
    -- lane moves
    fun _ _ _ _ _ h ha ⟨hm, hc⟩ => (vbcast_delivers h ha hm (List.getElem?_eq_getElem hc)).needsTag,
    fun _ _ _ _ _ _ h ha hb hm hc => (vins_delivers h ha hb hm hc).needsTag,
    fun _ _ _ _ _ _ h ha hb ⟨hm, ht, hn⟩ => (vperm_delivers h ha hb hm ht hn).needsTag,
    fun _ _ _ _ _ h ha ⟨hm, h3, hk⟩ => (vshiftl_delivers_zeros h ha hm h3 hk).needsTag,
    fun _ _ _ _ _ _ h ha hb ⟨hm, ht, h3, hk⟩ => (vshiftl_delivers_row h ha hb hm ht h3 hk).needsTag,
    fun _ _ _ _ _ h ha => (viota_delivers h ha).needsTag, fun _ _ _ _ _ h ha => (vfill_delivers h ha).needsTag,
    -- counts and tags
    fun _ _ _ _ _ h ha _ => (vsig_delivers h ha).needsTag, fun _ _ _ _ _ _ h ha hb ht => (vsigset_delivers h ha hb ht).needsTag,
    fun _ _ _ _ _ h ha hf => vfmt_needsTag h ha hf⟩
  -- VPADD, VPSUB and VPAND
  simp only [List.forall_mem_cons, List.not_mem_nil, false_imp_iff, implies_true, and_true]
  exact ⟨fun _ _ _ _ _ _ h ha hb ⟨hta, htb⟩ => (delivers_of_vPlane2 {} h ha hb hta htb).needsTag,
    fun _ _ _ _ _ _ h ha hb ⟨hta, htb⟩ => (delivers_of_vPlane2 {} h ha hb hta htb).needsTag,
    fun _ _ _ _ _ _ h ha hb ⟨hta, htb⟩ => (vpand_delivers h ha hb hta htb).needsTag⟩

end Sys2Proof.Machine
end

section
/-!
PROOFS. The sync and queue instructions at issue (11 R288 to R298, R302 to R304; 12 R325; 16 R388): the posting operations send theirs, the
answered ones complete with what their answer holds.
-/
namespace Sys2Proof.Machine

open Sys2Proof.Claims

/-! ### Effects that leave the bundle's own data alone -/

/-- State `v` is the stage of operation `i` but for what neither the retirement of its bundle nor the timing of its result reads. -/
structure KeepsBundle (i : Instr) (s v : State) : Prop where
  iss : v.cur.iss = (staged i s).cur.iss
  issue : KeepsIssue s v
  lat : v.cur.lat = s.cur.lat
  mode : sigMode v.cur = sigMode s.cur

theorem keepsBundle_staged (i : Instr) (s : State) : KeepsBundle i s (staged i s) := ⟨rfl, {}, rfl, rfl⟩

theorem KeepsBundle.settled {i : Instr} {s v : State} (k : KeepsBundle i s v) (h : Ready i s) : Settled s v :=
  settled_of_cur h (by rw [k.iss]; exact ⟨rfl, rfl, rfl⟩) ⟨k.issue.ctl, k.issue.pc, k.issue.pt, k.issue.repi, k.issue.fl⟩

theorem KeepsBundle.after {i : Instr} {s v : State} (k : KeepsBundle i s v) : v.cur.iss.after = .none := by
  rw [k.iss]
  rfl

/-- An operation that answers with such a state has that effect. -/
theorem does_of_keeps {i : Instr} {run : State → Op State} {s v : State} (hi : IssuedAs i run) (h : Ready i s)
    (hr : run (staged i s) = .ok v) (k : KeepsBundle i s v) : Does i s v :=
  does_of h (hi.exec_eq s) hr (k.settled h) k.after hi.notRett hi.notCread

/-- One that emits a result on such a state has that effect and that result. -/
theorem doesAndGives_of_keeps {i : Instr} {run : State → Op State} {s v : State} {cls : Nat} {res : List Write} {latch : Latch}
    {fl : Flags} {below : Option Nat} (hi : IssuedAs i run) (h : Ready i s) (hr : run (staged i s) = .ok (emit v cls res latch fl below))
    (k : KeepsBundle i s v) : DoesAndGives i s v cls res latch fl below :=
  doesAndGives_of h (hi.exec_eq s) hr (k.settled h) k.after hi.notRett hi.slot k.lat (by rw [k.iss]; rfl) (by rw [k.iss]; rfl) k.mode
    hi.notCread

theorem KeepsBundle.takeAcq {i : Instr} {s v : State} (k : KeepsBundle i s v) (p : Pending) : KeepsBundle i s (takeAcq v p) := by
  unfold Machine.takeAcq
  cases p.acq with
  | none => exact k
  | some a => exact ⟨k.iss, ⟨k.issue.ctl, k.issue.pc, k.issue.pt, k.issue.repi, k.issue.fl⟩, k.lat, k.mode⟩

theorem KeepsBundle.markPoison {i : Instr} {s v : State} (k : KeepsBundle i s v) (p : Pending) : KeepsBundle i s (markPoison v p) := by
  unfold Machine.markPoison
  split
  · exact ⟨k.iss, ⟨k.issue.ctl, k.issue.pc, k.issue.pt, k.issue.repi, k.issue.fl⟩, k.lat, k.mode⟩
  · exact k

/-! ### What the steps of the operations answer where nothing stands in their way -/

theorem notInTask_ok {s : State} (h : s.cur.task = none) : notInTask s = .ok () := by
  rw [notInTask, h]
  rfl

theorem frontierOnly_ok {s : State} (h : speculative s.cur = false) : frontierOnly s = .ok () := by
  rw [frontierOnly, h]
  rfl

theorem Stage.syncN {i : Instr} {s v : State} (h : Stage i s v) (f : SYF) : Machine.syncN v f = .ok (amount s f) := by
  simp only [Machine.syncN, amount, reg, h.rdS, bind, Except.bind]
  split <;> rfl

/-- An answer that has come and is no fault goes to its operation, whether the operation waits or tries. -/
theorem answered_ok {s : State} {p : Pending} {code : Nat} (h : Claims.Answer s p code) (wait : Bool) (send : State → State) :
    answered s wait send = .ok p := by
  obtain ⟨hw, ha, h2, h3, h4, h7⟩ := h
  simp only [answered, hw, ha]
  unfold answerFault
  split
  · exact absurd rfl h2
  · exact absurd rfl h3
  · exact absurd rfl h4
  · exact absurd rfl h7
  · rfl

/-! ### Posting operations (R291, R296 to R298, R302, R303, R325) -/

section Runs
variable {i : Instr} {s v : State} {f : SYF} {a : SyncAt}

theorem Stage.opSemInit (h : Stage i s v) (ht : v.cur.task = none) (ha : syncAddr v (reg s f.sa) false = .ok a) :
    Machine.opSemInit f v = .ok (postSync v (.semInit anyGuard f) a ((reg s f.sb).toNat % 2 ^ 32) false) := by
  rw [reg] at ha
  simp only [Machine.opSemInit, notInTask_ok ht, h.rdS, ha, reg, bind, Except.bind]

theorem Stage.opSemPost (h : Stage i s v) (ht : v.cur.task = none) (ha : syncAddr v (reg s f.sa) false = .ok a) :
    Machine.opSemPost f v = .ok (postSync v (.semPost anyGuard f) a (amount s f) true) := by
  rw [reg] at ha
  simp only [Machine.opSemPost, notInTask_ok ht, h.rdS, h.syncN, ha, bind, Except.bind]

theorem Stage.opBarInit (h : Stage i s v) (ht : v.cur.task = none) (hz : bitsOf 16 24 (reg s f.sb).toNat = 0)
    (ha : syncAddr v (reg s f.sa) true = .ok a) :
    Machine.opBarInit f v = .ok (postSync v (.barInit anyGuard f) a (reg s f.sb).toNat false) := by
  rw [reg] at ha hz
  simp only [Machine.opBarInit, notInTask_ok ht, h.rdS, need, hz, decide_true, if_true, ha, reg, bind, Except.bind]

theorem Stage.opBarArrive (h : Stage i s v) (ht : v.cur.task = none) (ha : syncAddr v (reg s f.sa) true = .ok a) :
    Machine.opBarArrive f v = .ok (postSync v (.barArrive anyGuard f) a (amount s f) true) := by
  rw [reg] at ha
  simp only [Machine.opBarArrive, notInTask_ok ht, h.rdS, h.syncN, ha, bind, Except.bind]

theorem Stage.opBarExpect (h : Stage i s v) (ht : v.cur.task = none) (ha : syncAddr v (reg s f.sa) true = .ok a) :
    Machine.opBarExpect f v = .ok (postSync v (.barExpect anyGuard f) a (amount s f) false) := by
  rw [reg] at ha
  simp only [Machine.opBarExpect, notInTask_ok ht, h.rdS, h.syncN, ha, bind, Except.bind]

theorem Stage.opRel (h : Stage i s v) (ht : v.cur.task = none) (ha : syncAddr v (reg s f.sa) false = .ok a) :
    Machine.opRel f v = .ok (postSync v (.rel anyGuard f) a 0 true) := by
  rw [reg] at ha
  simp only [Machine.opRel, notInTask_ok ht, h.rdS, ha, bind, Except.bind]

/-! ### Answered operations (R292 to R294, R298, R304, R325, R388) -/

variable {p : Pending} {code : Nat}

theorem Stage.opSemWait (h : Stage i s v) (ht : v.cur.task = none) (ha : syncAddr v (reg s f.sa) false = .ok a)
    (hp : Claims.Answer v p code) : Machine.opSemWait f v = .ok (takeAcq v p) := by
  rw [reg] at ha
  simp only [Machine.opSemWait, notInTask_ok ht, h.rdS, h.syncN, ha, answered_ok hp, bind, Except.bind]

theorem Stage.opBarWait (h : Stage i s v) (ht : v.cur.task = none) (ha : syncAddr v (reg s f.sa) true = .ok a)
    (hp : Claims.Answer v p code) : Machine.opBarWait f v = .ok (takeAcq v p) := by
  rw [reg] at ha
  simp only [Machine.opBarWait, notInTask_ok ht, h.rdS, ha, answered_ok hp, bind, Except.bind]

theorem Stage.opAcq (h : Stage i s v) (ht : v.cur.task = none) (ha : syncAddr v (reg s f.sa) false = .ok a)
    (hp : Claims.Answer v p code) : Machine.opAcq f v = .ok (takeAcq v p) := by
  rw [reg] at ha
  simp only [Machine.opAcq, notInTask_ok ht, h.rdS, h.syncN, ha, answered_ok hp, bind, Except.bind]

theorem answer_is_one (hp : Claims.Answer s p code) : decide (p.answer = some 1) = decide (code = 1) := by
  rw [hp.2.1]
  exact decide_eq_decide.mpr Option.some_inj

theorem Stage.opSemTry (h : Stage i s v) (hs : speculative v.cur = false) (ha : syncAddr v (reg s f.sa) false = .ok a)
    (hp : Claims.Answer v p code) : Machine.opSemTry f v = .ok (emitP (takeAcq v p) 14 f.pd (code = 1) 0) := by
  rw [reg] at ha
  simp only [Machine.opSemTry, frontierOnly_ok hs, h.rdS, h.syncN, ha, answered_ok hp, answer_is_one hp, bind, Except.bind]

theorem Stage.opBarTest (h : Stage i s v) (hs : speculative v.cur = false) (ha : syncAddr v (reg s f.sa) true = .ok a)
    (hp : Claims.Answer v p code) : Machine.opBarTest f v = .ok (emitP (takeAcq v p) 14 f.pd (code = 1) 0) := by
  rw [reg] at ha
  simp only [Machine.opBarTest, frontierOnly_ok hs, h.rdS, ha, answered_ok hp, answer_is_one hp, bind, Except.bind]

theorem Stage.pushOp (h : Stage i s v) {r : Row} (hr : rdRowSrc v 99 1 (syQSel f) = .ok r) (ha : syncAddr v (reg s f.sa) false = .ok a)
    (hp : Claims.Answer v p code) (op : Instr) (wait : Bool) (cls : Nat) :
    Machine.pushOp op wait cls f v = .ok (emitP v cls f.pd (code = 1) 0) := by
  rw [reg] at ha
  simp only [Machine.pushOp, h.rdS, hr, ha, answered_ok hp, answer_is_one hp, bind, Except.bind]

theorem Stage.popOp_row (h : Stage i s v) (ha : syncAddr v (reg s f.sa) false = .ok a) (hp : Claims.Answer v p code) {r : Row}
    (hr : p.row = some r) (op : Instr) (wait : Bool) :
    Machine.popOp op wait f v
      = .ok (emit (markPoison (takeAcq v p) p) 13 [.row (syQSel f).toNat r, .pred f.pd true] .invalid 0 none) := by
  rw [reg] at ha
  simp only [Machine.popOp, h.rdS, h.dstRow, ha, answered_ok hp, hr, bind, Except.bind]

theorem Stage.popOp_none (h : Stage i s v) (ha : syncAddr v (reg s f.sa) false = .ok a) (hp : Claims.Answer v p code)
    (hr : p.row = none) (op : Instr) (wait : Bool) : Machine.popOp op wait f v = .ok (emitP v 13 f.pd false 0) := by
  rw [reg] at ha
  simp only [Machine.popOp, h.rdS, h.dstRow, ha, answered_ok hp, hr, bind, Except.bind]

theorem Stage.opQInfo (h : Stage i s v) (hs : speculative v.cur = false) (ha : syncAddr v (reg s f.sa) false = .ok a)
    (hp : Claims.Answer v p code) :
    Machine.opQInfo f v = .ok (emitS v 15 (f.ext.extractLsb' 30 5) (BitVec.ofNat 64 p.data) 0) := by
  rw [reg] at ha
  simp only [Machine.opQInfo, frontierOnly_ok hs, h.rdS, ha, answered_ok hp, bind, Except.bind]

end Runs

/-! ### What their bundles do -/

section Shapes
variable {mk : Guard → SYF → Instr} {run : SYF → State → Op State} {tagged : Bool}

theorem posts_of_postSync {rel : Bool} {ok : State → SYF → Prop} {n : State → SYF → Nat} (hi : ∀ g f, IssuedAs (mk g f) (run f))
    (hr : ∀ {i s v f a}, Stage i s v → v.cur.task = none → ok s f → syncAddr v (reg s f.sa) tagged = .ok a →
      run f v = .ok (postSync v (mk anyGuard f) a (n s f) rel)) : Posts mk tagged rel ok n :=
  fun g f _ _ h ht hok ha => does_of_keeps (hi g f) h (hr (stage_self h) ht hok ha) ⟨rfl, {}, rfl, rfl⟩

theorem answeredWait_of_takeAcq (hi : ∀ g f, IssuedAs (mk g f) (run f))
    (hr : ∀ {i s v f a p code}, Stage i s v → v.cur.task = none → syncAddr v (reg s f.sa) tagged = .ok a → Claims.Answer v p code →
      run f v = .ok (takeAcq v p)) : AnsweredWait mk tagged :=
  fun g f s _ p _ h ht ha hp => does_of_keeps (hi g f) h (hr (stage_self h) ht ha hp) ((keepsBundle_staged _ s).takeAcq p)

theorem answeredTry_of_emitP (hi : ∀ g f, IssuedAs (mk g f) (run f))
    (hr : ∀ {i s v f a p code}, Stage i s v → speculative v.cur = false → syncAddr v (reg s f.sa) tagged = .ok a →
      Claims.Answer v p code → run f v = .ok (emitP (takeAcq v p) 14 f.pd (code = 1) 0)) : AnsweredTry mk tagged :=
  fun g f s _ p _ h hs ha hp => doesAndGives_of_keeps (hi g f) h (hr (stage_self h) hs ha hp) ((keepsBundle_staged _ s).takeAcq p)

theorem queuePush_of_pushOp {wait : Bool} {cls : Nat} {ok : State → Prop} {op : SYF → Instr} (hi : ∀ g f, IssuedAs (mk g f) (run f))
    (hr : ∀ g f s, ok s → run f (staged (mk g f) s) = pushOp (op f) wait cls f (staged (mk g f) s)) : QueuePush mk cls ok :=
  fun g f s _ _ _ _ h hok hrow ha hp =>
    givesPred_of_emitP (hi g f) h ((hr g f s hok).trans ((stage_self h).pushOp hrow ha hp _ _ _))

theorem queuePop_of_popOp {wait : Bool} {ok : State → Prop} {op : SYF → Instr} (hi : ∀ g f, IssuedAs (mk g f) (run f))
    (hr : ∀ g f s, ok s → run f (staged (mk g f) s) = popOp (op f) wait f (staged (mk g f) s)) : QueuePop mk ok := by
  intro g f s a p code h hok ha hp
  cases hrow : p.row with
  | some r =>
    exact doesAndGives_of_keeps (hi g f) h ((hr g f s hok).trans ((stage_self h).popOp_row ha hp hrow _ _))
      (((keepsBundle_staged _ s).takeAcq p).markPoison p)
  | none => exact givesPred_of_emitP (hi g f) h ((hr g f s hok).trans ((stage_self h).popOp_none ha hp hrow _ _))

end Shapes

section Queues
variable {f : SYF} {s : State}

theorem opQPush_eq (h : s.cur.task = none) : opQPush f s = pushOp (.qPush anyGuard f) true 13 f s := by
  simp only [opQPush, notInTask_ok h, bind, Except.bind]
theorem opQPop_eq (h : s.cur.task = none) : opQPop f s = popOp (.qPop anyGuard f) true f s := by
  simp only [opQPop, notInTask_ok h, bind, Except.bind]
theorem opQTry_eq (h : speculative s.cur = false) : opQTry f s = pushOp (.qTry anyGuard f) false 14 f s := by
  simp only [opQTry, frontierOnly_ok h, bind, Except.bind]
theorem opQPopTry_eq (h : speculative s.cur = false) : opQPopTry f s = popOp (.qPopTry anyGuard f) false f s := by
  simp only [opQPopTry, frontierOnly_ok h, bind, Except.bind]
theorem opQPeek_eq (h : speculative s.cur = false) : opQPeek f s = popOp (.qPeek anyGuard f) false f s := by
  simp only [opQPeek, frontierOnly_ok h, bind, Except.bind]

end Queues

theorem postingSyncCompletes : PostingSyncCompletes :=
  ⟨posts_of_postSync (run := opSemInit) (fun _ _ => {}) fun h ht _ ha => h.opSemInit ht ha,
    posts_of_postSync (run := opSemPost) (fun _ _ => {}) fun h ht _ ha => h.opSemPost ht ha,
    posts_of_postSync (run := opBarInit) (fun _ _ => {}) Stage.opBarInit,
    posts_of_postSync (run := opBarArrive) (fun _ _ => {}) fun h ht _ ha => h.opBarArrive ht ha,
    posts_of_postSync (run := opBarExpect) (fun _ _ => {}) fun h ht _ ha => h.opBarExpect ht ha,
    posts_of_postSync (run := opRel) (fun _ _ => {}) fun h ht _ ha => h.opRel ht ha⟩

theorem answeredSyncCompletes : AnsweredSyncCompletes :=
  ⟨answeredWait_of_takeAcq (run := opSemWait) (fun _ _ => {}) Stage.opSemWait,
    answeredWait_of_takeAcq (run := opBarWait) (fun _ _ => {}) Stage.opBarWait,
    answeredWait_of_takeAcq (run := opAcq) (fun _ _ => {}) Stage.opAcq,
    answeredTry_of_emitP (run := opSemTry) (fun _ _ => {}) Stage.opSemTry,
    answeredTry_of_emitP (run := opBarTest) (fun _ _ => {}) Stage.opBarTest,
    queuePush_of_pushOp (run := opQPush) (fun _ _ => {}) fun _ _ _ ht => opQPush_eq ht,
    queuePush_of_pushOp (run := opQTry) (fun _ _ => {}) fun _ _ _ hs => opQTry_eq hs,
    queuePop_of_popOp (run := opQPop) (fun _ _ => {}) fun _ _ _ ht => opQPop_eq ht,
    queuePop_of_popOp (run := opQPopTry) (fun _ _ => {}) fun _ _ _ hs => opQPopTry_eq hs,
    queuePop_of_popOp (run := opQPeek) (fun _ _ => {}) fun _ _ _ hs => opQPeek_eq hs,
    fun _ f _ _ _ _ h hs ha hp => givesScalar_of_emitS (run := opQInfo f) {} h ((stage_self h).opQInfo hs ha hp)⟩

/-- Settles O25: a posting operation is on its way when its bundle has closed; an answered one completes with what its answer holds. -/
theorem syncInstructionsComplete : Obligations.SyncInstructionsComplete := ⟨postingSyncCompletes, answeredSyncCompletes⟩

end Sys2Proof.Machine
end

section
/-!
PROOFS. FENCE in a task (12 R326, R327; 17 R415, R419): it raises the blocking-use fault, so its bundle does not complete.
-/
namespace Sys2Proof.Machine

open Sys2Proof.Claims

/-- A bundle whose operation a task must not do takes the blocking-use fault (R415). -/
theorem trapsAt_of_blocked {i : Instr} {run : State → Op State} {s : State} (hi : IssuedAs i run) (h : Ready i s)
    (hr : run (staged i s) = trapOp 0x0C 2) : TrapsAt i s 0x0C 2 0 :=
  (hi.exec_eq s).trans (issueOne_trap (k := { cls := 0x0C, sub := 2 }) h hr (by decide) hi.notCread)

theorem opFence_inTask {s : State} (h : s.cur.task.isSome = true) (f : XCF) : opFence f s = trapOp 0x0C 2 := by
  have blocked : notInTask s = trapOp 0x0C 2 := if_neg (by simpa using Option.isSome_iff_ne_none.mp h)
  simp only [opFence, blocked, trapOp, bind, Except.bind]

theorem fence_trapsInTask {g : Guard} {f : XCF} {s : State} (h : Ready (.fence g f) s) (ht : s.cur.task.isSome = true) :
    TrapsAt (.fence g f) s 0x0C 2 0 :=
  trapsAt_of_blocked (run := opFence f) {} h (opFence_inTask (s := staged _ s) ht f)

/-- A domain of tile 0 with one task, which context 0 runs. -/
def fencingDom : Dom :=
  ⟨1, 0, [0], 0, 0, 4, 0, 0, 64, [0], 0, [0], [⟨1, none, 0, 0, 0, 0, 0, .running, some 0, [], 0, [], none, 0, false, 63, false, false⟩], 2, 0,
    none, false, false, [], some 0, 0, 0, true, [], []⟩
/-- Context 0 runs it speculatively; everything else is as at reset. -/
def fencingTask : State :=
  { State.reset with
    doms := [fencingDom]
    cur := { State.reset.cur with status := .running, task := some ⟨1, 1, 0, true, false, false, 0, 0, 1⟩ } }
/-- FENCE.FULL.DOM. -/
def fullFence : Instr := .fence ⟨0, false⟩ ⟨0x0000B80000000000⟩

theorem ready_fullFence : Ready fullFence fencingTask := (readyB_iff _ _).mp (by decide +kernel)

/-- The fault is deferred: the task parks and its context is free (R419). -/
theorem fullFence_freesContext {t : State} (h : exec fullFence fencingTask = .next t) : t.cur.task = none := by
  have trapped := h.symm.trans (fence_trapsInTask ready_fullFence rfl)
  injection trapped with ht
  rw [ht]
  decide +kernel

/-- Refutes O29: in a speculative task FENCE faults and the task leaves its context (R327, R419), where the clause for FENCE, which does not
ask for a context outside a task, keeps it. -/
theorem not_barriersTokensAndRegionsComplete : ¬ Obligations.BarriersTokensAndRegionsComplete := by
  rintro ⟨-, -, -, fence⟩
  obtain ⟨t, ht, closes⟩ := fence _ _ _ ready_fullFence
  have freed : t.cur.task = none := fullFence_freesContext ht
  have kept : t.cur.task = fencingTask.cur.task := closes.ctx.task
  rw [freed] at kept
  cases kept

end Sys2Proof.Machine
end
